-- ==== Sys2Proof/Word.lean ====
section
/-! DEFINITION. The word types of the HX720: a scalar register's 64 bits (R13), a vector register's 512 bytes and its
256-byte tail plane (R16), a predicate's 512 bits (R21). -/
namespace Sys2Proof

/-- A byte (R2). -/
abbrev Byte := BitVec 8

/-- The 64 data bits of a scalar register (R13). -/
abbrev Word := BitVec 64

/-- The 512 data bytes of a vector register (R16). -/
abbrev VData := BitVec 4096

/-- The 256-byte tail plane of a vector register (R16). -/
abbrev VTail := BitVec 2048

/-- A predicate register: bit i belongs to byte lane i (R21). -/
abbrev PData := BitVec 512

end Sys2Proof
end

