-- ==== Sys2Proof/Registers.lean ====
section
/-! DEFINITION. The registers of the management space (R409), by name: the spec gives their layouts, and offsets only for
some of them, so a management write names its register. -/
namespace Sys2Proof

/-- A register of the management space (R409), with its die, cluster and index. -/
inductive MgmtReg where
  /-- HIRQ (R410). -/
  | hirq
  /-- HIRQEN (R410). -/
  | hirqen
  /-- PARTMAP[c] (R411). -/
  | partmap (core : Fin 256)
  /-- RSTPART (R412). -/
  | rstpart
  /-- BOOTST (R415). -/
  | bootst
  /-- CLKSTAT (R418). -/
  | clkstat (cluster : Fin 16)
  /-- PWRCAP (R419). -/
  | pwrcap
  /-- FRZCTL (R420). -/
  | frzctl
  /-- QBASE (R313). -/
  | qbase (die : Fin 2) (queue : Fin 64)
  /-- JBASE (R313). -/
  | jbase (die : Fin 2) (queue : Fin 64)
  /-- QTAIL (R313). -/
  | qtail (die : Fin 2) (queue : Fin 64)
  /-- QHEAD (R313). -/
  | qhead (die : Fin 2) (queue : Fin 64)
  /-- QCFG (R313). -/
  | qcfg (die : Fin 2) (queue : Fin 64)
  /-- TROOT (R341). -/
  | troot (die : Fin 2) (part : BitVec 4)
  /-- FRBASE (R349). -/
  | frbase (die : Fin 2)
  /-- FANS (R350). -/
  | fans (die : Fin 2)
  /-- INVADDR (R353). -/
  | invaddr (die : Fin 2)
  /-- INVCTL (R353). -/
  | invctl (die : Fin 2)
  /-- TCBASE (R398). -/
  | tcbase (die : Fin 2)
  /-- TCTAIL (R398). -/
  | tctail (die : Fin 2)
  /-- TCHEAD (R398). -/
  | tchead (die : Fin 2)
  /-- TSTAT (R398). -/
  | tstat (die : Fin 2)
  /-- PORTCFG[j] of a pipeline (R291). -/
  | portcfg (cluster : Fin 16) (port : Fin 4)
  /-- PSTART[q] of a pipeline (R292). -/
  | pstart (cluster : Fin 16) (part : BitVec 4)
  /-- A counter of a pipeline (R293). -/
  | counter (cluster : Fin 16) (num : Fin 17)
  /-- CNTCLR of a pipeline (R293). -/
  | cntclr (cluster : Fin 16)
  /-- VIOLREC of a pipeline (R294). -/
  | violrec (cluster : Fin 16)
  /-- FABCFG (R422). -/
  | fabcfg (die : Fin 2)
  /-- PORTSTAT[j] (R427). -/
  | portstat (port : Fin 48)
  /-- Slot cell (s, j) of a die's router (R435). -/
  | slot (die : Fin 2) (slot : BitVec 8) (port : BitVec 5)
  /-- APTAB[q][a] (R440). -/
  | aptab (die : Fin 2) (part : BitVec 4) (entry : BitVec 5)
  /-- WINBASE[q][w] (R441). -/
  | winbase (die : Fin 2) (part : BitVec 4) (window : BitVec 8)
  /-- WINCTL[q][w] (R441). -/
  | winctl (die : Fin 2) (part : BitVec 4) (window : BitVec 8)
  /-- The parser states that a configuration blob allots to a partition in a pipeline (R377, R411): no register of the
  management space, written by the Reeve alone. -/
  | allot (cluster : Fin 16) (part : BitVec 4)
  /-- A word of the discovery table (R372, R409), by its number. -/
  | discovery (num : Nat)
  /-- A word of the measurement log (R409, R416), by its number. -/
  | measurement (num : Nat)
  /-- The scan window of the package registers (R420). -/
  | scanWindow
  /-- A word of the recovery upload region (R415), by its number. -/
  | recovery (num : Nat)
  deriving DecidableEq, Repr

/-- What a verified image has the Reeve write: a register, or what only the Reeve writes (R263, R409, R411, R415). -/
inductive ReeveWrite where
  /-- A register of the management space. -/
  | reg (reg : MgmtReg) (value : BitVec 64)
  /-- A state of the system profile's parser in a pipeline's system table memory (R263, R267). -/
  | sysParser (cluster : Fin 16) (num : BitVec 6) (state : BitVec 512)
  /-- A table, an entry, a program, a region or a hash seed in a stage's system table memory (R263), as a record of R377
  writes it for a partition. -/
  | sysRecord (cluster : Fin 16) (kind : Nat) (stage : Fin 16) (index : Nat) (payload : List Byte)
  /-- The table room of a partition in a stage (R377, R411): the tiles of the stage's core that it has for its tables. -/
  | tables (cluster : Fin 16) (stage : Fin 16) (part : BitVec 4) (tiles : BitVec 64)
  deriving DecidableEq, Repr

/-- An image of the boot (R415): its step (0 to 3, in the order of the rule's table; a configuration blob is of step 2), whether its signature and digest verify,
its security version (in the Reeve's firmware: the lowest that its manifest lets a blob have), its digest, the measurement
register that a configuration blob extends in place of MR2, where it names one from MR4 on (R416), and what it has the
Reeve write. -/
structure BootImage where
  step : Fin 4
  verified : Bool
  version : Nat
  digest : BitVec 384
  mr : BitVec 4
  writes : List ReeveWrite
  deriving DecidableEq, Repr

/-- A host access (R363, R407): a read, a write of data, or an atomic on a word of 4 or 8 bytes: fetch-and-add, exchange,
compare-and-exchange (with the value compared), and, or. -/
inductive HostOp where
  | read
  | write
  | add
  | swap
  | cas (compare : BitVec 64)
  | and
  | or
  deriving DecidableEq, Repr

end Sys2Proof
end

