-- ==== Sys2Proof/Syntax.lean ====
section
/-! DEFINITION. The instruction set of the Ranhan HX720: the ONE inductive `Instr`, one constructor per row of
spec/opcode_table.json.

* The rows with a 32-bit encoding are the words of bundles (R66-R93): their fields are the operand fields of
  R73-R77 and R81-R92. Bit 31 (E) frames bundles (R66) and is no operand; `encode` takes it as an argument.
* The `act` rows are the Sieve's action primitives (R274-R278), encoded in 64-bit words of action programs (R94).
* The other rows are the operations and events of spec/95_what_each_step_holds.md: they have no encoding, and
  their operands say to which unit they happen and, where something outside the machine acts, what it brings. -/
namespace Sys2Proof

/-- Every step of the part (spec/opcode_table.json): the words in the order of the table, then the primitives, then the
operations and events. -/
inductive Instr where
  /-- R112: Adds two scalar registers modulo 2^64. -/
  | add (g : BitVec 4) (rd rs rt : BitVec 5)
  /-- R112: Subtracts two scalar registers modulo 2^64. -/
  | sub (g : BitVec 4) (rd rs rt : BitVec 5)
  /-- R112: Bitwise AND of two scalar registers. -/
  | and (g : BitVec 4) (rd rs rt : BitVec 5)
  /-- R112: Bitwise OR of two scalar registers. -/
  | or (g : BitVec 4) (rd rs rt : BitVec 5)
  /-- R112: Bitwise XOR of two scalar registers. -/
  | xor (g : BitVec 4) (rd rs rt : BitVec 5)
  /-- R112: Computes a AND NOT b. -/
  | andn (g : BitVec 4) (rd rs rt : BitVec 5)
  /-- R112: Shifts left by b[5:0]. -/
  | sll (g : BitVec 4) (rd rs rt : BitVec 5)
  /-- R112: Shifts right logically by b[5:0]. -/
  | srl (g : BitVec 4) (rd rs rt : BitVec 5)
  /-- R112: Shifts right arithmetically by b[5:0]. -/
  | sra (g : BitVec 4) (rd rs rt : BitVec 5)
  /-- R112: Rotates right by b[5:0]. -/
  | ror (g : BitVec 4) (rd rs rt : BitVec 5)
  /-- R112: Writes 1 if a is less than b as signed values. -/
  | slt (g : BitVec 4) (rd rs rt : BitVec 5)
  /-- R112: Writes 1 if a is less than b as unsigned values. -/
  | sltn (g : BitVec 4) (rd rs rt : BitVec 5)
  /-- R112: Writes 1 if a equals b. -/
  | seq (g : BitVec 4) (rd rs rt : BitVec 5)
  /-- R112: Writes 1 if a differs from b. -/
  | sne (g : BitVec 4) (rd rs rt : BitVec 5)
  /-- R112: Writes the signed minimum. -/
  | min (g : BitVec 4) (rd rs rt : BitVec 5)
  /-- R112: Writes the signed maximum. -/
  | max (g : BitVec 4) (rd rs rt : BitVec 5)
  /-- R112: Writes the unsigned minimum. -/
  | minn (g : BitVec 4) (rd rs rt : BitVec 5)
  /-- R112: Writes the unsigned maximum. -/
  | maxn (g : BitVec 4) (rd rs rt : BitVec 5)
  /-- R112: Writes the low 64 bits of the product. -/
  | mul (g : BitVec 4) (rd rs rt : BitVec 5)
  /-- R112: Writes the high 64 bits of the signed product. -/
  | mulh (g : BitVec 4) (rd rs rt : BitVec 5)
  /-- R112: Writes the high 64 bits of the unsigned product. -/
  | mulhn (g : BitVec 4) (rd rs rt : BitVec 5)
  /-- R113: Signed division truncated towards zero, with fixed boundary results. -/
  | div (g : BitVec 4) (rd rs rt : BitVec 5)
  /-- R113: Unsigned division, with fixed boundary results. -/
  | divn (g : BitVec 4) (rd rs rt : BitVec 5)
  /-- R113: Signed remainder. -/
  | rem (g : BitVec 4) (rd rs rt : BitVec 5)
  /-- R113: Unsigned remainder. -/
  | remn (g : BitVec 4) (rd rs rt : BitVec 5)
  /-- R116: Extracts a bit field whose offset and width come from a register. -/
  | bfxr (g : BitVec 4) (rd rs rt : BitVec 5)
  /-- R116: Inserts a bit field whose offset and width come from a register. -/
  | bfir (g : BitVec 4) (rd rs rt : BitVec 5)
  /-- R112: Counts the 1 bits of a register. -/
  | popc (g : BitVec 4) (rd rs : BitVec 5)
  /-- R112: Counts the leading zero bits of a register. -/
  | clz (g : BitVec 4) (rd rs : BitVec 5)
  /-- R118: Scalar float add, rounded by carry. -/
  | fadd (g : BitVec 4) (rd rs rt : BitVec 5) (fmt : BitVec 2)
  /-- R118: Scalar float subtract. -/
  | fsub (g : BitVec 4) (rd rs rt : BitVec 5) (fmt : BitVec 2)
  /-- R118: Scalar float multiply. -/
  | fmul (g : BitVec 4) (rd rs rt : BitVec 5) (fmt : BitVec 2)
  /-- R118: Scalar fused multiply-add into rd, with one rounding. -/
  | ffma (g : BitVec 4) (rd rs rt : BitVec 5) (fmt : BitVec 2)
  /-- R119: Writes the smaller carried operand unchanged. -/
  | fmin (g : BitVec 4) (rd rs rt : BitVec 5) (fmt : BitVec 2)
  /-- R119: Writes the larger carried operand unchanged. -/
  | fmax (g : BitVec 4) (rd rs rt : BitVec 5) (fmt : BitVec 2)
  /-- R118: Scalar float divide, with fixed special cases. -/
  | fdiv (g : BitVec 4) (rd rs rt : BitVec 5) (fmt : BitVec 2)
  /-- R118: Scalar float square root. -/
  | fsqrt (g : BitVec 4) (rd rs : BitVec 5) (fmt : BitVec 2)
  /-- R119: Writes 1 if the carried values are equal. -/
  | fceq (g : BitVec 4) (rd rs rt : BitVec 5) (fmt : BitVec 2)
  /-- R119: Writes 1 if x is less than y. -/
  | fclt (g : BitVec 4) (rd rs rt : BitVec 5) (fmt : BitVec 2)
  /-- R119: Writes 1 if x is less than or equal to y. -/
  | fcle (g : BitVec 4) (rd rs rt : BitVec 5) (fmt : BitVec 2)
  /-- R120: Scalar conversion selected by rt, between floats and integers. -/
  | fcvt (g : BitVec 4) (rd rs sel : BitVec 5)
  /-- R121: Copies a register with its tail. -/
  | fmov (g : BitVec 4) (rd rs : BitVec 5)
  /-- R121: Reads a register's tail into the low bits of rd. -/
  | gtail (g : BitVec 4) (rd rs : BitVec 5)
  /-- R121: Sets rd's tail from s[rs][1:0], keeping its data. -/
  | stail (g : BitVec 4) (rd rs : BitVec 5)
  /-- R122: Writes a matrix staging register from a scalar register. -/
  | stageMs (g : BitVec 4) (num : BitVec 3) (rs : BitVec 5)
  /-- R122: Writes a Wain staging register from a scalar register. -/
  | stageWs (g : BitVec 4) (num : BitVec 3) (rs : BitVec 5)
  /-- R122: Writes a fabric staging register from a scalar register. -/
  | stageFs (g : BitVec 4) (num : BitVec 3) (rs : BitVec 5)
  /-- R114: Adds a sign-extended 12-bit immediate. -/
  | addi (rd rs : BitVec 5) (imm : BitVec 12)
  /-- R114: ANDs a sign-extended immediate. -/
  | andi (rd rs : BitVec 5) (imm : BitVec 12)
  /-- R114: ORs a sign-extended immediate. -/
  | ori (rd rs : BitVec 5) (imm : BitVec 12)
  /-- R114: XORs a sign-extended immediate. -/
  | xori (rd rs : BitVec 5) (imm : BitVec 12)
  /-- R114: Shifts left by an immediate amount. -/
  | slli (rd rs : BitVec 5) (amt : BitVec 6)
  /-- R114: Shifts right logically by an immediate amount. -/
  | srli (rd rs : BitVec 5) (amt : BitVec 6)
  /-- R114: Shifts right arithmetically by an immediate amount. -/
  | srai (rd rs : BitVec 5) (amt : BitVec 6)
  /-- R114: Rotates right by an immediate amount. -/
  | rori (rd rs : BitVec 5) (amt : BitVec 6)
  /-- R114: Signed compare with an immediate. -/
  | slti (rd rs : BitVec 5) (imm : BitVec 12)
  /-- R114: Unsigned compare with a sign-extended immediate. -/
  | sltni (rd rs : BitVec 5) (imm : BitVec 12)
  /-- R116: Extracts an immediate bit field, zero-extended. -/
  | bfx (rd rs : BitVec 5) (wid off : BitVec 6)
  /-- R116: Inserts an immediate bit field into rd. -/
  | bfi (rd rs : BitVec 5) (wid off : BitVec 6)
  /-- R125: Loads a single value from the granary into a scalar register. -/
  | ld (rd rs : BitVec 5) (ty : BitVec 3) (off : BitVec 9)
  /-- R125: Stores the low bytes of a scalar register to the granary. -/
  | st (rd rs : BitVec 5) (ty : BitVec 3) (off : BitVec 9)
  /-- R125: Stores a carried float with final rounding under RMODE. -/
  | stf (rd rs : BitVec 5) (ty : BitVec 3) (off : BitVec 9)
  /-- R123: Reads a control register into rd. -/
  | crd (rd : BitVec 5) (cidx : BitVec 12)
  /-- R123: Writes a control register from rs, effective from the next bundle. -/
  | cwr (rs : BitVec 5) (cidx : BitVec 12)
  /-- R117: Writes sext(imm20) times 2^12. -/
  | lui (rd : BitVec 5) (imm : BitVec 20)
  /-- R117: Writes the bundle address plus sext(imm20) times 2^12. -/
  | aupc (rd : BitVec 5) (imm : BitVec 20)
  /-- R127: Relative branch with one delay bundle. -/
  | br (g : BitVec 4) (imm : BitVec 17)
  /-- R127: Relative call that writes the return address to s1. -/
  | call (g : BitVec 4) (imm : BitVec 17)
  /-- R127: Jumps to the address in a register. -/
  | jr (g : BitVec 4) (rs : BitVec 5)
  /-- R127: Calls the address in a register and writes s1. -/
  | callr (g : BitVec 4) (rs : BitVec 5)
  /-- R127: Branches if a register is zero. -/
  | bz (g : BitVec 4) (rs : BitVec 5) (imm : BitVec 12)
  /-- R127: Branches if a register is non-zero. -/
  | bnz (g : BitVec 4) (rs : BitVec 5) (imm : BitVec 12)
  /-- R127: Branches if a register bit is set. -/
  | bbs (g : BitVec 4) (rs : BitVec 5) (bitn imm : BitVec 6)
  /-- R127: Branches if a register bit is clear. -/
  | bbc (g : BitVec 4) (rs : BitVec 5) (bitn imm : BitVec 6)
  /-- R129: Decrements a counter, rotates VBASE and PBASE, and branches while the counter is non-zero. -/
  | loop (g : BitVec 4) (rs : BitVec 5) (imm : BitVec 12)
  /-- R208: Holds issue until a token's count reaches an immediate threshold. -/
  | wait (g : BitVec 4) (k : BitVec 5) (thr : BitVec 12)
  /-- R208: Holds issue until a token's count reaches a threshold held in a register. -/
  | waitr (g : BitVec 4) (k rs : BitVec 5)
  /-- R210: Sets a token's count and clears its error status. -/
  | tkset (g : BitVec 4) (k : BitVec 5) (imm : BitVec 12)
  /-- R101: Inserts n empty bundle cycles after its bundle. -/
  | dly (g : BitVec 4) (num : BitVec 8)
  /-- R307: Releases at cluster scope and arrives at the gang barrier. -/
  | bar (g : BitVec 4)
  /-- R333: Checks a device queue and holds for release before the LAUNCH packet is written. -/
  | sysLaunch (g : BitVec 4) (rs : BitVec 5)
  /-- R132: Holds for earlier engine work and a system release, then decrements a signal. -/
  | sigDec (g : BitVec 4) (rs rt : BitVec 5)
  /-- R133: Reads a signal, and continues with acquire semantics or suspends the task. -/
  | sigWait (g : BitVec 4) (rs rt : BitVec 5)
  /-- R241: Raises the software trap with a code. -/
  | trap (g : BitVec 4) (code : BitVec 12)
  /-- R242: Returns from a trap handler to TEPC and clears HACT. -/
  | tret (g : BitVec 4)
  /-- R231: Locks an instruction-store row and writes a status. -/
  | ilock (g : BitVec 4) (rd rs : BitVec 5)
  /-- R232: Releases this context's lock on an instruction-store row. -/
  | iunlk (g : BitVec 4) (rs : BitVec 5)
  /-- R357: Holds until earlier Wain and fabric commands complete, as a release and acquire at a scope. -/
  | fence (g : BitVec 4) (scope : BitVec 3)
  /-- R202: Changes a tile's owner field. -/
  | tgive (g : BitVec 4) (tile : BitVec 6) (owner : BitVec 3)
  /-- R130: Stops issue of the task and begins its retirement. -/
  | endTask (g : BitVec 4)
  /-- R141: Vector integer add. -/
  | vadd (g : BitVec 4) (ty : BitVec 3) (vd va vb : BitVec 5)
  /-- R141: Vector integer subtract. -/
  | vsub (g : BitVec 4) (ty : BitVec 3) (vd va vb : BitVec 5)
  /-- R141: Low half of the vector integer product. -/
  | vmul (g : BitVec 4) (ty : BitVec 3) (vd va vb : BitVec 5)
  /-- R141: High half of the vector integer product. -/
  | vmulh (g : BitVec 4) (ty : BitVec 3) (vd va vb : BitVec 5)
  /-- R141: Saturating vector add. -/
  | vsadd (g : BitVec 4) (ty : BitVec 3) (vd va vb : BitVec 5)
  /-- R141: Saturating vector subtract. -/
  | vssub (g : BitVec 4) (ty : BitVec 3) (vd va vb : BitVec 5)
  /-- R141: Vector integer absolute value. -/
  | vabs (g : BitVec 4) (ty : BitVec 3) (vd va : BitVec 5)
  /-- R141: Vector integer negate. -/
  | vneg (g : BitVec 4) (ty : BitVec 3) (vd va : BitVec 5)
  /-- R141: Vector bitwise AND. -/
  | vand (g : BitVec 4) (ty : BitVec 3) (vd va vb : BitVec 5)
  /-- R141: Vector bitwise OR. -/
  | vor (g : BitVec 4) (ty : BitVec 3) (vd va vb : BitVec 5)
  /-- R141: Vector bitwise XOR. -/
  | vxor (g : BitVec 4) (ty : BitVec 3) (vd va vb : BitVec 5)
  /-- R141: Vector a AND NOT b. -/
  | vandn (g : BitVec 4) (ty : BitVec 3) (vd va vb : BitVec 5)
  /-- R141: Vector shift left by per-element counts. -/
  | vshl (g : BitVec 4) (ty : BitVec 3) (vd va vb : BitVec 5)
  /-- R141: Vector shift right, arithmetic or logical by type. -/
  | vshr (g : BitVec 4) (ty : BitVec 3) (vd va vb : BitVec 5)
  /-- R141: Vector integer minimum. -/
  | vmin (g : BitVec 4) (ty : BitVec 3) (vd va vb : BitVec 5)
  /-- R141: Vector integer maximum. -/
  | vmax (g : BitVec 4) (ty : BitVec 3) (vd va vb : BitVec 5)
  /-- R142: Vector float add, rounded by carry. -/
  | vfadd (g : BitVec 4) (ty : BitVec 3) (vd va vb : BitVec 5)
  /-- R142: Vector float subtract. -/
  | vfsub (g : BitVec 4) (ty : BitVec 3) (vd va vb : BitVec 5)
  /-- R142: Vector float multiply. -/
  | vfmul (g : BitVec 4) (ty : BitVec 3) (vd va vb : BitVec 5)
  /-- R142: Vector fused multiply-add into vd. -/
  | vfma (g : BitVec 4) (ty : BitVec 3) (vd va vb : BitVec 5)
  /-- R142: Vector fused multiply-subtract from vd. -/
  | vfms (g : BitVec 4) (ty : BitVec 3) (vd va vb : BitVec 5)
  /-- R143: Vector float minimum, per element as fmin. -/
  | vfmin (g : BitVec 4) (ty : BitVec 3) (vd va vb : BitVec 5)
  /-- R143: Vector float maximum, per element as fmax. -/
  | vfmax (g : BitVec 4) (ty : BitVec 3) (vd va vb : BitVec 5)
  /-- R143: Complements the sign bit of each element. -/
  | vfneg (g : BitVec 4) (ty : BitVec 3) (vd va : BitVec 5)
  /-- R143: Clears the sign bit of each element. -/
  | vfabs (g : BitVec 4) (ty : BitVec 3) (vd va : BitVec 5)
  /-- R152: Exact float sum of enabled elements, rounded once. -/
  | vfredsum (g : BitVec 4) (ty : BitVec 3) (vd va : BitVec 5)
  /-- R152: Float maximum reduction. -/
  | vfredmax (g : BitVec 4) (ty : BitVec 3) (vd va : BitVec 5)
  /-- R152: Float minimum reduction. -/
  | vfredmin (g : BitVec 4) (ty : BitVec 3) (vd va : BitVec 5)
  /-- R152: Integer sum reduction modulo 2^32. -/
  | vredsum (g : BitVec 4) (ty : BitVec 3) (vd va : BitVec 5)
  /-- R152: Integer maximum reduction. -/
  | vredmax (g : BitVec 4) (ty : BitVec 3) (vd va : BitVec 5)
  /-- R152: Integer minimum reduction. -/
  | vredmin (g : BitVec 4) (ty : BitVec 3) (vd va : BitVec 5)
  /-- R146: Selects va or vb per element by the guard. -/
  | vsel (g : BitVec 4) (sz : BitVec 3) (vd va vb : BitVec 5)
  /-- R144: Integer equality compare into a predicate pair. -/
  | vceq (g : BitVec 4) (ty : BitVec 3) (vd va vb : BitVec 5)
  /-- R144: Integer inequality compare into a predicate pair. -/
  | vcne (g : BitVec 4) (ty : BitVec 3) (vd va vb : BitVec 5)
  /-- R144: Integer less-than compare into a predicate pair. -/
  | vclt (g : BitVec 4) (ty : BitVec 3) (vd va vb : BitVec 5)
  /-- R144: Integer less-or-equal compare into a predicate pair. -/
  | vcle (g : BitVec 4) (ty : BitVec 3) (vd va vb : BitVec 5)
  /-- R144: Float equality compare into a predicate pair. -/
  | vfceq (g : BitVec 4) (ty : BitVec 3) (vd va vb : BitVec 5)
  /-- R144: Float less-than compare into a predicate pair. -/
  | vfclt (g : BitVec 4) (ty : BitVec 3) (vd va vb : BitVec 5)
  /-- R144: Float less-or-equal compare into a predicate pair. -/
  | vfcle (g : BitVec 4) (ty : BitVec 3) (vd va vb : BitVec 5)
  /-- R144: Unordered compare, true when either operand is NaN. -/
  | vfcun (g : BitVec 4) (ty : BitVec 3) (vd va vb : BitVec 5)
  /-- R147: Permutes elements of va by indices in vb. -/
  | vperm (g : BitVec 4) (sz : BitVec 3) (vd va vb : BitVec 5)
  /-- R148: Interleaves the lower halves of two registers. -/
  | vzip (g : BitVec 4) (sz : BitVec 3) (vd va vb : BitVec 5)
  /-- R148: Gathers the even elements of two registers. -/
  | vunzip (g : BitVec 4) (sz : BitVec 3) (vd va vb : BitVec 5)
  /-- R149: Rotates elements by a scalar count. -/
  | vrot (g : BitVec 4) (sz : BitVec 3) (vd va rs : BitVec 5)
  /-- R149: Broadcasts a scalar, with its tail, into enabled elements. -/
  | vbcast (g : BitVec 4) (sz : BitVec 3) (vd rs : BitVec 5)
  /-- R149: Extracts one element into a scalar register. -/
  | vext (g : BitVec 4) (sz : BitVec 3) (vd va rs : BitVec 5)
  /-- R149: Inserts a scalar into one element. -/
  | vins (g : BitVec 4) (sz : BitVec 3) (vd va rs : BitVec 5)
  /-- R146: Copies enabled elements. -/
  | vmov (g : BitVec 4) (sz : BitVec 3) (vd va : BitVec 5)
  /-- R150: Widening integer add into a register pair. -/
  | vwadd (g : BitVec 4) (ty : BitVec 3) (vd va vb : BitVec 5)
  /-- R150: Widening integer multiply into a register pair. -/
  | vwmul (g : BitVec 4) (ty : BitVec 3) (vd va vb : BitVec 5)
  /-- R151: Widening f16 or bf16 multiply-add into an f32 pair. -/
  | vfwma (g : BitVec 4) (ty : BitVec 3) (vd va vb : BitVec 5)
  /-- R145: Predicate AND into a pair. -/
  | pand (g : BitVec 4) (vd va vb : BitVec 5)
  /-- R145: Predicate OR into a pair. -/
  | por (g : BitVec 4) (vd va vb : BitVec 5)
  /-- R145: Predicate XOR into a pair. -/
  | pxor (g : BitVec 4) (vd va vb : BitVec 5)
  /-- R145: Predicate AND NOT into a pair. -/
  | pandn (g : BitVec 4) (vd va vb : BitVec 5)
  /-- R154: Vector conversion to a floating destination. -/
  | vcvtFloat (g : BitVec 4) (fmt : BitVec 3) (vd va sty : BitVec 5)
  /-- R154: Vector conversion from a float to an integer destination, rounded with RMODE. -/
  | vcvtInt (g : BitVec 4) (fmt : BitVec 3) (vd va sty : BitVec 5)
  /-- R160: Measures four FP32 blocks and sets the quantise latches 3 bc later. -/
  | qmax (g : BitVec 4) (va : BitVec 5)
  /-- R161: Writes four E2M1 block images using the latched scales. -/
  | qcvt (g : BitVec 4) (vd va : BitVec 5)
  /-- R157: Vector reciprocal. -/
  | vrcp (g : BitVec 4) (fmt : BitVec 3) (vd va : BitVec 5)
  /-- R157: Vector reciprocal square root. -/
  | vrsqrt (g : BitVec 4) (fmt : BitVec 3) (vd va : BitVec 5)
  /-- R157: Vector square root. -/
  | vsqrt (g : BitVec 4) (fmt : BitVec 3) (vd va : BitVec 5)
  /-- R157: Vector divide. -/
  | vdiv (g : BitVec 4) (fmt : BitVec 3) (vd va vb : BitVec 5)
  /-- R157: Vector 2^x. -/
  | vexp2 (g : BitVec 4) (fmt : BitVec 3) (vd va : BitVec 5)
  /-- R157: Vector log base 2. -/
  | vlog2 (g : BitVec 4) (fmt : BitVec 3) (vd va : BitVec 5)
  /-- R157: Vector e^x. -/
  | vexp (g : BitVec 4) (fmt : BitVec 3) (vd va : BitVec 5)
  /-- R157: Vector natural logarithm. -/
  | vlog (g : BitVec 4) (fmt : BitVec 3) (vd va : BitVec 5)
  /-- R157: Vector sine. -/
  | vsin (g : BitVec 4) (fmt : BitVec 3) (vd va : BitVec 5)
  /-- R157: Vector cosine. -/
  | vcos (g : BitVec 4) (fmt : BitVec 3) (vd va : BitVec 5)
  /-- R157: Vector hyperbolic tangent. -/
  | vtanh (g : BitVec 4) (fmt : BitVec 3) (vd va : BitVec 5)
  /-- R157: Vector logistic sigmoid. -/
  | vsigm (g : BitVec 4) (fmt : BitVec 3) (vd va : BitVec 5)
  /-- R157: Vector error function. -/
  | verf (g : BitVec 4) (fmt : BitVec 3) (vd va : BitVec 5)
  /-- R155: Rounds each element to an integral value with RMODE. -/
  | vrint (g : BitVec 4) (fmt : BitVec 3) (vd va : BitVec 5)
  /-- R156: Scales each element by 2 to an integer power. -/
  | vscl (g : BitVec 4) (fmt : BitVec 3) (vd va vb : BitVec 5)
  /-- R193: Copies weight slots into the shadow plane. -/
  | mload (g : BitVec 4) (k : BitVec 5) (tile : BitVec 6)
  /-- R195: Exchanges the active and shadow weight planes. -/
  | mswap (g : BitVec 4) (k : BitVec 5)
  /-- R192: Streams activation rows and accumulates the products. -/
  | mstream (g : BitVec 4) (k : BitVec 5) (tile : BitVec 6)
  /-- R192: Streams activation rows with the sums starting from zero. -/
  | mstreamz (g : BitVec 4) (k : BitVec 5) (tile : BitVec 6)
  /-- R196: Writes accumulator rows to a tile in the output format. -/
  | mstore (g : BitVec 4) (k : BitVec 5) (tile : BitVec 6)
  /-- R197: Zeroes accumulator rows. -/
  | mzero (g : BitVec 4) (k : BitVec 5)
  /-- R193: Loads the shadow weight-scale plane. -/
  | mscaleW (g : BitVec 4) (k : BitVec 5) (tile : BitVec 6)
  /-- R194: Loads activation-scale buffer entries. -/
  | mscaleA (g : BitVec 4) (k : BitVec 5) (tile : BitVec 6)
  /-- R197: Copies two accumulator rows into a vector register. -/
  | mread (g : BitVec 4) (k vd : BitVec 5)
  /-- R197: Writes a vector register into two accumulator rows. -/
  | mwrite (g : BitVec 4) (k va : BitVec 5)
  /-- R197: Posts once every earlier matrix command has completed. -/
  | mdrain (g : BitVec 4) (k : BitVec 5)
  /-- R164: Loads 512 granary bytes into a vector register. -/
  | ldV (slot : Bool) (g : BitVec 4) (reg base : BitVec 5) (off : BitVec 8)
  /-- R164: Stores a vector register's 512 bytes raw. -/
  | stV (slot : Bool) (g : BitVec 4) (reg base : BitVec 5) (off : BitVec 8)
  /-- R165: Typed vector store as f32 with final rounding. -/
  | stVF32 (slot : Bool) (g : BitVec 4) (reg base : BitVec 5) (off : BitVec 8)
  /-- R165: Typed vector store as f16. -/
  | stVF16 (slot : Bool) (g : BitVec 4) (reg base : BitVec 5) (off : BitVec 8)
  /-- R165: Typed vector store as bf16. -/
  | stVBf16 (slot : Bool) (g : BitVec 4) (reg base : BitVec 5) (off : BitVec 8)
  /-- R165: Typed vector store as e4m3. -/
  | stVE4m3 (slot : Bool) (g : BitVec 4) (reg base : BitVec 5) (off : BitVec 8)
  /-- R165: Typed vector store as e5m2. -/
  | stVE5m2 (slot : Bool) (g : BitVec 4) (reg base : BitVec 5) (off : BitVec 8)
  /-- R164: Loads 64 bytes into a predicate pair. -/
  | ldP (slot : Bool) (g : BitVec 4) (reg base : BitVec 5) (off : BitVec 8)
  /-- R164: Stores a predicate as 64 bytes. -/
  | stP (slot : Bool) (g : BitVec 4) (reg base : BitVec 5) (off : BitVec 8)
  /-- R164: Stores a register's 768-byte image with tails. -/
  | vspill (slot : Bool) (g : BitVec 4) (reg base : BitVec 5) (off : BitVec 8)
  /-- R164: Loads a register's 768-byte image with tails. -/
  | vfill (slot : Bool) (g : BitVec 4) (reg base : BitVec 5) (off : BitVec 8)
  /-- R164: Loads 16 bytes repeated into every 16-byte lane group. -/
  | ldVb (slot : Bool) (g : BitVec 4) (reg base : BitVec 5) (off : BitVec 8)
  /-- R224: Queues a raw copy between granary and virtual memory; gq.push is another spelling. -/
  | wnCopy (g : BitVec 4) (k : BitVec 5)
  /-- R224: Queues a strided gather of memory rows into the granary. -/
  | wnGather (g : BitVec 4) (k : BitVec 5)
  /-- R224: Queues a strided scatter of granary rows to memory. -/
  | wnScatter (g : BitVec 4) (k : BitVec 5)
  /-- R225: Queues a format-converting read from memory into the granary. -/
  | wnDecode (g : BitVec 4) (k : BitVec 5)
  /-- R225: Queues a format-converting write from the granary to memory. -/
  | wnEncode (g : BitVec 4) (k : BitVec 5)
  /-- R226: Queues expansion of 2:4 sparse data into dense rows. -/
  | wnExpand (g : BitVec 4) (k : BitVec 5)
  /-- R227: Queues write-back and drop of Barn lines on host-side pages. -/
  | wnFlush (g : BitVec 4) (k : BitVec 5)
  /-- R228: Queues a load of 8 bytes from memory into a scalar register. -/
  | wnFar (g : BitVec 4) (k sd : BitVec 5)
  /-- R229: Queues a spill of a run of vector registers to virtual memory. -/
  | vspillM (g : BitVec 4) (k vfirst vlast : BitVec 5)
  /-- R229: Queues a fill of a run of vector registers from virtual memory. -/
  | vfillM (g : BitVec 4) (k vfirst vlast : BitVec 5)
  /-- R448: Queues a fabric load into the granary or a scalar register. -/
  | fxLd (g : BitVec 4) (k : BitVec 5)
  /-- R448: Queues a fabric store, or an expert-addressed send. -/
  | fxSt (g : BitVec 4) (k : BitVec 5)
  /-- R449: Queues a remote atomic add. -/
  | fxAdd (g : BitVec 4) (k ty : BitVec 5)
  /-- R449: Queues a remote atomic minimum. -/
  | fxMin (g : BitVec 4) (k ty : BitVec 5)
  /-- R449: Queues a remote atomic maximum. -/
  | fxMax (g : BitVec 4) (k ty : BitVec 5)
  /-- R449: Queues a remote atomic swap. -/
  | fxSwap (g : BitVec 4) (k ty : BitVec 5)
  /-- R449: Queues a remote atomic compare-and-swap. -/
  | fxCas (g : BitVec 4) (k ty : BitVec 5)
  /-- R449: Queues a remote atomic AND. -/
  | fxAnd (g : BitVec 4) (k ty : BitVec 5)
  /-- R449: Queues a remote atomic OR. -/
  | fxOr (g : BitVec 4) (k ty : BitVec 5)
  /-- R451: Queues a host-side write-back at the module that holds the pages. -/
  | fxFlush (g : BitVec 4) (k : BitVec 5)
  /-- R453: Queues a fence that posts the peer-failure set into a vector register. -/
  | fxFence (g : BitVec 4) (k vd : BitVec 5) (scope : BitVec 3)
  /-- R452: Queues a remote signal decrement with release at system scope. -/
  | fxSdec (g : BitVec 4) (k : BitVec 5)
  /-- R276: Does nothing. -/
  | actNop (l : Bool)
  /-- R276: Sets a header field from IMM or action data. -/
  | actSet (l : Bool) (doff : BitVec 7) (dw : BitVec 2) (d : Bool) (imm : BitVec 32)
  /-- R276: Copies one header field to another. -/
  | actCopy (l : Bool) (doff : BitVec 7) (dw : BitVec 2) (soff : BitVec 7) (sw : BitVec 2)
  /-- R276: Adds an operand to a header field. -/
  | actAdd (l : Bool) (doff : BitVec 7) (dw : BitVec 2) (d : Bool) (imm : BitVec 32)
  /-- R276: Writes a seeded CRC-32C over selected fields into a header field. -/
  | actHash (l : Bool) (doff : BitVec 7) (dw : BitVec 2) (fmask : BitVec 32)
  /-- R276: Adds to a register cell, optionally writing the result back. -/
  | actRegAdd (l : Bool) (doff : BitVec 7) (dw : BitVec 2) (soff : BitVec 7) (sw : BitVec 2) (d : Bool) (x : Bool) (wb : Bool) (base : BitVec 13)
  /-- R276: Takes the maximum into a register cell. -/
  | actRegMax (l : Bool) (doff : BitVec 7) (dw : BitVec 2) (soff : BitVec 7) (sw : BitVec 2) (d : Bool) (x : Bool) (wb : Bool) (base : BitVec 13)
  /-- R276: Counts a packet and its bytes in a counter pair. -/
  | actCount (l : Bool) (soff : BitVec 7) (sw : BitVec 2) (x : Bool) (base : BitVec 13)
  /-- R276: ORs bits into MARK. -/
  | actMark (l : Bool) (bits : BitVec 8)
  /-- R276: Sets FWD and the egress port, or routing by peer. -/
  | actFwd (l : Bool) (soff : BitVec 7) (x : Bool) (peer : Bool) (port : BitVec 6)
  /-- R276: Sets DROP with a drop code. -/
  | actDrop (l : Bool) (code : BitVec 8)
  /-- R394: Looks up a model-routing entry, rewrites the destination and forwards by peer. -/
  | actRoute (l : Bool) (doff : BitVec 7) (soff : BitVec 7) (sw : BitVec 2) (base : BitVec 16)
  /-- R278: Defers a write of the payload into a tile and sets ABS. -/
  | actAbsorb (l : Bool) (soff : BitVec 7) (sw : BitVec 2) (x : Bool) (core : BitVec 4) (tile : BitVec 6) (off : BitVec 15)
  /-- R278: Defers a payload write and also forwards the packet. -/
  | actMirror (l : Bool) (soff : BitVec 7) (sw : BitVec 2) (x : Bool) (core : BitVec 4) (tile : BitVec 6) (off : BitVec 15)
  /-- R300: Defers an element-wise addition of the payload into a crib. -/
  | actCribAdd (l : Bool) (soff : BitVec 7) (sw : BitVec 2) (x : Bool) (core : BitVec 4) (tile : BitVec 6) (off : BitVec 15)
  /-- R278: Defers an increase of a crib's fill count. -/
  | actCribBump (l : Bool) (core : BitVec 4) (tile : BitVec 6) (num : BitVec 16)
  /-- R286: Defers a decrement of a signal from the partition's signal table. -/
  | actSigdec (l : Bool) (idx : BitVec 8) (num : BitVec 24)
  /-- R278: Defers hand-off of the packet to the die's fabric target agent. -/
  | actMemop (l : Bool)
  /-- R237: After the drain hold, TEPC, TCAUSE and TVAL are written and the handler at TVEC begins, or the task fails or escalates. -/
  | trapEntry (core : Fin 256)
  /-- R307: The last arrival completes the barrier generation and the members issue their bar bundles. -/
  | barGenerationComplete (cluster : Fin 16) (ctx : Fin 4)
  /-- R130: After the end holds, the task's status is fixed, its tiles and locks are freed and its bank empties. -/
  | taskRetire (core : Fin 256)
  /-- R230: An instruction-store row fill completes and the freeze ends, or a page fault is raised. -/
  | istoreFill (core : Fin 256)
  /-- R204: A gated granary quarter becomes awake, zeroed with valid check bits. -/
  | quarterWake (core : Fin 256) (quarter : Fin 4)
  /-- R245: The core switches issue to its other context bank in two hold clocks. -/
  | bankSwitch (core : Fin 256)
  /-- R249: At a bundle boundary the task is drained into the snapshot latches and saved, and its bank empties. -/
  | preempt (core : Fin 256) (bank : Bool)
  /-- R186: A queued matrix command starts on its lane once the order rules allow. -/
  | matrixCommandStart (core : Fin 256) (n : Nat)
  /-- R183: A matrix command completes: returns tiles, sets flags and posts its token. -/
  | matrixCommandComplete (core : Fin 256) (n : Nat)
  /-- R212: A bank's next Wain command starts after the previous one has posted, and its items run. -/
  | wainCommandStart (core : Fin 256) (bank : Bool)
  /-- R222: A Wain command completes: hands its tiles, sets flags and posts its token. -/
  | wainCommandComplete (core : Fin 256) (bank : Bool)
  /-- R380: A push's entries enter the gate queue together once the last item is accepted and room exists. -/
  | gatePushEnter (core : Fin 256) (bank : Bool)
  /-- R447: A fabric item is translated and its packet sent, within the 512-item limit. -/
  | fabricItemSend (core : Fin 256) (bank : Bool) (n : Nat)
  /-- R447: A fabric command whose items have all finished lands its writes, returns tiles, sets flags and posts. -/
  | fabricCommandComplete (core : Fin 256) (bank : Bool) (n : Nat)
  /-- R95: A fixed-latency result, quantise-latch write or replayed latch entry lands at the end of its bc, and its flags are set. -/
  | resultLand (core : Fin 256)
  /-- R98: A bundle's granary reads and then writes take place two bc after issue. -/
  | granaryAccess (core : Fin 256)
  /-- R208: The held wait or waitr bundle issues in the first bc whose start finds the token condition true. -/
  | waitSatisfied (core : Fin 256)
  /-- R132: After the holds end, the signal is decremented atomically. -/
  | sigDecPerform (core : Fin 256)
  /-- R357: A holding fence bundle issues once earlier Wain and fabric commands have completed. -/
  | fenceRelease (core : Fin 256)
  /-- R333: After the release hold, the LAUNCH packet is written at QTAIL and QTAIL rises. -/
  | sysLaunchWrite (core : Fin 256)
  /-- R335: A quarter whose tiles stayed free for 100 µs is power-gated. -/
  | quarterGate (core : Fin 256) (quarter : Fin 4)
  /-- R350: A FANS write answering resolved replays every held access. -/
  | faultResolve (die : Fin 2) (answer : BitVec 64)
  /-- R350: A FANS write answering refused fails each held access. -/
  | faultRefuse (die : Fin 2) (answer : BitVec 64)
  /-- R255: A saved image is restored on a core and the task continues at its resume point. -/
  | resume (task : Nat) (core : Fin 256)
  /-- R454: A response to a fabric item arrives and completes or fails the item. -/
  | fabricResponse (peer : BitVec 12) (tag : BitVec 32) (status : BitVec 8) (flags : BitVec 5) (data : List Byte)
  /-- R454: A failure notice arrives and fails its item with ECODE 5. -/
  | failureNotice (peer : BitVec 12) (tag : BitVec 32)
  /-- R454: A hold notice arrives and restarts its item's timeout. -/
  | holdNotice (peer : BitVec 12) (tag : BitVec 32)
  /-- R454: 1 ms passes without a response or hold notice and the item fails with ECODE 6. -/
  | fabricTimeout (peer : BitVec 12) (tag : BitVec 32)
  /-- R269: A packet's header arrives and the parser walks its states, filling the header vector. -/
  | packetParse (cluster : Fin 16) (port : Fin 4) (packet : List Byte)
  /-- R273: A header passes one match-action stage: four lookups and their action programs. -/
  | stagePass (cluster : Fin 16) (n : Nat)
  /-- R283: The tail's tag or frame check is known; a failure discards deferred effects and may stomp the packet. -/
  | tailCheck (cluster : Fin 16) (n : Nat) (stomped : Bool)
  /-- R284: A packet's deferred effects are checked and applied whole, in list order. -/
  | commit (cluster : Fin 16) (sys : Bool)
  /-- R442: The target agent checks the window, translates and performs a fabric request, then responds. -/
  | targetRequest (die : Fin 2) (n : Nat)
  /-- R442: Every 100 µs while a target fault is held, a hold notice is sent to the source. -/
  | holdNoticeSend (die : Fin 2)
  /-- R293: Writing CNTCLR clears the selected Sieve counters. -/
  | cntclrWrite (cluster : Fin 16) (value : BitVec 64)
  /-- R313: A host write to QTAIL advances the ring and starts fetch. -/
  | qtailDoorbell (die : Fin 2) (queue : Fin 64) (value : BitVec 64)
  /-- R314: Writing EN 1 to a stopped, idle queue resets QHEAD and QTAIL and starts fetch. -/
  | queueEnable (die : Fin 2) (queue : Fin 64) (value : BitVec 64)
  /-- R314: Writing EN 0 stops a queue's fetch at once. -/
  | queueDisable (die : Fin 2) (queue : Fin 64) (value : BitVec 64)
  /-- R316: A LAUNCH command at the queue's front asks for acceptance of a launch record. -/
  | launch (die : Fin 2) (queue : Fin 64)
  /-- R324: A launch is accepted, raising its counters, or refused with a status. -/
  | launchAccept (die : Fin 2) (ask : Nat)
  /-- R316: A WAIT command holds the front until its signal satisfies its threshold. -/
  | queueWait (die : Fin 2) (queue : Fin 64)
  /-- R316: A SIGDEC command waits for earlier commands, then decrements a signal with release. -/
  | sigdec (die : Fin 2) (queue : Fin 64)
  /-- R327: Cancels every unretired task under a task, launch, graph, phase or job. -/
  | cancel (die : Fin 2) (queue : Fin 64)
  /-- R322: Opens a graph or phase counter. -/
  | counterOpen (die : Fin 2) (queue : Fin 64)
  /-- R322: Closes a graph or phase counter and records its signal. -/
  | counterClose (die : Fin 2) (queue : Fin 64)
  /-- R297: Arms a crib: the tile goes to the Sieve and its zero fill begins. -/
  | cribarm (die : Fin 2) (queue : Fin 64)
  /-- R297: The arming zero fill completes and the crib becomes OPEN. -/
  | cribFillDone (cluster : Fin 16) (place : Fin 1024)
  /-- R298: Disarms an OPEN or ARMING crib and frees its tile. -/
  | cribdisarm (die : Fin 2) (queue : Fin 64)
  /-- R377: Submits a Sieve update batch for the queue's partition. -/
  | tableupd (die : Fin 2) (queue : Fin 64)
  /-- R289: A batch takes effect between two headers at parser entry. -/
  | batchApply (cluster : Fin 16)
  /-- R316: Copies a launch record into the partition's template table. -/
  | template (die : Fin 2) (queue : Fin 64)
  /-- R133: The Granger re-reads a waited signal on a decrement, host Loft write or 10 µs timer. -/
  | signalReread (die : Fin 2)
  /-- R328: A task READY for 2 ms at one priority rises by 1. -/
  | priorityAging (die : Fin 2)
  /-- R329: For a core with an empty bank, the Granger chooses a fitting READY task or gang, reserves and places it. -/
  | taskPlace (core : Fin 256)
  /-- R322: A launch counter reaches OUT 0: the failure record, journal and signal decrement follow and the counter is freed. -/
  | launchComplete (die : Fin 2)
  /-- R353: Writing GO in INVCTL starts an invalidation of cached translations. -/
  | invalidate (die : Fin 2) (value : BitVec 64)
  /-- R353: An invalidation finishes and BUSY falls to 0. -/
  | invalidateDone (die : Fin 2)
  /-- R384: The Thresher pops one gate entry and routes it, ages its epoch, or marks it late or stale. -/
  | gateEntryPop (die : Fin 2)
  /-- R391: A Thresher receives an arm request and places a CRIBARM on the entry's queue. -/
  | armRequest (die : Fin 2)
  /-- R391: The arm's journal entry is terminal; INUSE is adjusted and the done signal decremented. -/
  | armRequestDone (die : Fin 2)
  /-- R398: A write to TCTAIL submits Thresher commands. -/
  | tctailDoorbell (die : Fin 2) (value : BitVec 64)
  /-- R383: Installs a layer descriptor and resets its state. -/
  | layer (die : Fin 2)
  /-- R396: Writes a model-routing entry whole. -/
  | route (die : Fin 2)
  /-- R397: Moves an expert to a new home with a new generation and disarms its old crib. -/
  | evict (die : Fin 2)
  /-- R397: The INUSE word reads 0 and the EVICT completes. -/
  | evictComplete (die : Fin 2)
  /-- R399: Sets a hash-routing override key. -/
  | overrideSet (die : Fin 2)
  /-- R399: Deletes a hash-routing override key. -/
  | overrideDelete (die : Fin 2)
  /-- R407: A host CXL.mem access to HBM or the Loft, with back-invalidate where needed. -/
  | hostMemoryAccess (addr : Nat) (op : HostOp) (data : List Byte)
  /-- R404: A host link goes down or up; traffic moves to the other link and HIRQ.LINK is set. -/
  | cxlLinkChange (link : Fin 2) (up : Bool)
  /-- R411: Assigns a core to a partition once both its banks are empty. -/
  | partmapWrite (core : Fin 256) (value : BitVec 64)
  /-- R412: Writing GO in RSTPART starts the reset of a partition. -/
  | partitionReset (value : BitVec 64)
  /-- R412: After the partition's tasks retire, its state is cleared and BUSY falls to 0. -/
  | partitionResetDone
  /-- R415: The Reeve verifies and loads its images in order, extending the measurements. -/
  | boot (images config : List BootImage)
  /-- R416: SPDM GET_VERSION request. -/
  | getVersion
  /-- R416: SPDM GET_CAPABILITIES request. -/
  | getCapabilities
  /-- R416: SPDM NEGOTIATE_ALGORITHMS request. -/
  | negotiateAlgorithms
  /-- R416: SPDM GET_DIGESTS request. -/
  | getDigests
  /-- R416: SPDM GET_CERTIFICATE request. -/
  | getCertificate
  /-- R416: SPDM CHALLENGE request. -/
  | challenge
  /-- R416: Returns the measurement log and registers signed with the identity key. -/
  | getMeasurements
  /-- R417: At least every 10 minutes the Reeve re-plans a cluster's voltage and clock, or disables it. -/
  | ageingReplan (cluster : Fin 16) (volts : Bool)
  /-- R419: Measured power above CAP throttles matrix then vector issue. -/
  | powerThrottle (watts : Nat) (core : Fin 256) (clocks : Nat)
  /-- R420: The FREEZE pin or FRZCTL.REQ stops every clock of both dies. -/
  | freeze
  /-- R420: Starts a non-destructive readout of a frozen module. -/
  | scan
  /-- R420: Starts a destructive readout. -/
  | dscan
  /-- R420: Restarts every clock after a non-destructive readout. -/
  | thaw
  /-- R420: A readout finishes and STATE becomes 3 or 4. -/
  | readoutDone
  /-- R425: A link flit is checked, acknowledged or replay is requested; port 48 is the die-to-die link (R402). -/
  | flitReceive (port : Fin 49) (seq : Nat) (good : Bool)
  /-- R426: A lane fails and the link retrains at a lower width or goes down. -/
  | laneFailure (port : Fin 48)
  /-- R436: A received time code aligns the router's slot counter. -/
  | timeCode (die : Fin 2) (slot : BitVec 8)
  /-- R4: A write to a management or configuration register with no behaviour of its own. -/
  | registerWrite (reg : MgmtReg) (aligned : Bool) (value : BitVec 64)
  /-- R426: A torus link finishes training, or a lane returns so that the link widens back, and the port's width, UP bit and slot cells are restored. -/
  | linkTrained (port : Fin 48) (lanes : BitVec 2)
  /-- R331: A running task reaches 100 µs since its placement and becomes a candidate for pre-emption by a waiting higher-priority task. -/
  | preemptRunElapsed (core : Fin 256) (bank : Bool)
  /-- R355: The Reeve power-gates a Barn way after writing back its newer lines, or wakes it empty. -/
  | barnWayGate (die : Fin 2) (way : Fin 16) (gate : Bool)
  /-- R424: An IEEE 802.1Qbb priority flow control frame arrives on an edge port and pauses or resumes egress of its traffic classes. -/
  | priorityFlowControl (port : Fin 16) (classes : BitVec 8) (pause : BitVec 8)
  deriving DecidableEq, Repr

end Sys2Proof
end

