-- ==== Sys2Proof/WellFormed.lean ====
section
/-! DEFINITION. Which operand values an instruction may hold: the type, format, size and selector codes each op accepts
(R78-R92), the predicate and register pairs (R87, R140), the control register indices (R26). A word that breaks one of
these is undefined (R93). -/
namespace Sys2Proof

/-- The scalar float codes f32, f16 and bf16 of `sub` (R78, R81). -/
def scalarFmtOk (fmt : BitVec 2) : Bool := fmt != 3

/-- The conversion selectors 0 to 15 (R82). -/
def fcvtSelOk (sel : BitVec 5) : Bool := sel.toNat < 16

/-- The type codes of `ld` (R83). -/
def ldTypeOk (ty : BitVec 3) : Bool := ty != 7

/-- The type codes of `st` (R83): 8, 16, 32 and 64 bits. -/
def stTypeOk (ty : BitVec 3) : Bool := ty == 1 || ty == 3 || ty == 5 || ty == 6

/-- The float codes of `stf`, f32 to e5m2 (R83). -/
def floatCodeOk (ty : BitVec 3) : Bool := ty.toNat < 5

/-- The control register indices R26 lists. -/
def controlIndices : List (BitVec 12) :=
  [0x000, 0x001, 0x002, 0x003, 0x004, 0x005, 0x010, 0x011, 0x012, 0x013, 0x014, 0x020, 0x021, 0x022, 0x023]

/-- A control register index that R26 lists (R93). -/
def controlIndexOk (cidx : BitVec 12) : Bool := controlIndices.contains cidx

/-- The scope codes 000 to 101 (R80). -/
def scopeOk (scope : BitVec 3) : Bool := scope.toNat < 6

/-- The integer codes i4 to n32 (R78, R86). -/
def intCodeOk (ty : BitVec 3) : Bool := ty != 7

/-- The integer codes but i4: the ops that R86 marks with a dagger. -/
def intCodeOk8 (ty : BitVec 3) : Bool := ty != 7 && ty != 0

/-- The float codes f32, f16 and bf16 (R86). -/
def vecFloatOk (ty : BitVec 3) : Bool := ty.toNat < 3

/-- The size codes 4, 8, 16 and 32 bits (R78). -/
def sizeOk (sz : BitVec 3) : Bool := sz.toNat < 4

/-- The source formats of `vfwma`: f16 and bf16 (R86). -/
def wideFmaOk (ty : BitVec 3) : Bool := ty == 1 || ty == 2

/-- A predicate pair is an even number from 0 to 14 (R87). -/
def predPairOk (vd : BitVec 5) : Bool := vd.toNat < 16 && vd.toNat % 2 == 0

/-- A single predicate is 0 to 15 (R87). -/
def predOk (va : BitVec 5) : Bool := va.toNat < 16

/-- A register pair is even (R87). -/
def regPairOk (vd : BitVec 5) : Bool := vd.toNat % 2 == 0

/-- The width in bits of a unified type code (R79); 0 for a reserved code. -/
def unifiedWidth (c : BitVec 5) : Nat :=
  match c.toNat with
  | 0 => 32 | 1 => 16 | 2 => 16 | 3 => 8 | 4 => 8 | 5 => 4
  | 8 => 4 | 9 => 8 | 10 => 16 | 11 => 32 | 12 => 64 | 13 => 8 | 14 => 16 | 15 => 32 | 16 => 64
  | _ => 0

/-- The unified code of a 3-bit integer code (R78, R79): i4 to i32, then n8, n16, n32. -/
def unifiedOfInt (ty : BitVec 3) : BitVec 5 :=
  if ty.toNat < 4 then BitVec.ofNat 5 (8 + ty.toNat) else BitVec.ofNat 5 (9 + ty.toNat)

/-- R153 and R140: the widths' ratio is 1, 2 or 4, and the first name of a group of m registers is a multiple
of m. -/
def groupOk (wd ws : Nat) (vd va : BitVec 5) : Bool :=
  wd ≤ 4 * ws && ws ≤ 4 * wd && (wd ≤ ws || vd.toNat % (wd / ws) == 0) && (ws ≤ wd || va.toNat % (ws / wd) == 0)

/-- `vcvt` with a floating destination (R88, R153): D is not e2m1 and is not S, S is neither i64, n64 nor reserved. -/
def vcvtFloatOk (fmt : BitVec 3) (sty : BitVec 5) (vd va : BitVec 5) : Bool :=
  fmt.toNat < 5 && sty.toNat != fmt.toNat && unifiedWidth sty != 0 && unifiedWidth sty != 64 &&
    groupOk (unifiedWidth (BitVec.ofNat 5 fmt.toNat)) (unifiedWidth sty) vd va

/-- `vcvt` with an integer destination (R88, R153): S is a float. -/
def vcvtIntOk (fmt : BitVec 3) (sty : BitVec 5) (vd va : BitVec 5) : Bool :=
  intCodeOk fmt && sty.toNat < 6 && groupOk (unifiedWidth (unifiedOfInt fmt)) (unifiedWidth sty) vd va

/-- The types of `fx.add`: f32, i32 and i64 (R92). -/
def atomicAddOk (ty : BitVec 5) : Bool := ty == 0 || ty == 11 || ty == 12

/-- The types of `fx.min` and `fx.max`: i32, i64, n32 and n64 (R92). -/
def atomicMinOk (ty : BitVec 5) : Bool := ty == 11 || ty == 12 || ty == 15 || ty == 16

/-- The types of `fx.swap`, `fx.cas`, `fx.and` and `fx.or`: n32 and n64 (R92). -/
def atomicWordOk (ty : BitVec 5) : Bool := ty == 15 || ty == 16

/-- A field of a primitive lies within the 128 bytes of the header vector (R275). -/
def fits (off : BitVec 7) (w : BitVec 2) : Bool := off.toNat + 2 ^ w.toNat ≤ 128

/-- The source field of a primitive whose X selects it: within the header vector, and 0 while X is 0 (R274, R275). -/
def srcOk (x : Bool) (soff : BitVec 7) (sw : BitVec 2) : Bool := if x then fits soff sw else soff == 0 && sw == 0

/-- The instruction's operands are ones its op accepts (R78-R93, R275). -/
def Instr.wf : Instr → Bool
  | .add _ _ _ _ => true
  | .sub _ _ _ _ => true
  | .and _ _ _ _ => true
  | .or _ _ _ _ => true
  | .xor _ _ _ _ => true
  | .andn _ _ _ _ => true
  | .sll _ _ _ _ => true
  | .srl _ _ _ _ => true
  | .sra _ _ _ _ => true
  | .ror _ _ _ _ => true
  | .slt _ _ _ _ => true
  | .sltn _ _ _ _ => true
  | .seq _ _ _ _ => true
  | .sne _ _ _ _ => true
  | .min _ _ _ _ => true
  | .max _ _ _ _ => true
  | .minn _ _ _ _ => true
  | .maxn _ _ _ _ => true
  | .mul _ _ _ _ => true
  | .mulh _ _ _ _ => true
  | .mulhn _ _ _ _ => true
  | .div _ _ _ _ => true
  | .divn _ _ _ _ => true
  | .rem _ _ _ _ => true
  | .remn _ _ _ _ => true
  | .bfxr _ _ _ _ => true
  | .bfir _ _ _ _ => true
  | .popc _ _ _ => true
  | .clz _ _ _ => true
  | .fadd _ _ _ _ fmt => scalarFmtOk fmt
  | .fsub _ _ _ _ fmt => scalarFmtOk fmt
  | .fmul _ _ _ _ fmt => scalarFmtOk fmt
  | .ffma _ _ _ _ fmt => scalarFmtOk fmt
  | .fmin _ _ _ _ fmt => scalarFmtOk fmt
  | .fmax _ _ _ _ fmt => scalarFmtOk fmt
  | .fdiv _ _ _ _ fmt => scalarFmtOk fmt
  | .fsqrt _ _ _ fmt => scalarFmtOk fmt
  | .fceq _ _ _ _ fmt => scalarFmtOk fmt
  | .fclt _ _ _ _ fmt => scalarFmtOk fmt
  | .fcle _ _ _ _ fmt => scalarFmtOk fmt
  | .fcvt _ _ _ sel => fcvtSelOk sel
  | .fmov _ _ _ => true
  | .gtail _ _ _ => true
  | .stail _ _ _ => true
  | .stageMs _ _ _ => true
  | .stageWs _ _ _ => true
  | .stageFs _ _ _ => true
  | .addi _ _ _ => true
  | .andi _ _ _ => true
  | .ori _ _ _ => true
  | .xori _ _ _ => true
  | .slli _ _ _ => true
  | .srli _ _ _ => true
  | .srai _ _ _ => true
  | .rori _ _ _ => true
  | .slti _ _ _ => true
  | .sltni _ _ _ => true
  | .bfx _ _ _ _ => true
  | .bfi _ _ _ _ => true
  | .ld _ _ ty _ => ldTypeOk ty
  | .st _ _ ty _ => stTypeOk ty
  | .stf _ _ ty _ => floatCodeOk ty
  | .crd _ cidx => controlIndexOk cidx
  | .cwr _ cidx => controlIndexOk cidx
  | .lui _ _ => true
  | .aupc _ _ => true
  | .br _ _ => true
  | .call _ _ => true
  | .jr _ _ => true
  | .callr _ _ => true
  | .bz _ _ _ => true
  | .bnz _ _ _ => true
  | .bbs _ _ _ _ => true
  | .bbc _ _ _ _ => true
  | .loop _ _ _ => true
  | .wait _ _ _ => true
  | .waitr _ _ _ => true
  | .tkset _ _ _ => true
  | .dly _ _ => true
  | .bar _ => true
  | .sysLaunch _ _ => true
  | .sigDec _ _ _ => true
  | .sigWait _ _ _ => true
  | .trap _ _ => true
  | .tret _ => true
  | .ilock _ _ _ => true
  | .iunlk _ _ => true
  | .fence _ scope => scopeOk scope
  | .tgive _ _ _ => true
  | .endTask _ => true
  | .vadd _ ty _ _ _ => intCodeOk ty
  | .vsub _ ty _ _ _ => intCodeOk ty
  | .vmul _ ty _ _ _ => intCodeOk8 ty
  | .vmulh _ ty _ _ _ => intCodeOk8 ty
  | .vsadd _ ty _ _ _ => intCodeOk8 ty
  | .vssub _ ty _ _ _ => intCodeOk8 ty
  | .vabs _ ty _ _ => intCodeOk8 ty
  | .vneg _ ty _ _ => intCodeOk8 ty
  | .vand _ ty _ _ _ => intCodeOk ty
  | .vor _ ty _ _ _ => intCodeOk ty
  | .vxor _ ty _ _ _ => intCodeOk ty
  | .vandn _ ty _ _ _ => intCodeOk ty
  | .vshl _ ty _ _ _ => intCodeOk8 ty
  | .vshr _ ty _ _ _ => intCodeOk8 ty
  | .vmin _ ty _ _ _ => intCodeOk ty
  | .vmax _ ty _ _ _ => intCodeOk ty
  | .vfadd _ ty _ _ _ => vecFloatOk ty
  | .vfsub _ ty _ _ _ => vecFloatOk ty
  | .vfmul _ ty _ _ _ => vecFloatOk ty
  | .vfma _ ty _ _ _ => vecFloatOk ty
  | .vfms _ ty _ _ _ => vecFloatOk ty
  | .vfmin _ ty _ _ _ => vecFloatOk ty
  | .vfmax _ ty _ _ _ => vecFloatOk ty
  | .vfneg _ ty _ _ => vecFloatOk ty
  | .vfabs _ ty _ _ => vecFloatOk ty
  | .vfredsum _ ty _ _ => vecFloatOk ty
  | .vfredmax _ ty _ _ => vecFloatOk ty
  | .vfredmin _ ty _ _ => vecFloatOk ty
  | .vredsum _ ty _ _ => intCodeOk8 ty
  | .vredmax _ ty _ _ => intCodeOk8 ty
  | .vredmin _ ty _ _ => intCodeOk8 ty
  | .vsel _ sz _ _ _ => sizeOk sz
  | .vceq _ ty vd _ _ => intCodeOk ty && predPairOk vd
  | .vcne _ ty vd _ _ => intCodeOk ty && predPairOk vd
  | .vclt _ ty vd _ _ => intCodeOk ty && predPairOk vd
  | .vcle _ ty vd _ _ => intCodeOk ty && predPairOk vd
  | .vfceq _ ty vd _ _ => vecFloatOk ty && predPairOk vd
  | .vfclt _ ty vd _ _ => vecFloatOk ty && predPairOk vd
  | .vfcle _ ty vd _ _ => vecFloatOk ty && predPairOk vd
  | .vfcun _ ty vd _ _ => vecFloatOk ty && predPairOk vd
  | .vperm _ sz _ _ _ => sizeOk sz
  | .vzip _ sz _ _ _ => sizeOk sz
  | .vunzip _ sz _ _ _ => sizeOk sz
  | .vrot _ sz _ _ _ => sizeOk sz
  | .vbcast _ sz _ _ => sizeOk sz
  | .vext _ sz _ _ _ => sizeOk sz
  | .vins _ sz _ _ _ => sizeOk sz
  | .vmov _ sz _ _ => sizeOk sz
  | .vwadd _ ty vd _ _ => intCodeOk8 ty && regPairOk vd
  | .vwmul _ ty vd _ _ => intCodeOk8 ty && regPairOk vd
  | .vfwma _ ty vd _ _ => wideFmaOk ty && regPairOk vd
  | .pand _ vd va vb => predPairOk vd && predOk va && predOk vb
  | .por _ vd va vb => predPairOk vd && predOk va && predOk vb
  | .pxor _ vd va vb => predPairOk vd && predOk va && predOk vb
  | .pandn _ vd va vb => predPairOk vd && predOk va && predOk vb
  | .vcvtFloat _ fmt vd va sty => vcvtFloatOk fmt sty vd va
  | .vcvtInt _ fmt vd va sty => vcvtIntOk fmt sty vd va
  | .qmax _ _ => true
  | .qcvt _ _ _ => true
  | .vrcp _ fmt _ _ => vecFloatOk fmt
  | .vrsqrt _ fmt _ _ => vecFloatOk fmt
  | .vsqrt _ fmt _ _ => vecFloatOk fmt
  | .vdiv _ fmt _ _ _ => vecFloatOk fmt
  | .vexp2 _ fmt _ _ => vecFloatOk fmt
  | .vlog2 _ fmt _ _ => vecFloatOk fmt
  | .vexp _ fmt _ _ => vecFloatOk fmt
  | .vlog _ fmt _ _ => vecFloatOk fmt
  | .vsin _ fmt _ _ => vecFloatOk fmt
  | .vcos _ fmt _ _ => vecFloatOk fmt
  | .vtanh _ fmt _ _ => vecFloatOk fmt
  | .vsigm _ fmt _ _ => vecFloatOk fmt
  | .verf _ fmt _ _ => vecFloatOk fmt
  | .vrint _ fmt _ _ => vecFloatOk fmt
  | .vscl _ fmt _ _ _ => vecFloatOk fmt
  | .mload _ _ _ => true
  | .mswap _ _ => true
  | .mstream _ _ _ => true
  | .mstreamz _ _ _ => true
  | .mstore _ _ _ => true
  | .mzero _ _ => true
  | .mscaleW _ _ _ => true
  | .mscaleA _ _ _ => true
  | .mread _ _ _ => true
  | .mwrite _ _ _ => true
  | .mdrain _ _ => true
  | .ldV _ _ _ _ _ => true
  | .stV _ _ _ _ _ => true
  | .stVF32 _ _ _ _ _ => true
  | .stVF16 _ _ _ _ _ => true
  | .stVBf16 _ _ _ _ _ => true
  | .stVE4m3 _ _ _ _ _ => true
  | .stVE5m2 _ _ _ _ _ => true
  | .ldP _ _ reg _ _ => predPairOk reg
  | .stP _ _ reg _ _ => predOk reg
  | .vspill _ _ _ _ _ => true
  | .vfill _ _ _ _ _ => true
  | .ldVb _ _ _ _ _ => true
  | .wnCopy _ _ => true
  | .wnGather _ _ => true
  | .wnScatter _ _ => true
  | .wnDecode _ _ => true
  | .wnEncode _ _ => true
  | .wnExpand _ _ => true
  | .wnFlush _ _ => true
  | .wnFar _ _ _ => true
  | .vspillM _ _ vfirst vlast => decide (vfirst.toNat ≤ vlast.toNat)
  | .vfillM _ _ vfirst vlast => decide (vfirst.toNat ≤ vlast.toNat)
  | .fxLd _ _ => true
  | .fxSt _ _ => true
  | .fxAdd _ _ ty => atomicAddOk ty
  | .fxMin _ _ ty => atomicMinOk ty
  | .fxMax _ _ ty => atomicMinOk ty
  | .fxSwap _ _ ty => atomicWordOk ty
  | .fxCas _ _ ty => atomicWordOk ty
  | .fxAnd _ _ ty => atomicWordOk ty
  | .fxOr _ _ ty => atomicWordOk ty
  | .fxFlush _ _ => true
  | .fxFence _ _ _ scope => scopeOk scope
  | .fxSdec _ _ => true
  | .actNop _ => true
  | .actSet _ doff dw d imm => fits doff dw && (!d || imm == 0)
  | .actCopy _ doff dw soff sw => fits doff dw && fits soff sw
  | .actAdd _ doff dw d imm => fits doff dw && (!d || imm == 0)
  | .actHash _ doff dw _ => fits doff dw
  | .actRegAdd _ doff dw soff sw d x wb _ => fits doff dw && srcOk x soff sw && (!d || wb || (doff == 0 && dw == 0))
  | .actRegMax _ doff dw soff sw d x wb _ => fits doff dw && srcOk x soff sw && (!d || wb || (doff == 0 && dw == 0))
  | .actCount _ soff sw x _ => srcOk x soff sw
  | .actMark _ _ => true
  | .actFwd _ soff x peer port => srcOk x soff 0 && (!x || !peer) && ((!x && !peer) || port == 0)
  | .actDrop _ _ => true
  | .actRoute _ doff soff sw _ => fits doff 3 && fits soff sw
  | .actAbsorb _ soff sw x _ _ off => srcOk x soff sw && off % 16 == 0
  | .actMirror _ soff sw x _ _ off => srcOk x soff sw && off % 16 == 0
  | .actCribAdd _ soff sw x _ _ off => srcOk x soff sw && off % 4 == 0
  -- R278: n is 1 to 65,535; that the word with 0 is undefined is log entry 86
  | .actCribBump _ _ _ num => num != 0
  | .actSigdec _ _ _ => true
  | .actMemop _ => true
  | .trapEntry _ => true
  | .barGenerationComplete _ _ => true
  | .taskRetire _ => true
  | .istoreFill _ => true
  | .quarterWake _ _ => true
  | .bankSwitch _ => true
  | .preempt _ _ => true
  | .matrixCommandStart _ _ => true
  | .matrixCommandComplete _ _ => true
  | .wainCommandStart _ _ => true
  | .wainCommandComplete _ _ => true
  | .gatePushEnter _ _ => true
  | .fabricItemSend _ _ _ => true
  | .fabricCommandComplete _ _ _ => true
  | .resultLand _ => true
  | .granaryAccess _ => true
  | .waitSatisfied _ => true
  | .sigDecPerform _ => true
  | .fenceRelease _ => true
  | .sysLaunchWrite _ => true
  | .quarterGate _ _ => true
  | .faultResolve _ _ => true
  | .faultRefuse _ _ => true
  | .resume _ _ => true
  | .fabricResponse _ _ _ _ _ => true
  | .failureNotice _ _ => true
  | .holdNotice _ _ => true
  | .fabricTimeout _ _ => true
  | .packetParse _ _ _ => true
  | .stagePass _ _ => true
  | .tailCheck _ _ _ => true
  | .commit _ _ => true
  | .targetRequest _ _ => true
  | .holdNoticeSend _ => true
  | .cntclrWrite _ _ => true
  | .qtailDoorbell _ _ _ => true
  | .queueEnable _ _ _ => true
  | .queueDisable _ _ _ => true
  | .launch _ _ => true
  | .launchAccept _ _ => true
  | .queueWait _ _ => true
  | .sigdec _ _ => true
  | .cancel _ _ => true
  | .counterOpen _ _ => true
  | .counterClose _ _ => true
  | .cribarm _ _ => true
  | .cribFillDone _ _ => true
  | .cribdisarm _ _ => true
  | .tableupd _ _ => true
  | .batchApply _ => true
  | .template _ _ => true
  | .signalReread _ => true
  | .priorityAging _ => true
  | .taskPlace _ => true
  | .launchComplete _ => true
  | .invalidate _ _ => true
  | .invalidateDone _ => true
  | .gateEntryPop _ => true
  | .armRequest _ => true
  | .armRequestDone _ => true
  | .tctailDoorbell _ _ => true
  | .layer _ => true
  | .route _ => true
  | .evict _ => true
  | .evictComplete _ => true
  | .overrideSet _ => true
  | .overrideDelete _ => true
  | .hostMemoryAccess _ _ _ => true
  | .cxlLinkChange _ _ => true
  | .partmapWrite _ _ => true
  | .partitionReset _ => true
  | .partitionResetDone => true
  | .boot _ _ => true
  | .getVersion => true
  | .getCapabilities => true
  | .negotiateAlgorithms => true
  | .getDigests => true
  | .getCertificate => true
  | .challenge => true
  | .getMeasurements => true
  | .ageingReplan _ _ => true
  | .powerThrottle _ _ _ => true
  | .freeze => true
  | .scan => true
  | .dscan => true
  | .thaw => true
  | .readoutDone => true
  | .flitReceive _ _ _ => true
  | .laneFailure _ => true
  | .timeCode _ _ => true
  | .registerWrite _ _ _ => true
  | .linkTrained _ _ => true
  | .preemptRunElapsed _ _ => true
  | .barnWayGate _ _ _ => true
  | .priorityFlowControl _ _ _ => true

end Sys2Proof
end

