-- ==== Sys2Proof/Decode.lean ====
section
/-! DEFINITION. The decoder of bundle words, total on any 32 bits, and the encoder of well-formed instructions, both
from the encoding tables R66-R93. A word is decoded in three steps: its class, form, op and sub choose the constructor
and its fields fill it (`wordCandidate`); the fields the op leaves must be zero, so encoding the instruction again must
give the word (R93); its operands must be ones the op accepts (`Instr.wf`). A word refused is refused by name. The
Sieve's action primitives have encodings of their own (R274, R94) and are decoded by `decodePrim`. -/
namespace Sys2Proof

/-- Why a word is no instruction. -/
inductive DecodeError where
  /-- Its class is 110 or 111 (R67). -/
  | reservedClass
  /-- Its op, sub or kind is marked undefined (R81-R92). -/
  | undefinedOp
  /-- A field marked 0 holds a non-zero value (R93). -/
  | reservedField
  /-- A type, selector, pair or control register index its op does not accept (R78, R82, R87, R93). -/
  | illFormedOperand
  deriving DecidableEq, Repr

/-- Bits lo + n - 1 : lo of a word. -/
def fld (w : BitVec 32) (lo n : Nat) : BitVec n := w.extractLsb' lo n

/-- The scalar register form: op 21:17, then sub 1:0 (R73, R81). -/
def wordScalarReg (w : BitVec 32) : Option Instr :=
  match fld w 17 5 with
  | 0#5 =>
    match fld w 0 2 with
    | 0#2 => some (.add (fld w 22 4) (fld w 12 5) (fld w 7 5) (fld w 2 5))
    | 1#2 => some (.sub (fld w 22 4) (fld w 12 5) (fld w 7 5) (fld w 2 5))
    | _ => none
  | 1#5 =>
    match fld w 0 2 with
    | 0#2 => some (.and (fld w 22 4) (fld w 12 5) (fld w 7 5) (fld w 2 5))
    | 1#2 => some (.or (fld w 22 4) (fld w 12 5) (fld w 7 5) (fld w 2 5))
    | 2#2 => some (.xor (fld w 22 4) (fld w 12 5) (fld w 7 5) (fld w 2 5))
    | 3#2 => some (.andn (fld w 22 4) (fld w 12 5) (fld w 7 5) (fld w 2 5))
  | 2#5 =>
    match fld w 0 2 with
    | 0#2 => some (.sll (fld w 22 4) (fld w 12 5) (fld w 7 5) (fld w 2 5))
    | 1#2 => some (.srl (fld w 22 4) (fld w 12 5) (fld w 7 5) (fld w 2 5))
    | 2#2 => some (.sra (fld w 22 4) (fld w 12 5) (fld w 7 5) (fld w 2 5))
    | 3#2 => some (.ror (fld w 22 4) (fld w 12 5) (fld w 7 5) (fld w 2 5))
  | 3#5 =>
    match fld w 0 2 with
    | 0#2 => some (.slt (fld w 22 4) (fld w 12 5) (fld w 7 5) (fld w 2 5))
    | 1#2 => some (.sltn (fld w 22 4) (fld w 12 5) (fld w 7 5) (fld w 2 5))
    | 2#2 => some (.seq (fld w 22 4) (fld w 12 5) (fld w 7 5) (fld w 2 5))
    | 3#2 => some (.sne (fld w 22 4) (fld w 12 5) (fld w 7 5) (fld w 2 5))
  | 4#5 =>
    match fld w 0 2 with
    | 0#2 => some (.min (fld w 22 4) (fld w 12 5) (fld w 7 5) (fld w 2 5))
    | 1#2 => some (.max (fld w 22 4) (fld w 12 5) (fld w 7 5) (fld w 2 5))
    | 2#2 => some (.minn (fld w 22 4) (fld w 12 5) (fld w 7 5) (fld w 2 5))
    | 3#2 => some (.maxn (fld w 22 4) (fld w 12 5) (fld w 7 5) (fld w 2 5))
  | 5#5 =>
    match fld w 0 2 with
    | 0#2 => some (.mul (fld w 22 4) (fld w 12 5) (fld w 7 5) (fld w 2 5))
    | 1#2 => some (.mulh (fld w 22 4) (fld w 12 5) (fld w 7 5) (fld w 2 5))
    | 2#2 => some (.mulhn (fld w 22 4) (fld w 12 5) (fld w 7 5) (fld w 2 5))
    | _ => none
  | 6#5 =>
    match fld w 0 2 with
    | 0#2 => some (.div (fld w 22 4) (fld w 12 5) (fld w 7 5) (fld w 2 5))
    | 1#2 => some (.divn (fld w 22 4) (fld w 12 5) (fld w 7 5) (fld w 2 5))
    | 2#2 => some (.rem (fld w 22 4) (fld w 12 5) (fld w 7 5) (fld w 2 5))
    | 3#2 => some (.remn (fld w 22 4) (fld w 12 5) (fld w 7 5) (fld w 2 5))
  | 7#5 =>
    match fld w 0 2 with
    | 0#2 => some (.bfxr (fld w 22 4) (fld w 12 5) (fld w 7 5) (fld w 2 5))
    | 1#2 => some (.bfir (fld w 22 4) (fld w 12 5) (fld w 7 5) (fld w 2 5))
    | 2#2 => some (.popc (fld w 22 4) (fld w 12 5) (fld w 7 5))
    | 3#2 => some (.clz (fld w 22 4) (fld w 12 5) (fld w 7 5))
  | 8#5 => some (.fadd (fld w 22 4) (fld w 12 5) (fld w 7 5) (fld w 2 5) (fld w 0 2))
  | 9#5 => some (.fsub (fld w 22 4) (fld w 12 5) (fld w 7 5) (fld w 2 5) (fld w 0 2))
  | 10#5 => some (.fmul (fld w 22 4) (fld w 12 5) (fld w 7 5) (fld w 2 5) (fld w 0 2))
  | 11#5 => some (.ffma (fld w 22 4) (fld w 12 5) (fld w 7 5) (fld w 2 5) (fld w 0 2))
  | 12#5 => some (.fmin (fld w 22 4) (fld w 12 5) (fld w 7 5) (fld w 2 5) (fld w 0 2))
  | 13#5 => some (.fmax (fld w 22 4) (fld w 12 5) (fld w 7 5) (fld w 2 5) (fld w 0 2))
  | 14#5 => some (.fdiv (fld w 22 4) (fld w 12 5) (fld w 7 5) (fld w 2 5) (fld w 0 2))
  | 15#5 => some (.fsqrt (fld w 22 4) (fld w 12 5) (fld w 7 5) (fld w 0 2))
  | 16#5 => some (.fceq (fld w 22 4) (fld w 12 5) (fld w 7 5) (fld w 2 5) (fld w 0 2))
  | 17#5 => some (.fclt (fld w 22 4) (fld w 12 5) (fld w 7 5) (fld w 2 5) (fld w 0 2))
  | 18#5 => some (.fcle (fld w 22 4) (fld w 12 5) (fld w 7 5) (fld w 2 5) (fld w 0 2))
  | 19#5 => some (.fcvt (fld w 22 4) (fld w 12 5) (fld w 7 5) (fld w 2 5))
  | 20#5 =>
    match fld w 0 2 with
    | 0#2 => some (.fmov (fld w 22 4) (fld w 12 5) (fld w 7 5))
    | 1#2 => some (.gtail (fld w 22 4) (fld w 12 5) (fld w 7 5))
    | 2#2 => some (.stail (fld w 22 4) (fld w 12 5) (fld w 7 5))
    | _ => none
  | 21#5 =>
    match fld w 0 2 with
    | 0#2 => some (.stageMs (fld w 22 4) (fld w 12 3) (fld w 7 5))
    | 1#2 => some (.stageWs (fld w 22 4) (fld w 12 3) (fld w 7 5))
    | 2#2 => some (.stageFs (fld w 22 4) (fld w 12 3) (fld w 7 5))
    | _ => none
  | _ => none

/-- The scalar immediate form: op 25:22 (R73, R83). -/
def wordScalarImm (w : BitVec 32) : Option Instr :=
  match fld w 22 4 with
  | 0#4 => some (.addi (fld w 17 5) (fld w 12 5) (fld w 0 12))
  | 1#4 => some (.andi (fld w 17 5) (fld w 12 5) (fld w 0 12))
  | 2#4 => some (.ori (fld w 17 5) (fld w 12 5) (fld w 0 12))
  | 3#4 => some (.xori (fld w 17 5) (fld w 12 5) (fld w 0 12))
  | 4#4 =>
    match fld w 6 2 with
    | 0#2 => some (.slli (fld w 17 5) (fld w 12 5) (fld w 0 6))
    | 1#2 => some (.srli (fld w 17 5) (fld w 12 5) (fld w 0 6))
    | 2#2 => some (.srai (fld w 17 5) (fld w 12 5) (fld w 0 6))
    | 3#2 => some (.rori (fld w 17 5) (fld w 12 5) (fld w 0 6))
  | 5#4 => some (.slti (fld w 17 5) (fld w 12 5) (fld w 0 12))
  | 6#4 => some (.sltni (fld w 17 5) (fld w 12 5) (fld w 0 12))
  | 7#4 => some (.bfx (fld w 17 5) (fld w 12 5) (fld w 6 6) (fld w 0 6))
  | 8#4 => some (.bfi (fld w 17 5) (fld w 12 5) (fld w 6 6) (fld w 0 6))
  | 9#4 => some (.ld (fld w 17 5) (fld w 12 5) (fld w 9 3) (fld w 0 9))
  | 10#4 => some (.st (fld w 17 5) (fld w 12 5) (fld w 9 3) (fld w 0 9))
  | 11#4 => some (.stf (fld w 17 5) (fld w 12 5) (fld w 9 3) (fld w 0 9))
  | 12#4 => some (.crd (fld w 17 5) (fld w 0 12))
  | 13#4 => some (.cwr (fld w 12 5) (fld w 0 12))
  | _ => none

/-- The scalar upper form: op 25 (R73, R84). -/
def wordUpper (w : BitVec 32) : Option Instr :=
  match fld w 25 1 with
  | 0#1 => some (.lui (fld w 20 5) (fld w 0 20))
  | 1#1 => some (.aupc (fld w 20 5) (fld w 0 20))

/-- The branch and system form: op 21:17 (R73, R85). -/
def wordSystem (w : BitVec 32) : Option Instr :=
  match fld w 17 5 with
  | 0#5 => some (.br (fld w 22 4) (fld w 0 17))
  | 1#5 => some (.call (fld w 22 4) (fld w 0 17))
  | 2#5 => some (.jr (fld w 22 4) (fld w 12 5))
  | 3#5 => some (.callr (fld w 22 4) (fld w 12 5))
  | 4#5 => some (.bz (fld w 22 4) (fld w 12 5) (fld w 0 12))
  | 5#5 => some (.bnz (fld w 22 4) (fld w 12 5) (fld w 0 12))
  | 6#5 => some (.bbs (fld w 22 4) (fld w 12 5) (fld w 6 6) (fld w 0 6))
  | 7#5 => some (.bbc (fld w 22 4) (fld w 12 5) (fld w 6 6) (fld w 0 6))
  | 8#5 => some (.loop (fld w 22 4) (fld w 12 5) (fld w 0 12))
  | 9#5 => some (.wait (fld w 22 4) (fld w 12 5) (fld w 0 12))
  | 10#5 => some (.waitr (fld w 22 4) (fld w 12 5) (fld w 7 5))
  | 11#5 => some (.tkset (fld w 22 4) (fld w 12 5) (fld w 0 12))
  | 12#5 => some (.dly (fld w 22 4) (fld w 0 8))
  | 13#5 => some (.bar (fld w 22 4))
  | 14#5 => some (.sysLaunch (fld w 22 4) (fld w 12 5))
  | 15#5 => some (.sigDec (fld w 22 4) (fld w 12 5) (fld w 7 5))
  | 16#5 => some (.sigWait (fld w 22 4) (fld w 12 5) (fld w 7 5))
  | 17#5 => some (.trap (fld w 22 4) (fld w 0 12))
  | 18#5 => some (.tret (fld w 22 4))
  | 19#5 => some (.ilock (fld w 22 4) (fld w 12 5) (fld w 7 5))
  | 20#5 => some (.iunlk (fld w 22 4) (fld w 12 5))
  | 21#5 => some (.fence (fld w 22 4) (fld w 14 3))
  | 22#5 => some (.tgive (fld w 22 4) (fld w 11 6) (fld w 8 3))
  | 23#5 => some (.endTask (fld w 22 4))
  | _ => none

/-- Vector words: op 23:18 (R74, R86). -/
def wordVector (w : BitVec 32) : Option Instr :=
  match fld w 18 6 with
  | 0#6 => some (.vadd (fld w 24 4) (fld w 15 3) (fld w 10 5) (fld w 5 5) (fld w 0 5))
  | 1#6 => some (.vsub (fld w 24 4) (fld w 15 3) (fld w 10 5) (fld w 5 5) (fld w 0 5))
  | 2#6 => some (.vmul (fld w 24 4) (fld w 15 3) (fld w 10 5) (fld w 5 5) (fld w 0 5))
  | 3#6 => some (.vmulh (fld w 24 4) (fld w 15 3) (fld w 10 5) (fld w 5 5) (fld w 0 5))
  | 4#6 => some (.vsadd (fld w 24 4) (fld w 15 3) (fld w 10 5) (fld w 5 5) (fld w 0 5))
  | 5#6 => some (.vssub (fld w 24 4) (fld w 15 3) (fld w 10 5) (fld w 5 5) (fld w 0 5))
  | 6#6 => some (.vabs (fld w 24 4) (fld w 15 3) (fld w 10 5) (fld w 5 5))
  | 7#6 => some (.vneg (fld w 24 4) (fld w 15 3) (fld w 10 5) (fld w 5 5))
  | 8#6 => some (.vand (fld w 24 4) (fld w 15 3) (fld w 10 5) (fld w 5 5) (fld w 0 5))
  | 9#6 => some (.vor (fld w 24 4) (fld w 15 3) (fld w 10 5) (fld w 5 5) (fld w 0 5))
  | 10#6 => some (.vxor (fld w 24 4) (fld w 15 3) (fld w 10 5) (fld w 5 5) (fld w 0 5))
  | 11#6 => some (.vandn (fld w 24 4) (fld w 15 3) (fld w 10 5) (fld w 5 5) (fld w 0 5))
  | 12#6 => some (.vshl (fld w 24 4) (fld w 15 3) (fld w 10 5) (fld w 5 5) (fld w 0 5))
  | 13#6 => some (.vshr (fld w 24 4) (fld w 15 3) (fld w 10 5) (fld w 5 5) (fld w 0 5))
  | 14#6 => some (.vmin (fld w 24 4) (fld w 15 3) (fld w 10 5) (fld w 5 5) (fld w 0 5))
  | 15#6 => some (.vmax (fld w 24 4) (fld w 15 3) (fld w 10 5) (fld w 5 5) (fld w 0 5))
  | 16#6 => some (.vfadd (fld w 24 4) (fld w 15 3) (fld w 10 5) (fld w 5 5) (fld w 0 5))
  | 17#6 => some (.vfsub (fld w 24 4) (fld w 15 3) (fld w 10 5) (fld w 5 5) (fld w 0 5))
  | 18#6 => some (.vfmul (fld w 24 4) (fld w 15 3) (fld w 10 5) (fld w 5 5) (fld w 0 5))
  | 19#6 => some (.vfma (fld w 24 4) (fld w 15 3) (fld w 10 5) (fld w 5 5) (fld w 0 5))
  | 20#6 => some (.vfms (fld w 24 4) (fld w 15 3) (fld w 10 5) (fld w 5 5) (fld w 0 5))
  | 21#6 => some (.vfmin (fld w 24 4) (fld w 15 3) (fld w 10 5) (fld w 5 5) (fld w 0 5))
  | 22#6 => some (.vfmax (fld w 24 4) (fld w 15 3) (fld w 10 5) (fld w 5 5) (fld w 0 5))
  | 23#6 => some (.vfneg (fld w 24 4) (fld w 15 3) (fld w 10 5) (fld w 5 5))
  | 24#6 => some (.vfabs (fld w 24 4) (fld w 15 3) (fld w 10 5) (fld w 5 5))
  | 25#6 => some (.vfredsum (fld w 24 4) (fld w 15 3) (fld w 10 5) (fld w 5 5))
  | 26#6 => some (.vfredmax (fld w 24 4) (fld w 15 3) (fld w 10 5) (fld w 5 5))
  | 27#6 => some (.vfredmin (fld w 24 4) (fld w 15 3) (fld w 10 5) (fld w 5 5))
  | 28#6 => some (.vredsum (fld w 24 4) (fld w 15 3) (fld w 10 5) (fld w 5 5))
  | 29#6 => some (.vredmax (fld w 24 4) (fld w 15 3) (fld w 10 5) (fld w 5 5))
  | 30#6 => some (.vredmin (fld w 24 4) (fld w 15 3) (fld w 10 5) (fld w 5 5))
  | 31#6 => some (.vsel (fld w 24 4) (fld w 15 3) (fld w 10 5) (fld w 5 5) (fld w 0 5))
  | 32#6 => some (.vceq (fld w 24 4) (fld w 15 3) (fld w 10 5) (fld w 5 5) (fld w 0 5))
  | 33#6 => some (.vcne (fld w 24 4) (fld w 15 3) (fld w 10 5) (fld w 5 5) (fld w 0 5))
  | 34#6 => some (.vclt (fld w 24 4) (fld w 15 3) (fld w 10 5) (fld w 5 5) (fld w 0 5))
  | 35#6 => some (.vcle (fld w 24 4) (fld w 15 3) (fld w 10 5) (fld w 5 5) (fld w 0 5))
  | 36#6 => some (.vfceq (fld w 24 4) (fld w 15 3) (fld w 10 5) (fld w 5 5) (fld w 0 5))
  | 37#6 => some (.vfclt (fld w 24 4) (fld w 15 3) (fld w 10 5) (fld w 5 5) (fld w 0 5))
  | 38#6 => some (.vfcle (fld w 24 4) (fld w 15 3) (fld w 10 5) (fld w 5 5) (fld w 0 5))
  | 39#6 => some (.vfcun (fld w 24 4) (fld w 15 3) (fld w 10 5) (fld w 5 5) (fld w 0 5))
  | 40#6 => some (.vperm (fld w 24 4) (fld w 15 3) (fld w 10 5) (fld w 5 5) (fld w 0 5))
  | 41#6 => some (.vzip (fld w 24 4) (fld w 15 3) (fld w 10 5) (fld w 5 5) (fld w 0 5))
  | 42#6 => some (.vunzip (fld w 24 4) (fld w 15 3) (fld w 10 5) (fld w 5 5) (fld w 0 5))
  | 43#6 => some (.vrot (fld w 24 4) (fld w 15 3) (fld w 10 5) (fld w 5 5) (fld w 0 5))
  | 44#6 => some (.vbcast (fld w 24 4) (fld w 15 3) (fld w 10 5) (fld w 5 5))
  | 45#6 => some (.vext (fld w 24 4) (fld w 15 3) (fld w 10 5) (fld w 5 5) (fld w 0 5))
  | 46#6 => some (.vins (fld w 24 4) (fld w 15 3) (fld w 10 5) (fld w 5 5) (fld w 0 5))
  | 47#6 => some (.vmov (fld w 24 4) (fld w 15 3) (fld w 10 5) (fld w 5 5))
  | 48#6 => some (.vwadd (fld w 24 4) (fld w 15 3) (fld w 10 5) (fld w 5 5) (fld w 0 5))
  | 49#6 => some (.vwmul (fld w 24 4) (fld w 15 3) (fld w 10 5) (fld w 5 5) (fld w 0 5))
  | 50#6 => some (.vfwma (fld w 24 4) (fld w 15 3) (fld w 10 5) (fld w 5 5) (fld w 0 5))
  | 52#6 => some (.pand (fld w 24 4) (fld w 10 5) (fld w 5 5) (fld w 0 5))
  | 53#6 => some (.por (fld w 24 4) (fld w 10 5) (fld w 5 5) (fld w 0 5))
  | 54#6 => some (.pxor (fld w 24 4) (fld w 10 5) (fld w 5 5) (fld w 0 5))
  | 55#6 => some (.pandn (fld w 24 4) (fld w 10 5) (fld w 5 5) (fld w 0 5))
  | _ => none

/-- F words: op 23:18 (R74, R88). -/
def wordFclass (w : BitVec 32) : Option Instr :=
  match fld w 18 6 with
  | 0#6 => some (.vcvtFloat (fld w 24 4) (fld w 15 3) (fld w 10 5) (fld w 5 5) (fld w 0 5))
  | 1#6 => some (.vcvtInt (fld w 24 4) (fld w 15 3) (fld w 10 5) (fld w 5 5) (fld w 0 5))
  | 2#6 => some (.qmax (fld w 24 4) (fld w 5 5))
  | 3#6 => some (.qcvt (fld w 24 4) (fld w 10 5) (fld w 5 5))
  | 4#6 => some (.vrcp (fld w 24 4) (fld w 15 3) (fld w 10 5) (fld w 5 5))
  | 5#6 => some (.vrsqrt (fld w 24 4) (fld w 15 3) (fld w 10 5) (fld w 5 5))
  | 6#6 => some (.vsqrt (fld w 24 4) (fld w 15 3) (fld w 10 5) (fld w 5 5))
  | 7#6 => some (.vdiv (fld w 24 4) (fld w 15 3) (fld w 10 5) (fld w 5 5) (fld w 0 5))
  | 8#6 => some (.vexp2 (fld w 24 4) (fld w 15 3) (fld w 10 5) (fld w 5 5))
  | 9#6 => some (.vlog2 (fld w 24 4) (fld w 15 3) (fld w 10 5) (fld w 5 5))
  | 10#6 => some (.vexp (fld w 24 4) (fld w 15 3) (fld w 10 5) (fld w 5 5))
  | 11#6 => some (.vlog (fld w 24 4) (fld w 15 3) (fld w 10 5) (fld w 5 5))
  | 12#6 => some (.vsin (fld w 24 4) (fld w 15 3) (fld w 10 5) (fld w 5 5))
  | 13#6 => some (.vcos (fld w 24 4) (fld w 15 3) (fld w 10 5) (fld w 5 5))
  | 14#6 => some (.vtanh (fld w 24 4) (fld w 15 3) (fld w 10 5) (fld w 5 5))
  | 15#6 => some (.vsigm (fld w 24 4) (fld w 15 3) (fld w 10 5) (fld w 5 5))
  | 16#6 => some (.verf (fld w 24 4) (fld w 15 3) (fld w 10 5) (fld w 5 5))
  | 17#6 => some (.vrint (fld w 24 4) (fld w 15 3) (fld w 10 5) (fld w 5 5))
  | 18#6 => some (.vscl (fld w 24 4) (fld w 15 3) (fld w 10 5) (fld w 5 5) (fld w 0 5))
  | _ => none

/-- M words: op 23:20 (R77, R89). -/
def wordMatrix (w : BitVec 32) : Option Instr :=
  match fld w 20 4 with
  | 0#4 => some (.mload (fld w 24 4) (fld w 15 5) (fld w 9 6))
  | 1#4 => some (.mswap (fld w 24 4) (fld w 15 5))
  | 2#4 => some (.mstream (fld w 24 4) (fld w 15 5) (fld w 9 6))
  | 3#4 => some (.mstreamz (fld w 24 4) (fld w 15 5) (fld w 9 6))
  | 4#4 => some (.mstore (fld w 24 4) (fld w 15 5) (fld w 9 6))
  | 5#4 => some (.mzero (fld w 24 4) (fld w 15 5))
  | 6#4 =>
    match fld w 7 2 with
    | 0#2 => some (.mscaleW (fld w 24 4) (fld w 15 5) (fld w 9 6))
    | 1#2 => some (.mscaleA (fld w 24 4) (fld w 15 5) (fld w 9 6))
    | _ => none
  | 7#4 => some (.mread (fld w 24 4) (fld w 15 5) (fld w 4 5))
  | 8#4 => some (.mwrite (fld w 24 4) (fld w 15 5) (fld w 4 5))
  | 9#4 => some (.mdrain (fld w 24 4) (fld w 15 5))
  | _ => none

/-- The memory words of the A and B slots: op 23:18 (R75, R90). -/
def wordMemory (w : BitVec 32) : Option Instr :=
  match fld w 18 6 with
  | 0#6 => some (.ldV (w.getLsbD 28) (fld w 24 4) (fld w 13 5) (fld w 8 5) (fld w 0 8))
  | 1#6 => some (.stV (w.getLsbD 28) (fld w 24 4) (fld w 13 5) (fld w 8 5) (fld w 0 8))
  | 2#6 => some (.stVF32 (w.getLsbD 28) (fld w 24 4) (fld w 13 5) (fld w 8 5) (fld w 0 8))
  | 3#6 => some (.stVF16 (w.getLsbD 28) (fld w 24 4) (fld w 13 5) (fld w 8 5) (fld w 0 8))
  | 4#6 => some (.stVBf16 (w.getLsbD 28) (fld w 24 4) (fld w 13 5) (fld w 8 5) (fld w 0 8))
  | 5#6 => some (.stVE4m3 (w.getLsbD 28) (fld w 24 4) (fld w 13 5) (fld w 8 5) (fld w 0 8))
  | 6#6 => some (.stVE5m2 (w.getLsbD 28) (fld w 24 4) (fld w 13 5) (fld w 8 5) (fld w 0 8))
  | 8#6 => some (.ldP (w.getLsbD 28) (fld w 24 4) (fld w 13 5) (fld w 8 5) (fld w 0 8))
  | 9#6 => some (.stP (w.getLsbD 28) (fld w 24 4) (fld w 13 5) (fld w 8 5) (fld w 0 8))
  | 10#6 => some (.vspill (w.getLsbD 28) (fld w 24 4) (fld w 13 5) (fld w 8 5) (fld w 0 8))
  | 11#6 => some (.vfill (w.getLsbD 28) (fld w 24 4) (fld w 13 5) (fld w 8 5) (fld w 0 8))
  | 12#6 => some (.ldVb (w.getLsbD 28) (fld w 24 4) (fld w 13 5) (fld w 8 5) (fld w 0 8))
  | _ => none

/-- Engine commands of the B slot: op 23:18, 0x20 and above (R76, R91, R92). -/
def wordEngine (w : BitVec 32) : Option Instr :=
  match fld w 18 6 with
  | 32#6 => some (.wnCopy (fld w 24 4) (fld w 13 5))
  | 33#6 => some (.wnGather (fld w 24 4) (fld w 13 5))
  | 34#6 => some (.wnScatter (fld w 24 4) (fld w 13 5))
  | 35#6 => some (.wnDecode (fld w 24 4) (fld w 13 5))
  | 36#6 => some (.wnEncode (fld w 24 4) (fld w 13 5))
  | 37#6 => some (.wnExpand (fld w 24 4) (fld w 13 5))
  | 38#6 => some (.wnFlush (fld w 24 4) (fld w 13 5))
  | 39#6 => some (.wnFar (fld w 24 4) (fld w 13 5) (fld w 8 5))
  | 40#6 => some (.vspillM (fld w 24 4) (fld w 13 5) (fld w 8 5) (fld w 0 5))
  | 41#6 => some (.vfillM (fld w 24 4) (fld w 13 5) (fld w 8 5) (fld w 0 5))
  | 48#6 => some (.fxLd (fld w 24 4) (fld w 13 5))
  | 49#6 => some (.fxSt (fld w 24 4) (fld w 13 5))
  | 50#6 => some (.fxAdd (fld w 24 4) (fld w 13 5) (fld w 8 5))
  | 51#6 => some (.fxMin (fld w 24 4) (fld w 13 5) (fld w 8 5))
  | 52#6 => some (.fxMax (fld w 24 4) (fld w 13 5) (fld w 8 5))
  | 53#6 => some (.fxSwap (fld w 24 4) (fld w 13 5) (fld w 8 5))
  | 54#6 => some (.fxCas (fld w 24 4) (fld w 13 5) (fld w 8 5))
  | 55#6 => some (.fxAnd (fld w 24 4) (fld w 13 5) (fld w 8 5))
  | 56#6 => some (.fxOr (fld w 24 4) (fld w 13 5) (fld w 8 5))
  | 57#6 => some (.fxFlush (fld w 24 4) (fld w 13 5))
  | 58#6 => some (.fxFence (fld w 24 4) (fld w 13 5) (fld w 8 5) (fld w 0 3))
  | 59#6 => some (.fxSdec (fld w 24 4) (fld w 13 5))
  | _ => none

/-- The instruction that a word's class, form, op and sub name, with its fields (R67, R73-R77). In an A word the ops
0x20 to 0x3F are undefined (R90). -/
def wordCandidate (w : BitVec 32) : Option Instr :=
  match fld w 28 3 with
  | 0#3 =>
    match fld w 26 2 with
    | 0#2 => wordScalarReg w
    | 1#2 => wordScalarImm w
    | 2#2 => wordUpper w
    | _ => wordSystem w
  | 1#3 => wordVector w
  | 2#3 => wordFclass w
  | 3#3 => wordMatrix w
  | 4#3 => wordMemory w
  | 5#3 => if w.getLsbD 23 then wordEngine w else wordMemory w
  | _ => none

/-- The 32-bit word of an instruction that has one, with E in bit 31 (R66, R73-R92). The rows without an encoding
have no word. -/
def encode (e : Bool) : Instr → Option (BitVec 32)
  | .add g rd rs rt => some (BitVec.ofBool e ++ 0#5 ++ g ++ 0#5 ++ rd ++ rs ++ rt ++ 0#2)
  | .sub g rd rs rt => some (BitVec.ofBool e ++ 0#5 ++ g ++ 0#5 ++ rd ++ rs ++ rt ++ 1#2)
  | .and g rd rs rt => some (BitVec.ofBool e ++ 0#5 ++ g ++ 1#5 ++ rd ++ rs ++ rt ++ 0#2)
  | .or g rd rs rt => some (BitVec.ofBool e ++ 0#5 ++ g ++ 1#5 ++ rd ++ rs ++ rt ++ 1#2)
  | .xor g rd rs rt => some (BitVec.ofBool e ++ 0#5 ++ g ++ 1#5 ++ rd ++ rs ++ rt ++ 2#2)
  | .andn g rd rs rt => some (BitVec.ofBool e ++ 0#5 ++ g ++ 1#5 ++ rd ++ rs ++ rt ++ 3#2)
  | .sll g rd rs rt => some (BitVec.ofBool e ++ 0#5 ++ g ++ 2#5 ++ rd ++ rs ++ rt ++ 0#2)
  | .srl g rd rs rt => some (BitVec.ofBool e ++ 0#5 ++ g ++ 2#5 ++ rd ++ rs ++ rt ++ 1#2)
  | .sra g rd rs rt => some (BitVec.ofBool e ++ 0#5 ++ g ++ 2#5 ++ rd ++ rs ++ rt ++ 2#2)
  | .ror g rd rs rt => some (BitVec.ofBool e ++ 0#5 ++ g ++ 2#5 ++ rd ++ rs ++ rt ++ 3#2)
  | .slt g rd rs rt => some (BitVec.ofBool e ++ 0#5 ++ g ++ 3#5 ++ rd ++ rs ++ rt ++ 0#2)
  | .sltn g rd rs rt => some (BitVec.ofBool e ++ 0#5 ++ g ++ 3#5 ++ rd ++ rs ++ rt ++ 1#2)
  | .seq g rd rs rt => some (BitVec.ofBool e ++ 0#5 ++ g ++ 3#5 ++ rd ++ rs ++ rt ++ 2#2)
  | .sne g rd rs rt => some (BitVec.ofBool e ++ 0#5 ++ g ++ 3#5 ++ rd ++ rs ++ rt ++ 3#2)
  | .min g rd rs rt => some (BitVec.ofBool e ++ 0#5 ++ g ++ 4#5 ++ rd ++ rs ++ rt ++ 0#2)
  | .max g rd rs rt => some (BitVec.ofBool e ++ 0#5 ++ g ++ 4#5 ++ rd ++ rs ++ rt ++ 1#2)
  | .minn g rd rs rt => some (BitVec.ofBool e ++ 0#5 ++ g ++ 4#5 ++ rd ++ rs ++ rt ++ 2#2)
  | .maxn g rd rs rt => some (BitVec.ofBool e ++ 0#5 ++ g ++ 4#5 ++ rd ++ rs ++ rt ++ 3#2)
  | .mul g rd rs rt => some (BitVec.ofBool e ++ 0#5 ++ g ++ 5#5 ++ rd ++ rs ++ rt ++ 0#2)
  | .mulh g rd rs rt => some (BitVec.ofBool e ++ 0#5 ++ g ++ 5#5 ++ rd ++ rs ++ rt ++ 1#2)
  | .mulhn g rd rs rt => some (BitVec.ofBool e ++ 0#5 ++ g ++ 5#5 ++ rd ++ rs ++ rt ++ 2#2)
  | .div g rd rs rt => some (BitVec.ofBool e ++ 0#5 ++ g ++ 6#5 ++ rd ++ rs ++ rt ++ 0#2)
  | .divn g rd rs rt => some (BitVec.ofBool e ++ 0#5 ++ g ++ 6#5 ++ rd ++ rs ++ rt ++ 1#2)
  | .rem g rd rs rt => some (BitVec.ofBool e ++ 0#5 ++ g ++ 6#5 ++ rd ++ rs ++ rt ++ 2#2)
  | .remn g rd rs rt => some (BitVec.ofBool e ++ 0#5 ++ g ++ 6#5 ++ rd ++ rs ++ rt ++ 3#2)
  | .bfxr g rd rs rt => some (BitVec.ofBool e ++ 0#5 ++ g ++ 7#5 ++ rd ++ rs ++ rt ++ 0#2)
  | .bfir g rd rs rt => some (BitVec.ofBool e ++ 0#5 ++ g ++ 7#5 ++ rd ++ rs ++ rt ++ 1#2)
  | .popc g rd rs => some (BitVec.ofBool e ++ 0#5 ++ g ++ 7#5 ++ rd ++ rs ++ 2#7)
  | .clz g rd rs => some (BitVec.ofBool e ++ 0#5 ++ g ++ 7#5 ++ rd ++ rs ++ 3#7)
  | .fadd g rd rs rt fmt => some (BitVec.ofBool e ++ 0#5 ++ g ++ 8#5 ++ rd ++ rs ++ rt ++ fmt)
  | .fsub g rd rs rt fmt => some (BitVec.ofBool e ++ 0#5 ++ g ++ 9#5 ++ rd ++ rs ++ rt ++ fmt)
  | .fmul g rd rs rt fmt => some (BitVec.ofBool e ++ 0#5 ++ g ++ 10#5 ++ rd ++ rs ++ rt ++ fmt)
  | .ffma g rd rs rt fmt => some (BitVec.ofBool e ++ 0#5 ++ g ++ 11#5 ++ rd ++ rs ++ rt ++ fmt)
  | .fmin g rd rs rt fmt => some (BitVec.ofBool e ++ 0#5 ++ g ++ 12#5 ++ rd ++ rs ++ rt ++ fmt)
  | .fmax g rd rs rt fmt => some (BitVec.ofBool e ++ 0#5 ++ g ++ 13#5 ++ rd ++ rs ++ rt ++ fmt)
  | .fdiv g rd rs rt fmt => some (BitVec.ofBool e ++ 0#5 ++ g ++ 14#5 ++ rd ++ rs ++ rt ++ fmt)
  | .fsqrt g rd rs fmt => some (BitVec.ofBool e ++ 0#5 ++ g ++ 15#5 ++ rd ++ rs ++ 0#5 ++ fmt)
  | .fceq g rd rs rt fmt => some (BitVec.ofBool e ++ 0#5 ++ g ++ 16#5 ++ rd ++ rs ++ rt ++ fmt)
  | .fclt g rd rs rt fmt => some (BitVec.ofBool e ++ 0#5 ++ g ++ 17#5 ++ rd ++ rs ++ rt ++ fmt)
  | .fcle g rd rs rt fmt => some (BitVec.ofBool e ++ 0#5 ++ g ++ 18#5 ++ rd ++ rs ++ rt ++ fmt)
  | .fcvt g rd rs sel => some (BitVec.ofBool e ++ 0#5 ++ g ++ 19#5 ++ rd ++ rs ++ sel ++ 0#2)
  | .fmov g rd rs => some (BitVec.ofBool e ++ 0#5 ++ g ++ 20#5 ++ rd ++ rs ++ 0#7)
  | .gtail g rd rs => some (BitVec.ofBool e ++ 0#5 ++ g ++ 20#5 ++ rd ++ rs ++ 1#7)
  | .stail g rd rs => some (BitVec.ofBool e ++ 0#5 ++ g ++ 20#5 ++ rd ++ rs ++ 2#7)
  | .stageMs g num rs => some (BitVec.ofBool e ++ 0#5 ++ g ++ 84#7 ++ num ++ rs ++ 0#7)
  | .stageWs g num rs => some (BitVec.ofBool e ++ 0#5 ++ g ++ 84#7 ++ num ++ rs ++ 1#7)
  | .stageFs g num rs => some (BitVec.ofBool e ++ 0#5 ++ g ++ 84#7 ++ num ++ rs ++ 2#7)
  | .addi rd rs imm => some (BitVec.ofBool e ++ 16#9 ++ rd ++ rs ++ imm)
  | .andi rd rs imm => some (BitVec.ofBool e ++ 17#9 ++ rd ++ rs ++ imm)
  | .ori rd rs imm => some (BitVec.ofBool e ++ 18#9 ++ rd ++ rs ++ imm)
  | .xori rd rs imm => some (BitVec.ofBool e ++ 19#9 ++ rd ++ rs ++ imm)
  | .slli rd rs amt => some (BitVec.ofBool e ++ 20#9 ++ rd ++ rs ++ 0#6 ++ amt)
  | .srli rd rs amt => some (BitVec.ofBool e ++ 20#9 ++ rd ++ rs ++ 1#6 ++ amt)
  | .srai rd rs amt => some (BitVec.ofBool e ++ 20#9 ++ rd ++ rs ++ 2#6 ++ amt)
  | .rori rd rs amt => some (BitVec.ofBool e ++ 20#9 ++ rd ++ rs ++ 3#6 ++ amt)
  | .slti rd rs imm => some (BitVec.ofBool e ++ 21#9 ++ rd ++ rs ++ imm)
  | .sltni rd rs imm => some (BitVec.ofBool e ++ 22#9 ++ rd ++ rs ++ imm)
  | .bfx rd rs wid off => some (BitVec.ofBool e ++ 23#9 ++ rd ++ rs ++ wid ++ off)
  | .bfi rd rs wid off => some (BitVec.ofBool e ++ 24#9 ++ rd ++ rs ++ wid ++ off)
  | .ld rd rs ty off => some (BitVec.ofBool e ++ 25#9 ++ rd ++ rs ++ ty ++ off)
  | .st rd rs ty off => some (BitVec.ofBool e ++ 26#9 ++ rd ++ rs ++ ty ++ off)
  | .stf rd rs ty off => some (BitVec.ofBool e ++ 27#9 ++ rd ++ rs ++ ty ++ off)
  | .crd rd cidx => some (BitVec.ofBool e ++ 28#9 ++ rd ++ 0#5 ++ cidx)
  | .cwr rs cidx => some (BitVec.ofBool e ++ 928#14 ++ rs ++ cidx)
  | .lui rd imm => some (BitVec.ofBool e ++ 4#6 ++ rd ++ imm)
  | .aupc rd imm => some (BitVec.ofBool e ++ 5#6 ++ rd ++ imm)
  | .br g imm => some (BitVec.ofBool e ++ 3#5 ++ g ++ 0#5 ++ imm)
  | .call g imm => some (BitVec.ofBool e ++ 3#5 ++ g ++ 1#5 ++ imm)
  | .jr g rs => some (BitVec.ofBool e ++ 3#5 ++ g ++ 2#5 ++ rs ++ 0#12)
  | .callr g rs => some (BitVec.ofBool e ++ 3#5 ++ g ++ 3#5 ++ rs ++ 0#12)
  | .bz g rs imm => some (BitVec.ofBool e ++ 3#5 ++ g ++ 4#5 ++ rs ++ imm)
  | .bnz g rs imm => some (BitVec.ofBool e ++ 3#5 ++ g ++ 5#5 ++ rs ++ imm)
  | .bbs g rs bitn imm => some (BitVec.ofBool e ++ 3#5 ++ g ++ 6#5 ++ rs ++ bitn ++ imm)
  | .bbc g rs bitn imm => some (BitVec.ofBool e ++ 3#5 ++ g ++ 7#5 ++ rs ++ bitn ++ imm)
  | .loop g rs imm => some (BitVec.ofBool e ++ 3#5 ++ g ++ 8#5 ++ rs ++ imm)
  | .wait g k thr => some (BitVec.ofBool e ++ 3#5 ++ g ++ 9#5 ++ k ++ thr)
  | .waitr g k rs => some (BitVec.ofBool e ++ 3#5 ++ g ++ 10#5 ++ k ++ rs ++ 0#7)
  | .tkset g k imm => some (BitVec.ofBool e ++ 3#5 ++ g ++ 11#5 ++ k ++ imm)
  | .dly g num => some (BitVec.ofBool e ++ 3#5 ++ g ++ 6144#14 ++ num)
  | .bar g => some (BitVec.ofBool e ++ 3#5 ++ g ++ 1703936#22)
  | .sysLaunch g rs => some (BitVec.ofBool e ++ 3#5 ++ g ++ 14#5 ++ rs ++ 0#12)
  | .sigDec g rs rt => some (BitVec.ofBool e ++ 3#5 ++ g ++ 15#5 ++ rs ++ rt ++ 0#7)
  | .sigWait g rs rt => some (BitVec.ofBool e ++ 3#5 ++ g ++ 16#5 ++ rs ++ rt ++ 0#7)
  | .trap g code => some (BitVec.ofBool e ++ 3#5 ++ g ++ 544#10 ++ code)
  | .tret g => some (BitVec.ofBool e ++ 3#5 ++ g ++ 2359296#22)
  | .ilock g rd rs => some (BitVec.ofBool e ++ 3#5 ++ g ++ 19#5 ++ rd ++ rs ++ 0#7)
  | .iunlk g rs => some (BitVec.ofBool e ++ 3#5 ++ g ++ 20#5 ++ rs ++ 0#12)
  | .fence g scope => some (BitVec.ofBool e ++ 3#5 ++ g ++ 21#5 ++ scope ++ 0#14)
  | .tgive g tile owner => some (BitVec.ofBool e ++ 3#5 ++ g ++ 22#5 ++ tile ++ owner ++ 0#8)
  | .endTask g => some (BitVec.ofBool e ++ 3#5 ++ g ++ 3014656#22)
  | .vadd g ty vd va vb => some (BitVec.ofBool e ++ 1#3 ++ g ++ 0#6 ++ ty ++ vd ++ va ++ vb)
  | .vsub g ty vd va vb => some (BitVec.ofBool e ++ 1#3 ++ g ++ 1#6 ++ ty ++ vd ++ va ++ vb)
  | .vmul g ty vd va vb => some (BitVec.ofBool e ++ 1#3 ++ g ++ 2#6 ++ ty ++ vd ++ va ++ vb)
  | .vmulh g ty vd va vb => some (BitVec.ofBool e ++ 1#3 ++ g ++ 3#6 ++ ty ++ vd ++ va ++ vb)
  | .vsadd g ty vd va vb => some (BitVec.ofBool e ++ 1#3 ++ g ++ 4#6 ++ ty ++ vd ++ va ++ vb)
  | .vssub g ty vd va vb => some (BitVec.ofBool e ++ 1#3 ++ g ++ 5#6 ++ ty ++ vd ++ va ++ vb)
  | .vabs g ty vd va => some (BitVec.ofBool e ++ 1#3 ++ g ++ 6#6 ++ ty ++ vd ++ va ++ 0#5)
  | .vneg g ty vd va => some (BitVec.ofBool e ++ 1#3 ++ g ++ 7#6 ++ ty ++ vd ++ va ++ 0#5)
  | .vand g ty vd va vb => some (BitVec.ofBool e ++ 1#3 ++ g ++ 8#6 ++ ty ++ vd ++ va ++ vb)
  | .vor g ty vd va vb => some (BitVec.ofBool e ++ 1#3 ++ g ++ 9#6 ++ ty ++ vd ++ va ++ vb)
  | .vxor g ty vd va vb => some (BitVec.ofBool e ++ 1#3 ++ g ++ 10#6 ++ ty ++ vd ++ va ++ vb)
  | .vandn g ty vd va vb => some (BitVec.ofBool e ++ 1#3 ++ g ++ 11#6 ++ ty ++ vd ++ va ++ vb)
  | .vshl g ty vd va vb => some (BitVec.ofBool e ++ 1#3 ++ g ++ 12#6 ++ ty ++ vd ++ va ++ vb)
  | .vshr g ty vd va vb => some (BitVec.ofBool e ++ 1#3 ++ g ++ 13#6 ++ ty ++ vd ++ va ++ vb)
  | .vmin g ty vd va vb => some (BitVec.ofBool e ++ 1#3 ++ g ++ 14#6 ++ ty ++ vd ++ va ++ vb)
  | .vmax g ty vd va vb => some (BitVec.ofBool e ++ 1#3 ++ g ++ 15#6 ++ ty ++ vd ++ va ++ vb)
  | .vfadd g ty vd va vb => some (BitVec.ofBool e ++ 1#3 ++ g ++ 16#6 ++ ty ++ vd ++ va ++ vb)
  | .vfsub g ty vd va vb => some (BitVec.ofBool e ++ 1#3 ++ g ++ 17#6 ++ ty ++ vd ++ va ++ vb)
  | .vfmul g ty vd va vb => some (BitVec.ofBool e ++ 1#3 ++ g ++ 18#6 ++ ty ++ vd ++ va ++ vb)
  | .vfma g ty vd va vb => some (BitVec.ofBool e ++ 1#3 ++ g ++ 19#6 ++ ty ++ vd ++ va ++ vb)
  | .vfms g ty vd va vb => some (BitVec.ofBool e ++ 1#3 ++ g ++ 20#6 ++ ty ++ vd ++ va ++ vb)
  | .vfmin g ty vd va vb => some (BitVec.ofBool e ++ 1#3 ++ g ++ 21#6 ++ ty ++ vd ++ va ++ vb)
  | .vfmax g ty vd va vb => some (BitVec.ofBool e ++ 1#3 ++ g ++ 22#6 ++ ty ++ vd ++ va ++ vb)
  | .vfneg g ty vd va => some (BitVec.ofBool e ++ 1#3 ++ g ++ 23#6 ++ ty ++ vd ++ va ++ 0#5)
  | .vfabs g ty vd va => some (BitVec.ofBool e ++ 1#3 ++ g ++ 24#6 ++ ty ++ vd ++ va ++ 0#5)
  | .vfredsum g ty vd va => some (BitVec.ofBool e ++ 1#3 ++ g ++ 25#6 ++ ty ++ vd ++ va ++ 0#5)
  | .vfredmax g ty vd va => some (BitVec.ofBool e ++ 1#3 ++ g ++ 26#6 ++ ty ++ vd ++ va ++ 0#5)
  | .vfredmin g ty vd va => some (BitVec.ofBool e ++ 1#3 ++ g ++ 27#6 ++ ty ++ vd ++ va ++ 0#5)
  | .vredsum g ty vd va => some (BitVec.ofBool e ++ 1#3 ++ g ++ 28#6 ++ ty ++ vd ++ va ++ 0#5)
  | .vredmax g ty vd va => some (BitVec.ofBool e ++ 1#3 ++ g ++ 29#6 ++ ty ++ vd ++ va ++ 0#5)
  | .vredmin g ty vd va => some (BitVec.ofBool e ++ 1#3 ++ g ++ 30#6 ++ ty ++ vd ++ va ++ 0#5)
  | .vsel g sz vd va vb => some (BitVec.ofBool e ++ 1#3 ++ g ++ 31#6 ++ sz ++ vd ++ va ++ vb)
  | .vceq g ty vd va vb => some (BitVec.ofBool e ++ 1#3 ++ g ++ 32#6 ++ ty ++ vd ++ va ++ vb)
  | .vcne g ty vd va vb => some (BitVec.ofBool e ++ 1#3 ++ g ++ 33#6 ++ ty ++ vd ++ va ++ vb)
  | .vclt g ty vd va vb => some (BitVec.ofBool e ++ 1#3 ++ g ++ 34#6 ++ ty ++ vd ++ va ++ vb)
  | .vcle g ty vd va vb => some (BitVec.ofBool e ++ 1#3 ++ g ++ 35#6 ++ ty ++ vd ++ va ++ vb)
  | .vfceq g ty vd va vb => some (BitVec.ofBool e ++ 1#3 ++ g ++ 36#6 ++ ty ++ vd ++ va ++ vb)
  | .vfclt g ty vd va vb => some (BitVec.ofBool e ++ 1#3 ++ g ++ 37#6 ++ ty ++ vd ++ va ++ vb)
  | .vfcle g ty vd va vb => some (BitVec.ofBool e ++ 1#3 ++ g ++ 38#6 ++ ty ++ vd ++ va ++ vb)
  | .vfcun g ty vd va vb => some (BitVec.ofBool e ++ 1#3 ++ g ++ 39#6 ++ ty ++ vd ++ va ++ vb)
  | .vperm g sz vd va vb => some (BitVec.ofBool e ++ 1#3 ++ g ++ 40#6 ++ sz ++ vd ++ va ++ vb)
  | .vzip g sz vd va vb => some (BitVec.ofBool e ++ 1#3 ++ g ++ 41#6 ++ sz ++ vd ++ va ++ vb)
  | .vunzip g sz vd va vb => some (BitVec.ofBool e ++ 1#3 ++ g ++ 42#6 ++ sz ++ vd ++ va ++ vb)
  | .vrot g sz vd va rs => some (BitVec.ofBool e ++ 1#3 ++ g ++ 43#6 ++ sz ++ vd ++ va ++ rs)
  | .vbcast g sz vd rs => some (BitVec.ofBool e ++ 1#3 ++ g ++ 44#6 ++ sz ++ vd ++ rs ++ 0#5)
  | .vext g sz vd va rs => some (BitVec.ofBool e ++ 1#3 ++ g ++ 45#6 ++ sz ++ vd ++ va ++ rs)
  | .vins g sz vd va rs => some (BitVec.ofBool e ++ 1#3 ++ g ++ 46#6 ++ sz ++ vd ++ va ++ rs)
  | .vmov g sz vd va => some (BitVec.ofBool e ++ 1#3 ++ g ++ 47#6 ++ sz ++ vd ++ va ++ 0#5)
  | .vwadd g ty vd va vb => some (BitVec.ofBool e ++ 1#3 ++ g ++ 48#6 ++ ty ++ vd ++ va ++ vb)
  | .vwmul g ty vd va vb => some (BitVec.ofBool e ++ 1#3 ++ g ++ 49#6 ++ ty ++ vd ++ va ++ vb)
  | .vfwma g ty vd va vb => some (BitVec.ofBool e ++ 1#3 ++ g ++ 50#6 ++ ty ++ vd ++ va ++ vb)
  | .pand g vd va vb => some (BitVec.ofBool e ++ 1#3 ++ g ++ 416#9 ++ vd ++ va ++ vb)
  | .por g vd va vb => some (BitVec.ofBool e ++ 1#3 ++ g ++ 424#9 ++ vd ++ va ++ vb)
  | .pxor g vd va vb => some (BitVec.ofBool e ++ 1#3 ++ g ++ 432#9 ++ vd ++ va ++ vb)
  | .pandn g vd va vb => some (BitVec.ofBool e ++ 1#3 ++ g ++ 440#9 ++ vd ++ va ++ vb)
  | .vcvtFloat g fmt vd va sty => some (BitVec.ofBool e ++ 2#3 ++ g ++ 0#6 ++ fmt ++ vd ++ va ++ sty)
  | .vcvtInt g fmt vd va sty => some (BitVec.ofBool e ++ 2#3 ++ g ++ 1#6 ++ fmt ++ vd ++ va ++ sty)
  | .qmax g va => some (BitVec.ofBool e ++ 2#3 ++ g ++ 672#14 ++ va ++ 0#5)
  | .qcvt g vd va => some (BitVec.ofBool e ++ 2#3 ++ g ++ 29#9 ++ vd ++ va ++ 0#5)
  | .vrcp g fmt vd va => some (BitVec.ofBool e ++ 2#3 ++ g ++ 4#6 ++ fmt ++ vd ++ va ++ 0#5)
  | .vrsqrt g fmt vd va => some (BitVec.ofBool e ++ 2#3 ++ g ++ 5#6 ++ fmt ++ vd ++ va ++ 0#5)
  | .vsqrt g fmt vd va => some (BitVec.ofBool e ++ 2#3 ++ g ++ 6#6 ++ fmt ++ vd ++ va ++ 0#5)
  | .vdiv g fmt vd va vb => some (BitVec.ofBool e ++ 2#3 ++ g ++ 7#6 ++ fmt ++ vd ++ va ++ vb)
  | .vexp2 g fmt vd va => some (BitVec.ofBool e ++ 2#3 ++ g ++ 8#6 ++ fmt ++ vd ++ va ++ 0#5)
  | .vlog2 g fmt vd va => some (BitVec.ofBool e ++ 2#3 ++ g ++ 9#6 ++ fmt ++ vd ++ va ++ 0#5)
  | .vexp g fmt vd va => some (BitVec.ofBool e ++ 2#3 ++ g ++ 10#6 ++ fmt ++ vd ++ va ++ 0#5)
  | .vlog g fmt vd va => some (BitVec.ofBool e ++ 2#3 ++ g ++ 11#6 ++ fmt ++ vd ++ va ++ 0#5)
  | .vsin g fmt vd va => some (BitVec.ofBool e ++ 2#3 ++ g ++ 12#6 ++ fmt ++ vd ++ va ++ 0#5)
  | .vcos g fmt vd va => some (BitVec.ofBool e ++ 2#3 ++ g ++ 13#6 ++ fmt ++ vd ++ va ++ 0#5)
  | .vtanh g fmt vd va => some (BitVec.ofBool e ++ 2#3 ++ g ++ 14#6 ++ fmt ++ vd ++ va ++ 0#5)
  | .vsigm g fmt vd va => some (BitVec.ofBool e ++ 2#3 ++ g ++ 15#6 ++ fmt ++ vd ++ va ++ 0#5)
  | .verf g fmt vd va => some (BitVec.ofBool e ++ 2#3 ++ g ++ 16#6 ++ fmt ++ vd ++ va ++ 0#5)
  | .vrint g fmt vd va => some (BitVec.ofBool e ++ 2#3 ++ g ++ 17#6 ++ fmt ++ vd ++ va ++ 0#5)
  | .vscl g fmt vd va vb => some (BitVec.ofBool e ++ 2#3 ++ g ++ 18#6 ++ fmt ++ vd ++ va ++ vb)
  | .mload g k tile => some (BitVec.ofBool e ++ 3#3 ++ g ++ 0#4 ++ k ++ tile ++ 0#9)
  | .mswap g k => some (BitVec.ofBool e ++ 3#3 ++ g ++ 1#4 ++ k ++ 0#15)
  | .mstream g k tile => some (BitVec.ofBool e ++ 3#3 ++ g ++ 2#4 ++ k ++ tile ++ 0#9)
  | .mstreamz g k tile => some (BitVec.ofBool e ++ 3#3 ++ g ++ 3#4 ++ k ++ tile ++ 0#9)
  | .mstore g k tile => some (BitVec.ofBool e ++ 3#3 ++ g ++ 4#4 ++ k ++ tile ++ 0#9)
  | .mzero g k => some (BitVec.ofBool e ++ 3#3 ++ g ++ 5#4 ++ k ++ 0#15)
  | .mscaleW g k tile => some (BitVec.ofBool e ++ 3#3 ++ g ++ 6#4 ++ k ++ tile ++ 0#9)
  | .mscaleA g k tile => some (BitVec.ofBool e ++ 3#3 ++ g ++ 6#4 ++ k ++ tile ++ 128#9)
  | .mread g k vd => some (BitVec.ofBool e ++ 3#3 ++ g ++ 7#4 ++ k ++ 0#6 ++ vd ++ 0#4)
  | .mwrite g k va => some (BitVec.ofBool e ++ 3#3 ++ g ++ 8#4 ++ k ++ 0#6 ++ va ++ 0#4)
  | .mdrain g k => some (BitVec.ofBool e ++ 3#3 ++ g ++ 9#4 ++ k ++ 0#15)
  | .ldV slot g reg base off => some (BitVec.ofBool e ++ 2#2 ++ BitVec.ofBool slot ++ g ++ 0#6 ++ reg ++ base ++ off)
  | .stV slot g reg base off => some (BitVec.ofBool e ++ 2#2 ++ BitVec.ofBool slot ++ g ++ 1#6 ++ reg ++ base ++ off)
  | .stVF32 slot g reg base off => some (BitVec.ofBool e ++ 2#2 ++ BitVec.ofBool slot ++ g ++ 2#6 ++ reg ++ base ++ off)
  | .stVF16 slot g reg base off => some (BitVec.ofBool e ++ 2#2 ++ BitVec.ofBool slot ++ g ++ 3#6 ++ reg ++ base ++ off)
  | .stVBf16 slot g reg base off => some (BitVec.ofBool e ++ 2#2 ++ BitVec.ofBool slot ++ g ++ 4#6 ++ reg ++ base ++ off)
  | .stVE4m3 slot g reg base off => some (BitVec.ofBool e ++ 2#2 ++ BitVec.ofBool slot ++ g ++ 5#6 ++ reg ++ base ++ off)
  | .stVE5m2 slot g reg base off => some (BitVec.ofBool e ++ 2#2 ++ BitVec.ofBool slot ++ g ++ 6#6 ++ reg ++ base ++ off)
  | .ldP slot g reg base off => some (BitVec.ofBool e ++ 2#2 ++ BitVec.ofBool slot ++ g ++ 8#6 ++ reg ++ base ++ off)
  | .stP slot g reg base off => some (BitVec.ofBool e ++ 2#2 ++ BitVec.ofBool slot ++ g ++ 9#6 ++ reg ++ base ++ off)
  | .vspill slot g reg base off => some (BitVec.ofBool e ++ 2#2 ++ BitVec.ofBool slot ++ g ++ 10#6 ++ reg ++ base ++ off)
  | .vfill slot g reg base off => some (BitVec.ofBool e ++ 2#2 ++ BitVec.ofBool slot ++ g ++ 11#6 ++ reg ++ base ++ off)
  | .ldVb slot g reg base off => some (BitVec.ofBool e ++ 2#2 ++ BitVec.ofBool slot ++ g ++ 12#6 ++ reg ++ base ++ off)
  | .wnCopy g k => some (BitVec.ofBool e ++ 5#3 ++ g ++ 32#6 ++ k ++ 0#13)
  | .wnGather g k => some (BitVec.ofBool e ++ 5#3 ++ g ++ 33#6 ++ k ++ 0#13)
  | .wnScatter g k => some (BitVec.ofBool e ++ 5#3 ++ g ++ 34#6 ++ k ++ 0#13)
  | .wnDecode g k => some (BitVec.ofBool e ++ 5#3 ++ g ++ 35#6 ++ k ++ 0#13)
  | .wnEncode g k => some (BitVec.ofBool e ++ 5#3 ++ g ++ 36#6 ++ k ++ 0#13)
  | .wnExpand g k => some (BitVec.ofBool e ++ 5#3 ++ g ++ 37#6 ++ k ++ 0#13)
  | .wnFlush g k => some (BitVec.ofBool e ++ 5#3 ++ g ++ 38#6 ++ k ++ 0#13)
  | .wnFar g k sd => some (BitVec.ofBool e ++ 5#3 ++ g ++ 39#6 ++ k ++ sd ++ 0#8)
  | .vspillM g k vfirst vlast => some (BitVec.ofBool e ++ 5#3 ++ g ++ 40#6 ++ k ++ vfirst ++ 0#3 ++ vlast)
  | .vfillM g k vfirst vlast => some (BitVec.ofBool e ++ 5#3 ++ g ++ 41#6 ++ k ++ vfirst ++ 0#3 ++ vlast)
  | .fxLd g k => some (BitVec.ofBool e ++ 5#3 ++ g ++ 48#6 ++ k ++ 0#13)
  | .fxSt g k => some (BitVec.ofBool e ++ 5#3 ++ g ++ 49#6 ++ k ++ 0#13)
  | .fxAdd g k ty => some (BitVec.ofBool e ++ 5#3 ++ g ++ 50#6 ++ k ++ ty ++ 0#8)
  | .fxMin g k ty => some (BitVec.ofBool e ++ 5#3 ++ g ++ 51#6 ++ k ++ ty ++ 0#8)
  | .fxMax g k ty => some (BitVec.ofBool e ++ 5#3 ++ g ++ 52#6 ++ k ++ ty ++ 0#8)
  | .fxSwap g k ty => some (BitVec.ofBool e ++ 5#3 ++ g ++ 53#6 ++ k ++ ty ++ 0#8)
  | .fxCas g k ty => some (BitVec.ofBool e ++ 5#3 ++ g ++ 54#6 ++ k ++ ty ++ 0#8)
  | .fxAnd g k ty => some (BitVec.ofBool e ++ 5#3 ++ g ++ 55#6 ++ k ++ ty ++ 0#8)
  | .fxOr g k ty => some (BitVec.ofBool e ++ 5#3 ++ g ++ 56#6 ++ k ++ ty ++ 0#8)
  | .fxFlush g k => some (BitVec.ofBool e ++ 5#3 ++ g ++ 57#6 ++ k ++ 0#13)
  | .fxFence g k vd scope => some (BitVec.ofBool e ++ 5#3 ++ g ++ 58#6 ++ k ++ vd ++ 0#5 ++ scope)
  | .fxSdec g k => some (BitVec.ofBool e ++ 5#3 ++ g ++ 59#6 ++ k ++ 0#13)
  | _ => none

/-- Decodes one word; E is not looked at (R66-R93). -/
def decodeWord (w : BitVec 32) : Except DecodeError Instr :=
  if 6 ≤ (fld w 28 3).toNat then .error .reservedClass else
  match wordCandidate w with
  | none => .error .undefinedOp
  | some cand =>
    if encode (w.getLsbD 31) cand != some w then .error .reservedField
    else if cand.wf then .ok cand else .error .illFormedOperand

/-- The instruction that the decoder reads from a word whose bits are `w`, numbered as spec/opcode_table.json numbers
them. Every instruction with an encoding there is one 32-bit word (R66). -/
def decodeTableWord (nbits w : Nat) : Option Instr :=
  if nbits ≤ 32 then
    match decodeWord (BitVec.ofNat 32 w) with
    | .ok cand => some cand
    | .error _ => none
  else none

/-! ### Action primitives (R274-R278) -/

/-- Bits lo + n - 1 : lo of a primitive word. -/
def pfld (w : BitVec 64) (lo n : Nat) : BitVec n := w.extractLsb' lo n

/-- A one-bit field. -/
def bit1 (b : Bool) : BitVec 1 := BitVec.ofBool b

/-- The 64-bit word of an action primitive: OP, L, DOFF, DW, SOFF, SW, D, X, five zeros and IMM (R274). The other
instructions have no such word (R94). -/
def encodePrim : Instr → Option (BitVec 64)
  | .actNop l => some (0x00#6 ++ bit1 l ++ 0#57)
  | .actSet l doff dw d imm => some (0x01#6 ++ bit1 l ++ doff ++ dw ++ 0#9 ++ bit1 d ++ 0#6 ++ imm)
  | .actCopy l doff dw soff sw => some (0x02#6 ++ bit1 l ++ doff ++ dw ++ soff ++ sw ++ 0#39)
  | .actAdd l doff dw d imm => some (0x03#6 ++ bit1 l ++ doff ++ dw ++ 0#9 ++ bit1 d ++ 0#6 ++ imm)
  | .actHash l doff dw fmask => some (0x04#6 ++ bit1 l ++ doff ++ dw ++ 0#16 ++ fmask)
  | .actRegAdd l doff dw soff sw d x wb base =>
    some (0x05#6 ++ bit1 l ++ doff ++ dw ++ soff ++ sw ++ bit1 d ++ bit1 x ++ 0#5 ++ bit1 wb ++ 0#18 ++ base)
  | .actRegMax l doff dw soff sw d x wb base =>
    some (0x06#6 ++ bit1 l ++ doff ++ dw ++ soff ++ sw ++ bit1 d ++ bit1 x ++ 0#5 ++ bit1 wb ++ 0#18 ++ base)
  | .actCount l soff sw x base => some (0x07#6 ++ bit1 l ++ 0#9 ++ soff ++ sw ++ 0#1 ++ bit1 x ++ 0#24 ++ base)
  | .actMark l bits => some (0x08#6 ++ bit1 l ++ 0#49 ++ bits)
  | .actFwd l soff x peer port =>
    some (0x10#6 ++ bit1 l ++ 0#9 ++ soff ++ 0#3 ++ bit1 x ++ 0#29 ++ bit1 peer ++ 0#1 ++ port)
  | .actDrop l code => some (0x11#6 ++ bit1 l ++ 0#49 ++ code)
  | .actRoute l doff soff sw base => some (0x12#6 ++ bit1 l ++ doff ++ 3#2 ++ soff ++ sw ++ 0#23 ++ base)
  | .actAbsorb l soff sw x core tile off =>
    some (0x18#6 ++ bit1 l ++ 0#9 ++ soff ++ sw ++ 0#1 ++ bit1 x ++ 0#5 ++ core ++ tile ++ 0#7 ++ off)
  | .actMirror l soff sw x core tile off =>
    some (0x19#6 ++ bit1 l ++ 0#9 ++ soff ++ sw ++ 0#1 ++ bit1 x ++ 0#5 ++ core ++ tile ++ 0#7 ++ off)
  | .actCribAdd l soff sw x core tile off =>
    some (0x1A#6 ++ bit1 l ++ 0#9 ++ soff ++ sw ++ 0#1 ++ bit1 x ++ 0#5 ++ core ++ tile ++ 0#7 ++ off)
  | .actCribBump l core tile num => some (0x1B#6 ++ bit1 l ++ 0#25 ++ core ++ tile ++ 0#6 ++ num)
  | .actSigdec l idx num => some (0x1C#6 ++ bit1 l ++ 0#25 ++ num ++ idx)
  | .actMemop l => some (0x20#6 ++ bit1 l ++ 0#57)
  | _ => none

/-- The primitive that a word's OP names, with its fields (R274-R278). -/
def primCandidate (w : BitVec 64) : Option Instr :=
  let l := w.getLsbD 57
  let doff := pfld w 50 7
  let dw := pfld w 48 2
  let soff := pfld w 41 7
  let sw := pfld w 39 2
  let d := w.getLsbD 38
  let x := w.getLsbD 37
  match pfld w 58 6 with
  | 0x00#6 => some (.actNop l)
  | 0x01#6 => some (.actSet l doff dw d (pfld w 0 32))
  | 0x02#6 => some (.actCopy l doff dw soff sw)
  | 0x03#6 => some (.actAdd l doff dw d (pfld w 0 32))
  | 0x04#6 => some (.actHash l doff dw (pfld w 0 32))
  | 0x05#6 => some (.actRegAdd l doff dw soff sw d x (w.getLsbD 31) (pfld w 0 13))
  | 0x06#6 => some (.actRegMax l doff dw soff sw d x (w.getLsbD 31) (pfld w 0 13))
  | 0x07#6 => some (.actCount l soff sw x (pfld w 0 13))
  | 0x08#6 => some (.actMark l (pfld w 0 8))
  | 0x10#6 => some (.actFwd l soff x (w.getLsbD 7) (pfld w 0 6))
  | 0x11#6 => some (.actDrop l (pfld w 0 8))
  | 0x12#6 => some (.actRoute l doff soff sw (pfld w 0 16))
  | 0x18#6 => some (.actAbsorb l soff sw x (pfld w 28 4) (pfld w 22 6) (pfld w 0 15))
  | 0x19#6 => some (.actMirror l soff sw x (pfld w 28 4) (pfld w 22 6) (pfld w 0 15))
  | 0x1A#6 => some (.actCribAdd l soff sw x (pfld w 28 4) (pfld w 22 6) (pfld w 0 15))
  | 0x1B#6 => some (.actCribBump l (pfld w 28 4) (pfld w 22 6) (pfld w 0 16))
  | 0x1C#6 => some (.actSigdec l (pfld w 0 8) (pfld w 8 24))
  | 0x20#6 => some (.actMemop l)
  | _ => none

/-- Decodes a primitive word; a word that is undefined by R275 is refused by name. That `act.memop` stands in no tenant
program is checked where a program is loaded or run. -/
def decodePrim (w : BitVec 64) : Except DecodeError Instr :=
  match primCandidate w with
  | none => .error .undefinedOp
  | some cand =>
    if encodePrim cand != some w then .error .reservedField
    else if cand.wf then .ok cand else .error .illFormedOperand

end Sys2Proof
end

