-- ==== Sys2Proof/Config.lean ====
section
/-! DEFINITION. What the spec leaves open and the model leaves free: constants without a body, so that no proof can know
their values (assumption log entries 5 to 16). The figures the spec fixes stand with the rules that use them. -/
namespace Sys2Proof.Config

/-- A free bit vector: the `n`-th value the model draws where the spec states an effect but no value (log entry 5). -/
opaque freeBits (w n : Nat) : BitVec w

/-- A free choice between two outcomes the spec both allows (log entry 6). -/
opaque freeChoice (n : Nat) : Bool

/-- What a readout brings to the scan window (R420): by readout and by the position in its sequence. -/
opaque scanBits (readout position : Nat) : BitVec 64

/-- Which of the translations that the spec allows for a page an access uses (log entry 16). -/
opaque translationChoice (n page : Nat) : Nat

/-- The code and tail of a special function's result where the interval evaluation of Machine/Special.lean does not
separate two neighbouring results within its fuel (log entry 7): by function number, format number, code and tail. -/
opaque specialFallback (f fmt code tail : Nat) : Nat × Nat

/-- Which native instruction set the device has, as a number. -/
opaque nativeSet : Nat

/-- The device hash, which names the native instruction set (R368, log entry 13): any value but 0, which names no device. -/
def deviceHash : BitVec 64 := BitVec.ofNat 64 (nativeSet % (2 ^ 64 - 1) + 1)

end Sys2Proof.Config
end

