-- ==== Sys2Proof/Machine/Num.lean ====
section
/-! DEFINITION. Number formats and carried precision (spec/02_number_formats.md): the formats of R43 and R44, the
carried value (R46), rounding to odd into carried precision (R48, R49), final rounding (R50, R51), conversion to
integers (R59), comparison (R61) and the exact operations under them. Codes and tails are held as numbers while they are
computed with. A finite value is a sign, a magnitude and a power of two, so every operation is exact until it is
narrowed. -/
namespace Sys2Proof.Machine

/-- The floating formats of R43. -/
inductive FFmt where
  | f32 | f16 | bf16 | e4m3 | e5m2 | e2m1
  deriving DecidableEq, Repr

/-- The width of a format in bits (R43). -/
def FFmt.width : FFmt → Nat
  | .f32 => 32 | .f16 => 16 | .bf16 => 16 | .e4m3 => 8 | .e5m2 => 8 | .e2m1 => 4

/-- The number of fraction bits of a format (R43). -/
def FFmt.fbits : FFmt → Nat
  | .f32 => 23 | .f16 => 10 | .bf16 => 7 | .e4m3 => 3 | .e5m2 => 2 | .e2m1 => 1

/-- The precision p of a format, counting the implicit bit (R43). -/
def FFmt.prec (f : FFmt) : Nat := f.fbits + 1

/-- The number of exponent bits of a format (R43). -/
def FFmt.ebits (f : FFmt) : Nat := f.width - 1 - f.fbits

/-- The exponent bias of a format (R43). -/
def FFmt.bias : FFmt → Nat
  | .f32 => 127 | .f16 => 15 | .bf16 => 127 | .e4m3 => 7 | .e5m2 => 15 | .e2m1 => 1

/-- The exponent of the smallest normal value of a format (R48). -/
def FFmt.emin (f : FFmt) : Int := 1 - (f.bias : Int)

/-- Whether the format has infinities (R44). -/
def FFmt.hasInf : FFmt → Bool
  | .e4m3 => false | .e2m1 => false | _ => true

/-- The canonical NaN of a format (R44). E2M1 has none and no rule rounds a NaN into it (R48); the code 0000 stands
there. -/
def FFmt.nanCode : FFmt → Nat
  | .f32 => 0x7FC00000 | .f16 => 0x7E00 | .bf16 => 0x7FC0 | .e4m3 => 0x7F | .e5m2 => 0x7E | .e2m1 => 0

/-- The code of the largest finite value of a format (R43). -/
def FFmt.maxCode : FFmt → Nat
  | .f32 => 0x7F7FFFFF | .f16 => 0x7BFF | .bf16 => 0x7F7F | .e4m3 => 0x7E | .e5m2 => 0x7B | .e2m1 => 7

/-- The code of plus infinity (R44), for the formats that have it. -/
def FFmt.infCode : FFmt → Nat
  | .f32 => 0x7F800000 | .f16 => 0x7C00 | .bf16 => 0x7F80 | .e5m2 => 0x7C | .e4m3 => 0x7E | .e2m1 => 7

/-- The sign bit of a format, in place. -/
def FFmt.signBit (f : FFmt) (neg : Bool) : Nat := if neg then 2 ^ (f.width - 1) else 0

/-- A value: NaN (all alike, R44), an infinity, or the finite number (-1)^neg × mag × 2^exp; zero has a sign. -/
inductive FVal where
  | nan
  | inf (neg : Bool)
  | fin (neg : Bool) (mag : Nat) (exp : Int)
  deriving DecidableEq, Repr

/-- The exception flags of R28: bit 4 NV, 3 DZ, 2 OF, 1 UF, 0 NX. -/
abbrev Flags := BitVec 5

/-- Invalid operation. -/
def flagNV : Flags := 16
/-- Division by zero. -/
def flagDZ : Flags := 8
/-- Overflow. -/
def flagOF : Flags := 4
/-- Underflow. -/
def flagUF : Flags := 2
/-- Inexact. -/
def flagNX : Flags := 1

/-- The store rounding modes of RMODE (R27). -/
inductive RMode where
  | rne | rtz | rdn | rup | rna | rneEf
  deriving DecidableEq, Repr

/-- RMODE.MODE as a rounding mode; 110 and 111 are illegal (R27). -/
def RMode.ofBits (b : BitVec 3) : Option RMode :=
  match b with
  | 0#3 => some .rne | 1#3 => some .rtz | 2#3 => some .rdn | 3#3 => some .rup | 4#3 => some .rna | 5#3 => some .rneEf
  | _ => none

/-- The mode of one single-value rounding: RNE-EF acts as RNE (R53, R59). -/
def RMode.single : RMode → RMode
  | .rneEf => .rne
  | m => m

/-- A register element: its stored bits and its two tail bits (R14). -/
structure Elem where
  code : Nat
  tail : Nat
  deriving DecidableEq, Repr

/-- The carried value of an element of format `f` (R43, R44, R46). -/
def carried (f : FFmt) (x : Elem) : FVal :=
  let neg := x.code.testBit (f.width - 1)
  let e := x.code / 2 ^ f.fbits % 2 ^ f.ebits
  let frac := x.code % 2 ^ f.fbits
  let tail := x.tail % 4
  let allOnes := e == 2 ^ f.ebits - 1
  if allOnes && f.hasInf then (if frac == 0 then .inf neg else .nan)
  else if allOnes && f == .e4m3 && frac == 7 then .nan
  else if e == 0 then .fin neg (frac * 4 + tail) (f.emin - f.fbits - 2)
  else .fin neg ((2 ^ f.fbits + frac) * 4 + tail) ((e : Int) - f.bias - f.fbits - 2)

/-- `mag × 2^exp` in units of `2^q`, rounded down, with whether anything is left over. -/
def scaleTo (mag : Nat) (exp q : Int) : Nat × Bool :=
  if q ≤ exp then (mag * 2 ^ (exp - q).toNat, false)
  else
    let d := 2 ^ (q - exp).toNat
    (mag / d, mag % d != 0)

/-- The floor of the base-two logarithm of a non-zero `mag × 2^exp`. -/
def log2Floor (mag : Nat) (exp : Int) : Int := (mag.log2 : Int) + exp

/-- Rounds a non-zero magnitude to odd at the last place `2^q` (R48): any part left over sets the last bit. -/
def oddAt (mag : Nat) (exp : Int) (sticky : Bool) (q : Int) : Nat :=
  let r := scaleTo mag exp q
  if (r.2 || sticky) && r.1 % 2 == 0 then r.1 + 1 else r.1

/-- The stored code of `sig` units in the last place of exponent `e`: normal when `sig` has the full precision. -/
def packCode (f : FFmt) (neg : Bool) (e : Int) (sig : Nat) : Nat :=
  if sig < 2 ^ f.fbits then f.signBit neg + sig
  else if sig < 2 ^ f.prec then f.signBit neg + (e + f.bias).toNat * 2 ^ f.fbits + (sig - 2 ^ f.fbits)
  else f.signBit neg + (e + 1 + f.bias).toNat * 2 ^ f.fbits + (sig / 2 - 2 ^ f.fbits)

/-- carry of a finite magnitude of R48; `sticky` says that the exact magnitude lies strictly above `mag × 2^exp` and
below the next unit. -/
def carryFin (f : FFmt) (neg : Bool) (mag : Nat) (exp : Int) (sticky : Bool) : Elem :=
  if mag == 0 && !sticky then ⟨f.signBit neg, 0⟩ else
  let e := max (log2Floor mag exp) f.emin
  let n := oddAt mag exp sticky (e - f.prec - 1)
  let code := packCode f false e (n / 4)
  if code > f.maxCode then ⟨f.signBit neg + f.maxCode, 3⟩
  else ⟨f.signBit neg + code, n % 4⟩

/-- carry(x, T) of R48. -/
def carry (f : FFmt) : FVal → Elem
  | .nan => ⟨f.nanCode, 0⟩
  | .inf neg => if f.hasInf then ⟨f.signBit neg + f.infCode, 0⟩ else ⟨f.signBit neg + f.maxCode, 3⟩
  | .fin neg mag exp => carryFin f neg mag exp false

/-- Whether a magnitude of `n` units with the remainder `rem` of `den` is rounded up in magnitude under `m`
(R50). -/
def roundsUp (m : RMode) (neg : Bool) (n rem den : Nat) : Bool :=
  match m with
  | .rne | .rneEf => rem * 2 > den || (rem * 2 == den && n % 2 == 1)
  | .rna => rem * 2 ≥ den
  | .rtz => false
  | .rdn => neg && rem != 0
  | .rup => !neg && rem != 0

/-- The result of an overflowing final rounding (R51). -/
def overflowCode (f : FFmt) (m : RMode) (neg : Bool) : Nat :=
  f.signBit neg +
    (if !f.hasInf then f.maxCode
     else match m with
       | .rtz => f.maxCode
       | .rdn => if neg then f.infCode else f.maxCode
       | .rup => if neg then f.maxCode else f.infCode
       | _ => f.infCode)

/-- Units of `2^q` in a magnitude, the remainder and the denominator it is over. -/
def splitAt (mag : Nat) (exp q : Int) : Nat × Nat × Nat :=
  if q ≤ exp then (mag * 2 ^ (exp - q).toNat, 0, 1)
  else
    let d := 2 ^ (q - exp).toNat
    (mag / d, mag % d, d)

/-- final(x, fmt, mode) of R50 with the flags it sets. Where a conversion has saturated to maxc of F itself, R50 on that
carried value can raise NX alone (RTZ) where R54 promises the flags of the original value, OF and NX: the model follows
the procedure of R50 (DESIGN CHOICE, log entry 72). -/
def final (f : FFmt) (m : RMode) : FVal → Nat × Flags
  | .nan => (f.nanCode, 0)
  | .inf neg => if f.hasInf then (f.signBit neg + f.infCode, 0) else (f.signBit neg + f.maxCode, flagOF ||| flagNX)
  | .fin neg mag exp =>
    if mag == 0 then (f.signBit neg, 0) else
    let fl := log2Floor mag exp
    let e := max fl f.emin
    let s := splitAt mag exp (e - f.fbits)
    let n := if roundsUp m neg s.1 s.2.1 s.2.2 then s.1 + 1 else s.1
    let inexact := s.2.1 != 0
    let code := packCode f false e n
    if code > f.maxCode then (overflowCode f m neg, flagOF ||| flagNX)
    else (f.signBit neg + code,
      (if inexact then flagNX else 0) ||| (if inexact && fl < f.emin then flagUF else 0))

/-- Whether final of a finite value overflows (the residual of R53 and R57 is then 0). -/
def finalOverflows (f : FFmt) (m : RMode) (x : FVal) : Bool := ((final f m x).2 &&& flagOF) != 0

/-- The value of a code of format `f` (tail 00). -/
def valueOf (f : FFmt) (code : Nat) : FVal := carried f ⟨code, 0⟩

/-! ### Exact operations (R49, R118) -/

/-- The sign of a value. -/
def FVal.neg? : FVal → Bool
  | .nan => false
  | .inf n => n
  | .fin n _ _ => n

/-- A value with its sign inverted; NaN stays NaN. -/
def FVal.negate : FVal → FVal
  | .nan => .nan
  | .inf n => .inf (!n)
  | .fin n m e => .fin (!n) m e

/-- A finite value as a signed number of units of `2^q`, `q` at most its exponent. -/
def signedUnits (neg : Bool) (mag : Nat) (exp q : Int) : Int :=
  let u : Int := (mag * 2 ^ (exp - q).toNat : Nat)
  if neg then -u else u

/-- The exact sum of two finite values; an exact zero is −0 only when both addends are −0 (R49). -/
def addFin (n1 : Bool) (m1 : Nat) (e1 : Int) (n2 : Bool) (m2 : Nat) (e2 : Int) : FVal :=
  let q := min e1 e2
  let t := signedUnits n1 m1 e1 q + signedUnits n2 m2 e2 q
  if t == 0 then .fin (m1 == 0 && m2 == 0 && n1 && n2) 0 q
  else .fin (t < 0) t.natAbs q

/-- The exact sum with the flag NV of ∞ − ∞ (R64). -/
def FVal.add : FVal → FVal → FVal × Flags
  | .nan, _ => (.nan, 0)
  | _, .nan => (.nan, 0)
  | .inf a, .inf b => if a == b then (.inf a, 0) else (.nan, flagNV)
  | .inf a, _ => (.inf a, 0)
  | _, .inf b => (.inf b, 0)
  | .fin n1 m1 e1, .fin n2 m2 e2 => (addFin n1 m1 e1 n2 m2 e2, 0)

/-- The exact difference. -/
def FVal.sub (x y : FVal) : FVal × Flags := x.add y.negate

/-- The exact product with the flag NV of 0 × ∞ (R64). -/
def FVal.mul : FVal → FVal → FVal × Flags
  | .nan, _ => (.nan, 0)
  | _, .nan => (.nan, 0)
  | .inf a, .inf b => (.inf (a != b), 0)
  | .inf a, .fin b m _ => if m == 0 then (.nan, flagNV) else (.inf (a != b), 0)
  | .fin a m _, .inf b => if m == 0 then (.nan, flagNV) else (.inf (a != b), 0)
  | .fin n1 m1 e1, .fin n2 m2 e2 => (.fin (n1 != n2) (m1 * m2) (e1 + e2), 0)

/-- z + x × y with one rounding still to come (R118): 0 × ∞ raises NV whatever the addend is. -/
def FVal.fma (z x y : FVal) : FVal × Flags :=
  let p := x.mul y
  let r := z.add p.1
  (r.1, p.2 ||| r.2)

/-- carry(x / y, T) with its flags (R118, R64). -/
def fdivElem (f : FFmt) (x y : FVal) : Elem × Flags :=
  match x, y with
  | .nan, _ => (carry f .nan, 0)
  | _, .nan => (carry f .nan, 0)
  | .inf _, .inf _ => (carry f .nan, flagNV)
  | .inf a, .fin b _ _ => (carry f (.inf (a != b)), 0)
  | .fin a _ _, .inf b => (carry f (.fin (a != b) 0 0), 0)
  | .fin n1 m1 e1, .fin n2 m2 e2 =>
    if m2 == 0 then
      if m1 == 0 then (carry f .nan, flagNV) else (carry f (.inf (n1 != n2)), flagDZ)
    else if m1 == 0 then (carry f (.fin (n1 != n2) 0 0), 0)
    else
      let k := f.prec + 5 + m2.log2
      let q := m1 * 2 ^ k / m2
      (carryFin f (n1 != n2) q (e1 - e2 - k) (m1 * 2 ^ k % m2 != 0), 0)

/-- The integer square root, one result bit a step: `bits` bounds the result. -/
def isqrtAux (a : Nat) : Nat → Nat → Nat
  | 0, r => r
  | bits + 1, r =>
    let c := r + 2 ^ bits
    if c * c ≤ a then isqrtAux a bits c else isqrtAux a bits r

/-- The integer square root. -/
def isqrt (a : Nat) : Nat := isqrtAux a (a.log2 / 2 + 1) 0

/-- carry(sqrt(x), T) with its flags (R118): −0 gives −0, a negative carried value gives NaN and raises NV. -/
def fsqrtElem (f : FFmt) : FVal → Elem × Flags
  | .nan => (carry f .nan, 0)
  | .inf neg => if neg then (carry f .nan, flagNV) else (carry f (.inf false), 0)
  | .fin neg mag exp =>
    if mag == 0 then (carry f (.fin neg 0 0), 0)
    else if neg then (carry f .nan, flagNV)
    else
      let k := 2 * (f.prec + 5)
      let k := if (exp - k) % 2 == 0 then k else k + 1
      let a := mag * 2 ^ k
      let r := isqrt a
      (carryFin f false r ((exp - k) / 2) (r * r != a), 0)

/-! ### Comparison (R61) -/

/-- The order of two values that are not NaN: −1, 0 or 1; +0 and −0 are equal. -/
def FVal.cmp (x y : FVal) : Int :=
  match x, y with
  | .inf a, .inf b => if a == b then 0 else if a then -1 else 1
  | .inf a, _ => if a then -1 else 1
  | _, .inf b => if b then 1 else -1
  | .fin n1 m1 e1, .fin n2 m2 e2 =>
    let q := min e1 e2
    (signedUnits n1 m1 e1 q - signedUnits n2 m2 e2 q).sign
  | _, _ => 0

/-- Whether a value is NaN. -/
def FVal.isNan : FVal → Bool
  | .nan => true
  | _ => false

/-- Whether a value is an infinity. -/
def FVal.isInf : FVal → Bool
  | .inf _ => true
  | _ => false

/-- Whether a value is a zero, of either sign. -/
def FVal.isZero : FVal → Bool
  | .fin _ m _ => m == 0
  | _ => false

/-- x = y; false with a NaN (R61). -/
def FVal.feq (x y : FVal) : Bool := !x.isNan && !y.isNan && x.cmp y == 0
/-- x < y; false with a NaN (R61). -/
def FVal.flt (x y : FVal) : Bool := !x.isNan && !y.isNan && decide (x.cmp y < 0)
/-- x ≤ y; false with a NaN (R61). -/
def FVal.fle (x y : FVal) : Bool := !x.isNan && !y.isNan && decide (x.cmp y ≤ 0)

/-- x before y where −0 is less than +0 (R119). -/
def FVal.totalLt (x y : FVal) : Bool :=
  x.flt y || (x.isZero && y.isZero && x.neg? && !y.neg?)

/-- The smaller (or larger) of two elements, written unchanged with its tail (R119): one NaN gives the other operand,
two give the canonical NaN, equal carried values give the first. -/
def fminmaxElem (f : FFmt) (isMax : Bool) (a b : Elem) : Elem :=
  let x := carried f a
  let y := carried f b
  if x.isNan && y.isNan then ⟨f.nanCode, 0⟩
  else if x.isNan then b
  else if y.isNan then a
  else if isMax then (if x.totalLt y then b else a)
  else (if y.totalLt x then b else a)

/-! ### Conversions (R58, R59) -/

/-- The exact value of an integer; zero is +0. -/
def FVal.ofInt (n : Int) : FVal := .fin (n < 0) n.natAbs 0

/-- A carried value rounded to an integer under `m` (R59): the integer and whether it is exact. -/
def roundInt (m : RMode) (neg : Bool) (mag : Nat) (exp : Int) : Int × Bool :=
  let s := splitAt mag exp 0
  let n := if roundsUp m neg s.1 s.2.1 s.2.2 then s.1 + 1 else s.1
  (if neg then -(n : Int) else n, s.2.1 == 0)

/-- Conversion to an integer between `lo` and `hi` with its flags (R59). -/
def toIntClamp (m : RMode) (lo hi : Int) : FVal → Int × Flags
  | .nan => (0, flagNV)
  | .inf neg => (if neg then lo else hi, 0)
  | .fin neg mag exp =>
    let r := roundInt m.single neg mag exp
    if r.1 < lo then (lo, flagNV)
    else if hi < r.1 then (hi, flagNV)
    else (r.1, if r.2 then 0 else flagNX)

/-- A two's complement reading of the low `w` bits of a number. -/
def toSigned (w n : Nat) : Int :=
  let u := n % 2 ^ w
  if 2 * u < 2 ^ w then u else (u : Int) - 2 ^ w

/-- The low `w` bits of an integer. -/
def ofSigned (w : Nat) (x : Int) : Nat := (x % (2 ^ w : Nat)).toNat

end Sys2Proof.Machine
end

