-- ==== Sys2Proof/Machine/State.lean ====
section
/-! DEFINITION. The state of one HX720 module as plain data: the contexts and cores of spec/01, 03-08, the Sieve pipelines
and cribs of 10 and 11, the Grangers, fault services, Threshers and fabric agents of 12, 13, 15 and 17, memory and the
package of 13 and 16. INVENTORY.md lists every field with its rule and its reset value. Memory is a sparse list of bytes
in one canonical form. -/
namespace Sys2Proof.Machine

/-! ### Registers of a task (spec/01) -/

/-- A scalar register: 64 data bits and a 2-bit tail (R13, R14). -/
structure SVal where
  data : Word
  tail : BitVec 2
  deriving DecidableEq, Repr

/-- A vector register: 512 data bytes and a 256-byte tail plane (R16). -/
structure VVal where
  data : VData
  tail : VTail
  deriving DecidableEq, Repr

/-- A completion token (R24). -/
structure Token where
  count : BitVec 16
  err : Bool
  ecode : BitVec 4
  deriving DecidableEq, Repr

/-- One entry of the quantise latches (R159). -/
structure Latch where
  scale : BitVec 24
  xv : BitVec 8
  oidx : BitVec 5
  nanb : Bool
  deriving DecidableEq, Repr

/-- A physical register that a fixed-latency result or an engine can write: a scalar, a vector register, a predicate
pair, a staging register (bank 0 ms, 1 ws, 2 fs) or the quantise latches. -/
inductive Reg where
  | s (n : BitVec 5)
  | v (n : BitVec 5)
  | p (pair : BitVec 3)
  | stage (bank : BitVec 2) (n : BitVec 3)
  | latch
  deriving DecidableEq, Repr

/-- One register write of a landing result. A vector or predicate write carries the mask of the bits it writes, so
elements that the guard switched off keep their old contents (R138). -/
inductive RegWrite where
  | s (n : BitVec 5) (val : SVal)
  | v (n : BitVec 5) (val mask : VVal)
  | p (pair : BitVec 3) (val mask : PData)
  | stage (bank : BitVec 2) (n : BitVec 3) (val : Word)
  | latches (val : List (Option Latch))
  deriving DecidableEq, Repr

/-- What a granary load does with the bytes it reads (R125, R164). -/
inductive LoadKind where
  /-- `ld.T`: sign- or zero-extended into a scalar (R125). -/
  | scalar (n : BitVec 5) (signed : Bool)
  /-- `ld.v`: 512 bytes into the enabled byte lanes (R164). -/
  | vec (n : BitVec 5) (mask : PData)
  /-- `ld.vb`: 16 bytes into every 16-byte group's enabled lanes (R164). -/
  | bcast (n : BitVec 5) (mask : PData)
  /-- `ld.p`: 64 bytes into a pair (R164). -/
  | pred (pair : BitVec 3) (mask : PData)
  /-- `vfill`: the 768-byte image, when guard lane 0 is 1 (R164). -/
  | fill (n : BitVec 5) (on : Bool)
  deriving DecidableEq, Repr

/-- A granary read that a load of an issued bundle still has to make (R98). -/
structure Load where
  addr : Nat
  len : Nat
  hact : Bool
  kind : LoadKind
  deriving DecidableEq, Repr

/-- A fixed-latency result that has been issued and has not landed (R95): when it was issued and lands, the position of
its word, its destinations, what it writes (filled at the granary access for a load), the flags it raises when it lands
(R28), whether checking was on when it issued (R29), and whether a higher-placed word of its bundle takes its place
(R34). -/
structure Pend where
  issue : Nat
  due : Nat
  pos : Nat
  dests : List Reg
  writes : List RegWrite
  flags : Flags
  checked : Bool
  load : Option Load
  deriving DecidableEq, Repr

/-- One byte to be written, with the mask of its bits that are written (`st.p` writes single bits, R164). -/
structure MaskedByte where
  addr : Nat
  val : Byte
  mask : Byte
  deriving DecidableEq, Repr

/-- A granary write that a store of an issued bundle still has to make (R98): the span it touches (R168), the bytes by
address, and the flags of its
final roundings, raised in the access bc (R125, R165). -/
structure Store where
  issue : Nat
  pos : Nat
  addr : Nat
  len : Nat
  bytes : List MaskedByte
  flags : Flags
  hact : Bool
  deriving DecidableEq, Repr

/-- A write that takes effect from the next bundle in issue order (R20, R26, R203, R210). -/
inductive Deferred where
  /-- `cwr` of a control register (R26). -/
  | creg (index : BitVec 12) (val : Word)
  /-- The rotation of `loop` (R20, R129). -/
  | rotate
  /-- `tkset` (R210). -/
  | tokenSet (k : BitVec 5) (val : BitVec 12)
  /-- `tgive` (R203). -/
  | tileGive (tile : Nat) (owner : BitVec 3)
  deriving DecidableEq, Repr

/-- What the branch bundle just issued decided: its delay bundle is the next to issue (R99). -/
structure Delay where
  taken : Bool
  target : Word
  /-- A `tret` clears HACT from the target bundle onwards (R242). -/
  tret : Bool
  deriving DecidableEq, Repr

/-- Why a bank holds issue until its pending results have landed (R237, R243, R244, R245, R133). -/
inductive Drain where
  /-- A trap waiting for its entry (R237): cause, word position and TVAL. -/
  | trap (cause : BitVec 8) (word : BitVec 4) (tval : Word)
  /-- A synchronous page fault (R243): its cause if refused, the address, KIND of R349, and the position of the word that
  made the access, 0 for a fetch (R235). -/
  | fault (cause : BitVec 8) (addr : Word) (kind : BitVec 3) (word : BitVec 4)
  /-- A `wait` with an engine item held on an unanswered fault (R244). -/
  | heldItem
  /-- A `sig.wait` that suspends (R133): the signal's address and the threshold. -/
  | suspend (addr threshold : Word)
  /-- A switch of banks that waits for the drain (R245). -/
  | switch
  deriving DecidableEq, Repr

/-- What a bank is doing (R243-R245, R130). -/
inductive BankStatus where
  | running
  | draining (why : Drain)
  /-- A synchronous fault is with the fault service (R243), at this address; refused, it raises this cause at this word. -/
  | faultWaiting (cause : BitVec 8) (addr : Word) (kind : BitVec 3) (word : BitVec 4)
  /-- Refused: the next issue raises this cause at this word with TVAL the address (R235, R247). -/
  | refused (cause : BitVec 8) (addr : Word) (word : BitVec 4)
  /-- Waits until none of its engine items is held on a fault (R244). -/
  | heldWaiting
  /-- `sig.wait` (R133). -/
  | suspended (addr threshold : Word)
  /-- The task retires once its engines are done (R130): after `end` (reason 0, with the address of its bundle and, in
  TCAUSE's place, the position of the word), or failed with this record (R240): TEPC, TCAUSE, TVAL and the reason. -/
  | ending (tepc tcause tval : Word) (reason : Nat)
  deriving DecidableEq, Repr

/-- The operations of matrix commands (R180). -/
inductive MOp where
  | mload | mswap | mstream | mstreamz | mstore | mzero | mscaleW | mscaleA | mread | mwrite | mdrain
  deriving DecidableEq, Repr

/-- A matrix command in the queue: what it read when it issued (R180, R181). -/
structure MCmd where
  op : MOp
  bank : Bool
  issue : Nat
  token : BitVec 5
  tile : Nat
  ms : Vector Word 8
  guard : PData
  rmode : BitVec 3
  livecnt : BitVec 16
  reg : BitVec 5
  data : VVal
  /-- The plane tag that an `mstream` will meet (R187). -/
  planeTag : Option (BitVec 5)
  started : Bool
  checked : Bool
  deriving DecidableEq, Repr

/-- The operations of Wain commands (R220). -/
inductive WOp where
  | copy | gather | scatter | decode | encode | expand | flush | far | spillM | fillM
  deriving DecidableEq, Repr

/-- The fault that an engine item is held on (R223, R246): the address, and the kind of access (0 read, 1 write,
2 atomic). -/
structure HeldFault where
  addr : Nat
  kind : BitVec 2
  deriving DecidableEq, Repr

/-- A Wain command in a bank's queue: what it read when it issued, and how far it has come (R221-R223). -/
structure WCmd where
  op : WOp
  issue : Nat
  token : BitVec 5
  ws : Vector Word 8
  rmode : BitVec 3
  enabled : Bool
  regs : List (BitVec 5)
  images : List VVal
  checked : Bool
  started : Bool
  /-- Every item has been run (R222). -/
  done : Bool
  /-- The index of the item to run next (R223). -/
  item : Nat
  held : Option HeldFault
  /-- The first failure's ECODE (R206), 0 while none. -/
  ecode : BitVec 4
  flags : Flags
  /-- Register writes that land at the post (R211). -/
  writes : List RegWrite
  /-- FMT and GEOM of the page that holds VA, once read (R225). -/
  fmt : Option (Nat × Nat)
  /-- The residual that the next element of the row takes under RNE-EF (R53, R225). -/
  res : Option FVal
  /-- The bytes that items have put to a gate window, and its die (R380). -/
  gate : List Byte
  gateDie : Option (Fin 2)
  /-- Every item lies in the window: the push waits to enter the gate queue (R380). -/
  push : Bool
  deriving DecidableEq, Repr

/-- The operations of fabric commands (R445). -/
inductive FOp where
  | ld | st | add | min | max | swap | cas | and | or | flush | fence | sdec
  deriving DecidableEq, Repr

/-- One item of a fabric command (R447): its place in the command, how it stands, when it was sent, the response. -/
inductive ItemState where
  | waiting
  | held (f : HeldFault)
  | sent (since : Nat)
  | done
  | failed (ecode : BitVec 4)
  deriving DecidableEq, Repr

/-- A fabric item (R447, R454): its place in the command's span, its state, its transaction, the peer it went to once
that is known, and the bytes that came back. -/
structure FItem where
  off : Nat
  len : Nat
  state : ItemState
  tx : Nat
  peer : Option (BitVec 12)
  data : List Byte
  deriving DecidableEq, Repr

/-- A fabric command in a bank's queue (R445-R447). -/
structure FCmd where
  op : FOp
  issue : Nat
  token : BitVec 5
  ty : BitVec 5
  fs : Vector Word 8
  rmode : BitVec 3
  enabled : Bool
  reg : BitVec 5
  scope : BitVec 3
  items : List FItem
  /-- The bytes a store reads from the granary in bc t + 2 of its bundle (R448), none before. -/
  data : Option (List Byte)
  /-- For an expert send, the destination read at issue: DEST, or none where the entry is not valid (R395). -/
  dest : Option Word
  flags : Flags
  checked : Bool
  /-- HACT of its bundle, for an error met by its source read (R236). -/
  hact : Bool
  deriving DecidableEq, Repr

/-- An extent of a fixed segment (R339): virtual base, size and physical base, with its leaf attributes, and PERM of the
segment. -/
structure Extent where
  va : Nat
  size : Nat
  leaf : Word
  perm : BitVec 3
  deriving DecidableEq, Repr

/-- A context bank's task (R10). -/
structure Context where
  /-- The Granger's name of the task: its die and its number there (R326). -/
  taskDie : Fin 2
  task : Nat
  /-- The task's kernel, by descriptor address (R334). -/
  kernel : Nat
  s : Vector SVal 32
  v : Vector VVal 32
  p : Vector PData 16
  /-- VBASE, 0-23 (R18). -/
  vbase : Fin 24
  /-- PBASE div 2 (R22). -/
  pbase : Fin 4
  k : Vector Token 32
  ms : Vector Word 8
  ws : Vector Word 8
  fs : Vector Word 8
  rmode : BitVec 3
  fflags : Flags
  chkmode : Bool
  livecnt : BitVec 16
  tvec : Word
  tepc : Word
  tcause : Word
  tval : Word
  tscratch : Word
  partId : BitVec 4
  tindex : BitVec 24
  latches : Vector Latch 4
  hact : Bool
  pfs : BitVec 4096
  locks : List Nat
  pc : Word
  delay : Option Delay
  /-- The delay bundle of a branch that has issued: it was fetched and checked with its branch, and always issues (R99, R100). -/
  delayBundle : List Instr
  /-- The next bundle is the target of a taken branch (R70). -/
  landed : Bool
  /-- Empty bundle cycles still owed to `dly` (R101). -/
  dly : Nat
  status : BankStatus
  pend : List Pend
  stores : List Store
  deferred : List Deferred
  /-- A granary-data error of a core access: the lowest failing address and the HACT of its bundle (R236). -/
  granaryErr : Option (Nat × Bool)
  wain : List WCmd
  fabric : List FCmd
  extents : List Extent
  /-- Hold cycles in a row in `wait` (R245). -/
  waitHold : Nat
  /-- The bank was fault-waiting when it was switched out (R245). -/
  outFaulted : Bool
  /-- The bank was switched out while it held in `wait` (R245). -/
  outWait : Bool
  /-- A bundle of the task has issued since it was placed: it is RUNNING and no longer PLACING (R326). -/
  begun : Bool
  /-- A cancel waits for the next bundle boundary (R327). -/
  cancel : Bool
  /-- The Granger has asked for a pre-emption (R248). -/
  preempt : Bool
  /-- The barrier context of the task's gang (R306). -/
  barrier : Option (Fin 4)
  /-- The generation in which the task has arrived at a `bar` that has not issued yet (R307). -/
  arrived : Option Nat
  deriving DecidableEq, Repr

/-! ### The core (R11) -/

/-- A granary tile (R200): owner, the giver bank of a tile owned by the Wain or by fabric inbound, the Sieve partition
(R296), and the clock since when it is free (R335). The Granger's reservation of a tile (R329) is its owner: a task that is
being placed owns its tiles. -/
structure Tile where
  owner : BitVec 3
  giver : Bool
  part : BitVec 4
  since : Nat
  deriving DecidableEq, Repr

/-- The power state of a granary quarter (R204). -/
inductive Power where
  | awake | waking | gated
  deriving DecidableEq, Repr

/-- A weight plane: 64 columns of 192 bytes and a tag, none while unloaded (R170, R172), and the columns whose last load
failed (R184). -/
structure Plane where
  cols : Vector (BitVec 1536) 64
  tag : Option (BitVec 5)
  bad : List Nat
  deriving DecidableEq, Repr

/-- A plane of 64 × 12 block headers, one 384-bit entry a column (R170). -/
abbrev ScalePlane := Vector (BitVec 384) 64

/-- One accumulator row: 64 FP32 data words and their tails (R170). -/
structure AccRow where
  data : BitVec 2048
  tail : BitVec 128
  deriving DecidableEq, Repr

/-- The matrix engine (R170). The accumulator store lists the rows marked dirty; a row not listed reads +0 with tail
00 and is clean (R172). The activation-scale buffer lists the entries written since launch; the others read
0x7F000000 in each header. -/
structure Matrix where
  /-- The holder bank (R171). -/
  holder : Option Bool
  queue : List MCmd
  active : Plane
  shadow : Plane
  activeScale : ScalePlane
  shadowScale : ScalePlane
  actScale : List (Nat × BitVec 384)
  acc : List (Nat × AccRow)
  /-- Accumulator rows in uncorrectable error (R184, log entry 60). -/
  accBad : List Nat
  deriving DecidableEq, Repr

/-- One row of the instruction store (R230): its 2 KiB of code, tag, the banks that lock it and its last issue. -/
structure IRow where
  addr : Nat
  part : BitVec 4
  code : BitVec 16384
  lockA : Bool
  lockB : Bool
  used : Nat
  /-- The kernels, by descriptor address, whose tasks have had the row fetched or have issued from it (R334, log entry 19). -/
  users : List Nat
  deriving DecidableEq, Repr

/-- A kernel's lease on a core (R334). -/
structure Lease where
  part : BitVec 4
  kernel : Nat
  lastRun : Nat
  deriving DecidableEq, Repr

/-- An entry of the snapshot latch bank (R250): the first physical register, the kind of payload, when it lands counted from
the resume bc U, the position of its word, its age among the entries, what it writes with its lane mask, and whether
checking was on when its word issued (R104). -/
structure LatchEntry where
  reg : BitVec 5
  kind : BitVec 3
  off : BitVec 5
  slot : BitVec 3
  age : BitVec 16
  writes : List RegWrite
  checked : Bool
  deriving DecidableEq, Repr

/-- What the snapshot latch bank holds for one context bank: its entries, the oldest first (R250), and the flag schedule,
one set of flags for each OFF from 1 to 15 (R251). -/
structure Snapshot where
  entries : List LatchEntry
  flags : Vector Flags 15
  deriving DecidableEq, Repr

/-- A core (R11). -/
structure Core where
  /-- CYCLE: bc passed since reset (R123). -/
  bc : Nat
  /-- The bank that issues: false A, true B. -/
  bank : Bool
  /-- Clocks left of a bank switch (R245). -/
  switching : Nat
  /-- Clocks left of a freeze (R102). -/
  freeze : Nat
  /-- The address whose instruction-store row is being filled, if any (R230). -/
  missing : Option Nat
  /-- bc issued since the bank was switched in (R245). -/
  sinceSwitch : Nat
  ctxA : Option Context
  ctxB : Option Context
  /-- The snapshot latch bank (R11, R250), for bank A and bank B. -/
  snapA : Snapshot
  snapB : Snapshot
  granary : List Host.Cell
  /-- 16-byte words in uncorrectable error (R199, R458), by word number. -/
  badWords : List Nat
  /-- The granary rows of 768 bytes that any agent has written since the launch of the task that holds them, rising (R253). -/
  dirty : List Nat
  tiles : Vector Tile 64
  quarters : Vector Power 4
  matrix : Matrix
  istore : List IRow
  leases : List Lease
  /-- The core is disabled with its cluster (R417). -/
  disabled : Bool
  deriving DecidableEq, Repr

/-! ### The cluster: Sieve pipeline, cribs, barriers (spec/10, spec/11) -/

/-- A crib descriptor (R296), with the queue and command that armed it while the command has not completed (R297), a
disarm that waits for the zero fill (R298), and the launch its trigger made (R303). STATE: 0 IDLE, 1 ARMING, 2 OPEN,
3 CLOSED. -/
structure Crib where
  state : BitVec 2
  mode : BitVec 2
  part : BitVec 4
  rearm : Bool
  argslot : BitVec 3
  sat : Bool
  flg : Flags
  thr : BitVec 16
  tmpl : BitVec 16
  count : BitVec 16
  queue : Fin 64
  cmd : Option Nat
  disarm : List (Fin 64 × Nat)
  disarming : Bool
  deriving DecidableEq, Repr

/-- A crib by its place: 64 × core + tile (R295). -/
structure CribAt where
  place : Nat
  crib : Crib
  deriving DecidableEq, Repr

/-- A barrier context (R306): the gang (its launch and number), its members by task, the generation and who has
arrived. -/
structure Barrier where
  lid : Nat
  gang : Nat
  members : List Nat
  gen : Nat
  arrived : List Nat
  deriving DecidableEq, Repr

/-- An entry of a match-action table (R272): its key, prefix length or upper bound, program and action data. -/
structure SEntry where
  key : Nat
  plen : Nat
  hi : Nat
  prog : Nat
  adata : Word
  deriving DecidableEq, Repr

/-- The table kinds (R271). -/
inductive TableKind where
  | exact | longest | range | direct
  deriving DecidableEq, Repr

/-- A table of a stage (R271): descriptor and entries, in the order of their indices. -/
structure STable where
  index : Fin 4
  valid : Bool
  kind : TableKind
  part : BitVec 4
  slices : List (Nat × Nat)
  cap : Nat
  deflt : Nat
  entries : List SEntry
  deriving DecidableEq, Repr

/-- A partition's regions and hash seed in a stage (R276, R377). -/
structure Region where
  part : BitVec 4
  cells : Nat
  pairs : Nat
  seed : BitVec 32
  deriving DecidableEq, Repr

/-- A register cell of a stage that is not 0. -/
structure RCell where
  part : BitVec 4
  idx : Nat
  val : Word
  deriving DecidableEq, Repr

/-- A counter pair of a stage that is not 0: packets and bytes. -/
structure CPair where
  part : BitVec 4
  idx : Nat
  packets : Word
  bytes : Word
  deriving DecidableEq, Repr

/-- A program slot that has been written (R274), by its partition (R288, R412). -/
structure Program where
  part : BitVec 4
  slot : Nat
  words : List Word
  deriving DecidableEq, Repr

/-- One match-action stage (R271). -/
structure Stage where
  tables : List STable
  programs : List Program
  regions : List Region
  cells : List RCell
  pairs : List CPair
  deriving DecidableEq, Repr

/-- A valid entry of a signal table (R286): the physical address it was resolved to. -/
structure SigEntry where
  part : BitVec 4
  idx : Nat
  pa : Nat
  deriving DecidableEq, Repr

/-- A record of an update batch (R377). -/
structure BatchRec where
  kind : Nat
  stage : Nat
  index : Nat
  payload : List Byte
  deriving DecidableEq, Repr

/-- An accepted batch that waits for parser entry (R289), with the command that brought it. -/
structure Batch where
  part : BitVec 4
  recs : List BatchRec
  queue : Fin 64
  cmd : Nat
  deriving DecidableEq, Repr

/-- An entry of the field directory (R269). -/
structure FieldDir where
  doff : Nat
  len : Nat
  poff : Nat
  immu : Bool
  deriving DecidableEq, Repr

/-- A deferred effect (R278): primitive OP and stage, core and tile, byte offset in the tile, and an amount (of a bump or
a decrement; the signal's entry stands in `off`). -/
structure Effect where
  op : BitVec 6
  stage : Nat
  core : Nat
  tile : Nat
  off : Nat
  n : Nat
  deriving DecidableEq, Repr

/-- How far a header has come (R279-R285). -/
inductive Fate where
  | flowing | dropped | forward | absorb | both
  deriving DecidableEq, Repr

/-- A packet in a pipeline: ingress port, lane, bytes, header vector, field directory, payload cursor, partition, the
stage it passes next, deferred list, whether its tail has passed (with the order of passing), its fate, the first of its
copies among the packets handed to egress ports and their number, and the DEST of `act.route`. Its disposition bits stand
in the header vector. -/
structure Packet where
  port : Nat
  sys : Bool
  packet : List Byte
  hv : List Byte
  fdir : List FieldDir
  cur : Nat
  part : BitVec 4
  stage : Nat
  effects : List Effect
  tail : Option Bool
  order : Nat
  fate : Fate
  out : Option (Nat × Nat)
  dest : Option Word
  /-- The slot in which its header arrived (R436). -/
  slot : Nat
  deriving DecidableEq, Repr

/-- A cluster: parser states that have been written, tenant port and start registers, counters 0-16 and CNTCLR's
targets, VIOLREC, the sixteen stages, signal tables, waiting batches, packets in lane order, cribs that are not in their
reset state, and the four barrier contexts. -/
structure Cluster where
  parser : List (Nat × BitVec 512)
  portcfg : Vector Word 4
  pstart : Vector Word 16
  counters : Vector Word 17
  violrec : Word
  stages : Vector Stage 16
  signals : List SigEntry
  batches : List Batch
  /-- Parser states allotted to each partition by the configuration blobs, one bit a state (R377, R411). -/
  allot : Vector Word 16
  /-- The pipeline's system table memory (R263): the parser states of the system profile that the Reeve has written, and its
  tables, programs, regions and counters, by stage. -/
  sysParser : List (Nat × BitVec 512)
  sysStages : Vector Stage 16
  /-- The stages whose system table memory holds a word in uncorrectable error (R275), the parser states' with stage 0. -/
  sysBad : BitVec 16
  headers : List Packet
  /-- How many tails have passed: the order of commits (R284). -/
  tails : Nat
  cribs : List CribAt
  barriers : Vector (Option Barrier) 4
  deriving DecidableEq, Repr

/-! ### The Granger (spec/12) -/

/-- A hardware queue (R313); `stuck` while its fetch is stopped until software clears EN (R459). -/
structure Queue where
  qbase : Word
  jbase : Word
  qtail : Nat
  qhead : Nat
  part : BitVec 4
  kind : Bool
  pmax : BitVec 3
  size : BitVec 4
  en : Bool
  stuck : Bool
  deriving DecidableEq, Repr

/-- A fetched command without a terminal journal state (R315-R317): its packet, journal STATE, LID and FAILN, whether it
stands at the front, and whether a LAUNCH there has asked for acceptance. -/
structure QCmd where
  queue : Fin 64
  idx : Nat
  packet : List Byte
  state : Nat
  lid : Nat
  failn : Nat
  front : Bool
  asked : Bool
  deriving DecidableEq, Repr

/-- A graph, phase or job counter (R321, R322); a graph or phase counter that is not listed is free. -/
structure Counter where
  id : Nat
  part : BitVec 4
  closed : Bool
  out : Nat
  failn : Nat
  cancel : Bool
  signal : Word
  deriving DecidableEq, Repr

/-- A dependence of a launch that is not satisfied yet (R325), and whether its signal has become unreadable (R459). -/
structure Dep where
  addr : Word
  thr : Word
  lost : Bool
  deriving DecidableEq, Repr

/-- A segment with its base (R337, R338). -/
structure Segment where
  base : Nat
  len : Nat
  perm : BitVec 3
  fixed : Bool
  fmt : BitVec 5
  geom : BitVec 2
  deriving DecidableEq, Repr

/-- What a kernel descriptor says (R367). -/
structure Kernel where
  kdesc : Word
  entry : Word
  trape : Word
  got : Word
  segs : List Segment
  tiles : Word
  matrix : Bool
  nlock : Nat
  npre : Nat
  savemax : Nat
  part : BitVec 4
  deriving DecidableEq, Repr

/-- The crib that triggered a launch (R303): cluster of the die, place, and the status word. -/
structure CribRef where
  cluster : Fin 8
  place : Nat
  status : Word
  deriving DecidableEq, Repr

/-- A launch whose counter is in use (R318, R321). -/
structure Launch where
  lid : Nat
  queue : Fin 64
  cmd : Option Nat
  part : BitVec 4
  kernel : Kernel
  record : Word
  ntask : Nat
  gang : Nat
  prio : BitVec 3
  chk : Bool
  live : BitVec 16
  signal : Word
  failslot : Word
  stack : Word
  sstride : Nat
  graph : Nat
  phase : Nat
  save : Word
  savesz : Nat
  deps : List Dep
  args : List Word
  out : Nat
  failn : Nat
  lost : Bool
  begun : Bool
  crib : Option CribRef
  /-- The crib that triggered it, on whose core its task runs also once the crib is another's (R303, R329). -/
  bound : Option CribRef
  /-- The cancel bit of its counter (R321, R327). -/
  cancel : Bool
  deriving DecidableEq, Repr

/-- What the Granger knows of a task that is not resident (R253, R329): the core and bank it left, the owner codes it
holds by tile, the granary words in error that go with its tiles (log entry 60), whether it holds the matrix engine, how
many rows it has locked, and the barrier context that its gang takes when it is placed again (R306). The image itself lies in
memory. -/
structure Saved where
  core : Fin 256
  bank : Bool
  owners : List (Nat × BitVec 3)
  bad : List Nat
  matrix : Bool
  locks : Nat
  barrier : Option (Fin 4)
  deriving DecidableEq, Repr

/-- The states of a task that the Granger tells apart (R326); FAULTWAIT and PLACING of a placed task show in its bank. -/
inductive TaskState where
  | queued
  | ready
  /-- Resident: PLACING until its first bundle issues, then RUNNING or FAULTWAIT. -/
  | placed (core : Fin 256) (bank : Bool)
  /-- PLACING, with an image still to be restored (R255). -/
  | restoring (core : Fin 256) (bank : Bool)
  | suspended (addr threshold : Word)
  deriving DecidableEq, Repr

/-- A task that is not RETIRED (R326-R331). -/
structure Task where
  id : Nat
  lid : Nat
  index : Nat
  state : TaskState
  prio : BitVec 3
  /-- When it first became READY (R329), and since when it stands at its priority (R328). -/
  firstReady : Nat
  prioSince : Nat
  placedAt : Nat
  image : Option Saved
  deriving DecidableEq, Repr

/-- A template of a partition (R316): the record's bytes and its address. -/
structure Template where
  part : BitVec 4
  index : Nat
  record : List Byte
  addr : Word
  deriving DecidableEq, Repr

/-- A trigger that asks for a launch (R303). -/
structure Trigger where
  ref : CribRef
  part : BitVec 4
  tmpl : Nat
  argslot : BitVec 3
  queue : Fin 64
  count : BitVec 16
  deriving DecidableEq, Repr

/-- Who makes an access of the Granger (R459): a queue's front, a crib's trigger, a launch that waits for its DEP signals, a
task that waits for its signal or is restored, or the decrement of a SIGDEC, of a launch or of a counter. -/
inductive Asker where
  | front (q : Fin 64)
  | trigger (cluster : Fin 8) (place : Nat)
  | deps (lid : Nat)
  | signal (task : Nat)
  | image (task : Nat)
  | sigdec (q : Fin 64)
  | launch (lid : Nat)
  | counter (level id : Nat)
  deriving DecidableEq, Repr

/-- A read or write of the Granger that is held on a fault (R459): who makes it, the page, the kind, and whether the
service has refused it. -/
structure GHold where
  who : Asker
  page : Nat
  part : BitVec 4
  kind : Nat
  refused : Bool
  deriving DecidableEq, Repr

/-- The decrement of a SIGDEC that is held on a fault (R316, R459): its queue and partition, the signal and the amount. -/
structure HeldDec where
  queue : Fin 64
  part : BitVec 4
  addr : Nat
  amount : Word
  deriving DecidableEq, Repr

/-- A Granger (spec/12). -/
structure Granger where
  queues : Vector Queue 64
  cmds : List QCmd
  launches : List Launch
  graphs : List Counter
  phases : List Counter
  jobs : Vector Counter 16
  templates : List Template
  tasks : List Task
  nextTask : Nat
  triggers : List Trigger
  /-- Barrier contexts saved with their gangs (R306). -/
  saved : List Barrier
  holds : List GHold
  /-- Decrements of SIGDECs that are terminal in the journal and wait for a fault (R317, R459). -/
  decs : List HeldDec
  deriving DecidableEq, Repr

/-! ### The Thresher (spec/15) -/

/-- A gate entry in the queue (R382). -/
structure GateEntry where
  token : BitVec 32
  layer : Nat
  isSeal : Bool
  epoch : BitVec 16
  logits : List (BitVec 32)
  deriving DecidableEq, Repr

/-- A layer (R383): its descriptor, CUR, SEALED, and for each expert cnt, hist, OVF and HOVF. -/
structure Layer where
  index : Nat
  mode : Nat
  k : Nat
  nexp : Nat
  cap : Nat
  route0 : Nat
  ring : Nat
  rsize : Nat
  arm : Bool
  seed : BitVec 32
  sealAddr : Nat
  cblk : Nat
  cur : BitVec 16
  closed : Bool
  /-- The records of the epoch so far (R388). -/
  recs : Nat
  cnt : List Nat
  hist : List Nat
  ovf : List Bool
  hovf : List Bool
  deriving DecidableEq, Repr

/-- A key of the override table (R386). -/
structure Override where
  token : BitVec 32
  layer : Nat
  expert : Nat
  deriving DecidableEq, Repr

/-- A model-routing entry with its arm data (R393, R398). -/
structure REntry where
  index : Nat
  dest : Word
  ctrl : Word
  tmpl : BitVec 16
  queue : BitVec 8
  mode : BitVec 2
  argslot : BitVec 3
  inuse : Word
  deriving DecidableEq, Repr

/-- An arm request (R390, R391): index, threshold, and the done signal with the peer and die that hold it. -/
structure ArmReq where
  index : Nat
  thr : Nat
  signal : Nat
  peer : BitVec 12
  die : Fin 2
  /-- TCTAIL when it arrived: the commands before it are taken up first (R399). -/
  after : Nat
  deriving DecidableEq, Repr

/-- The arm request being handled (R391): its queue and packet, the command that was placed, if any, and its status once
known; with neither it waits for room in the ring (R392). -/
structure ArmRun where
  req : ArmReq
  queue : Fin 64
  packet : List Byte
  placed : Option (Fin 64 × Nat)
  status : Option Nat
  inuse : Word
  part : BitVec 4
  deriving DecidableEq, Repr

/-- A push whose last item has been accepted (R380): its bank, and its gate entries. -/
structure Push where
  core : Fin 256
  bank : Bool
  entries : List GateEntry
  deriving DecidableEq, Repr

/-- An EVICT in its third step (R397). -/
structure EvictRun where
  inuse : Word
  part : BitVec 4
  deriving DecidableEq, Repr

/-- A Thresher (spec/15). -/
structure Thresher where
  gq : List GateEntry
  layers : List Layer
  overrides : List Override
  routes : List REntry
  tcbase : Word
  tctail : Nat
  tchead : Nat
  armfail : BitVec 16
  disc : BitVec 16
  arms : List ArmReq
  arm : Option ArmRun
  evict : Option EvictRun
  /-- The pushes that have had their last item accepted and have not entered, in that order (R380). -/
  pushes : List Push
  deriving DecidableEq, Repr

/-! ### The fabric (spec/17) -/

/-- A request that the target agent of a die has received (R442), and the fault it is held on. -/
structure TReq where
  kind : BitVec 8
  part : BitVec 4
  speer : BitVec 12
  sloc : BitVec 8
  dloc : BitVec 8
  tx : Nat
  atop : Nat
  atype : Nat
  mode : BitVec 8
  target : Word
  opnd : Word
  cmpv : Word
  len : Nat
  data : List Byte
  cls : BitVec 8
  circid : BitVec 8
  held : Option HeldFault
  refused : Bool
  deriving DecidableEq, Repr

/-- A packet that has been handed to an egress port (R279, R281, R432, R437): the traffic class it leaves in (R265), whether it
travels in the virtual channel class of responses, and in which of the class's two channels (R433). -/
structure OutPkt where
  port : Nat
  qcls : BitVec 8
  answer : Bool
  second : Bool
  bytes : List Byte
  stomped : Bool
  /-- Its class was paused at its port, so that it waits there until the class resumes (R424). -/
  waits : Bool
  deriving DecidableEq, Repr

/-- A port of the module: link width code (R427), whether it is up, replay and retrain counts, the next sequence number it
takes, failures in a row (R425), and the traffic classes that priority flow control has paused (R424). -/
structure Port where
  width : BitVec 2
  up : Bool
  replays : BitVec 32
  retrains : BitVec 16
  cdeg : Bool
  expected : Nat
  fails : Nat
  paused : BitVec 8
  deriving DecidableEq, Repr

/-! ### Translation, caches and memory (spec/13) -/

/-- A service request of a die's fault service (R246, R349): its slot and generation, the page, the partition, the kind
(1 read, 2 write, 3 atomic, 4 fetch) and the cause (1 absent, 2 malformed, 3 permission, 4 root disabled). -/
structure FaultReq where
  slot : Nat
  gen : Nat
  page : Nat
  part : BitVec 4
  kind : Nat
  cause : Nat
  deriving DecidableEq, Repr

/-- A radix translation that has been used (R352): a 64 KiB page of a partition, the leaf found, its level, and whether it
may still be used; one that an invalidation has covered stays listed as the page's frame (R353). -/
structure TlbEntry where
  part : BitVec 4
  page : Nat
  leaf : Word
  level : Nat
  live : Bool
  deriving DecidableEq, Repr

/-- A Barn line on a host-side frame (R354): its address, its 128 bytes, whether they are newer than host memory, and its
way. Lines of HBM are coherent with every agent and need no copy here. -/
structure BarnLine where
  line : Nat
  data : List Byte
  dirty : Bool
  way : Fin 16
  deriving DecidableEq, Repr

/-- An invalidation that runs (R353): partition, first page, number of pages (0: every page), and whether it writes back
and drops Barn lines. -/
structure Invalidation where
  part : BitVec 4
  page : Nat
  count : Nat
  wb : Bool
  deriving DecidableEq, Repr

/-- The units of one die. -/
structure Die where
  troot : Vector Word 16
  frbase : Word
  faults : List FaultReq
  /-- Generations of the fault ring's slots that have been used (R349). -/
  gens : List (Nat × Nat)
  tlb : List TlbEntry
  invaddr : Word
  invctl : Word
  invRun : Option Invalidation
  barn : List BarnLine
  /-- Power-gated Barn ways (R355). -/
  gatedWays : BitVec 16
  granger : Granger
  thresher : Thresher
  /-- Requests the target agent holds (R442). -/
  target : List TReq
  /-- The next TXID of the die's source agent (R429). -/
  tx : Nat
  /-- Aperture entries (R440), windows (R441) and slot cells (R435) that are not 0, by number. -/
  aptab : List (Nat × Word)
  winbase : List (Nat × Word)
  winctl : List (Nat × Word)
  slots : List (Nat × Word)
  slotNow : BitVec 8
  /-- When the slot counter was aligned last (R436). -/
  slotAt : Nat
  circmiss : Nat
  fabcfg : Word
  /-- Answers to the fault service that were written while the clocks stood (R420), oldest first. -/
  answers : List Word
  deriving DecidableEq, Repr

/-! ### The package (spec/16) -/

/-- CLKSTAT of a cluster (R418). -/
structure ClkStat where
  vstep : BitVec 8
  off : Bool
  freq : BitVec 5
  deriving DecidableEq, Repr

/-- A response on the DOE mailbox (R416): the request answered, and what it carries beside values the spec leaves open:
for GET_MEASUREMENTS the measurement log and registers, and the signature. -/
structure DoeResponse where
  request : Nat
  log : List (Nat × BitVec 384)
  regs : List (BitVec 384)
  payload : BitVec 768
  deriving DecidableEq, Repr

/-- The units of the package (spec/16). -/
structure Package where
  hirq : BitVec 6
  hirqen : BitVec 6
  /-- The MSI-X vectors that have been raised, oldest first (R410). -/
  msix : List Nat
  /-- 128-byte lines of memory in uncorrectable error, by line address (R355). -/
  badLines : List Nat
  /-- PARTMAP (R411): EN and PART of each core, and the writes that wait for its banks to empty. -/
  partmap : Vector (BitVec 8) 256
  partNext : List (Fin 256 × BitVec 8)
  /-- RSTPART (R412): PART, the partition whose reset runs, and whether its job still has to be cancelled. -/
  rstPart : BitVec 4
  rstRun : Option (BitVec 4)
  rstCancel : Bool
  /-- Boot (R415): the number of images that have been loaded, BOOTST once a verification has failed, and what has been put into
  the recovery upload region, by word. -/
  booted : Nat
  bootst : Word
  halted : Bool
  recovery : List (Nat × Word)
  mr : Vector (BitVec 384) 16
  log : List (Nat × BitVec 384)
  doe : Option DoeResponse
  clk : Vector ClkStat 16
  pwrcap : BitVec 12
  /-- FRZCTL.STATE (R420), and whether the readout that runs is destructive. -/
  frz : BitVec 4
  dscan : Bool
  /-- The readout that the scan window shows, and how many of its words have been read (R420). -/
  scanRun : Nat
  scanPos : Nat
  /-- Which host links are up (R404). -/
  links : Vector Bool 2
  /-- The die-to-die link (R402): the next sequence number, failures in a row, and whether a flit has failed for good. -/
  d2dNext : Nat
  d2dFails : Nat
  d2dLost : Bool
  /-- The 64-byte lines of the Loft of which the host holds a copy, by number, and whether in modified or exclusive state
  (R407). -/
  hostLines : List (Nat × Bool)
  ports : Vector Port 64
  /-- Packets handed to the egress ports, oldest first. -/
  egress : List OutPkt
  deriving DecidableEq, Repr

/-! ### Who moves, and the whole module -/

/-- A turn of the schedule: one core takes a clock, clocks pass, or an event happens (log entry 1). -/
inductive Turn where
  | core (c : Fin 256)
  | clocks (n : Nat)
  | event (e : Instr)
  deriving DecidableEq, Repr

/-- The part of a bundle's issue that a word's meaning carries out: all of it, its checks only, or its effects only
(R5: the checks of every word come before the effect of any). -/
inductive Phase where
  | whole | check | act
  /-- Only the schedule checks: those of a delay bundle, made before its branch bundle issues (R100). -/
  | sched
  deriving DecidableEq, Repr

/-- How the checks of a bundle end: all pass, its issue is held for this bc (R103), or it is stopped by a trap or a
synchronous fault (R235, R243). -/
inductive Stop where
  | none | held | trapped
  deriving DecidableEq, Repr

/-- The bundle being issued: the position of the word, its size in bytes, and the address of the first word after the
bundle that follows it, for `call` (R110). -/
structure Issue where
  pos : Nat
  size : Nat
  after : Word
  phase : Phase
  /-- How a check of this bundle ended. -/
  stop : Stop
  deriving DecidableEq, Repr

/-- The header whose action program runs (R273): its cluster, its place there, the stage and the action data. -/
structure Running where
  cluster : Fin 16
  header : Nat
  stage : Fin 16
  adata : Word
  deriving DecidableEq, Repr

/-- The state of the module. -/
structure State where
  /-- Time in clocks (R328, R331, R335). -/
  now : Nat
  sched : List Turn
  /-- The core whose bundle issues. -/
  cur : Fin 256
  issue : Issue
  /-- How many free values have been drawn (log entry 5). -/
  free : Nat
  cores : Vector Core 256
  clusters : Vector Cluster 16
  dies : Vector Die 2
  pkg : Package
  /-- The header whose action program runs (R273): its cluster, its place in the pipeline, and the action data. -/
  prog : Running
  /-- A decrement, a host write of the Loft, or 10 µs that have passed call for a re-read of the signals that tasks wait for
  (R133). -/
  reread : Bool
  /-- Global memory by physical address (R336). -/
  mem : List Host.Cell
  deriving DecidableEq, Repr

/-! ### Why a step stops -/

/-- Why a step stops with a fault. -/
inductive Fault where
  /-- Raised by the meaning of a bundle word when the core's current bank holds no task: no bundle issues from an empty
  bank (R36). Safe: the hardware does nothing. -/
  | noTask
  deriving DecidableEq, Repr

/-- Why a step is refused. -/
inductive Refusal where
  /-- Raised by the dispatch for an instruction that has no meaning yet. Safe: nothing is claimed of it. -/
  | notModelled (mnemonic : String)
  deriving DecidableEq, Repr

/-! ### Reset (R36) -/

/-- A granary tile that no one owns (log entry 4). -/
def Tile.reset : Tile := ⟨0, false, 0, 0⟩

/-- An unloaded weight plane (R172). -/
def Plane.reset : Plane := ⟨Vector.replicate 64 0, none, []⟩

/-- A plane of headers that all hold 0x7F000000 (R172). -/
def ScalePlane.reset : ScalePlane :=
  Vector.replicate 64 (BitVec.ofNat 384 (0x7F000000 * ((2 ^ 384 - 1) / (2 ^ 32 - 1))))

/-- The matrix engine with nothing loaded (R172). -/
def Matrix.reset : Matrix := ⟨none, [], .reset, .reset, .reset, .reset, [], [], []⟩

/-- A latch bank that holds nothing. -/
def Snapshot.empty : Snapshot := ⟨[], Vector.replicate 15 0⟩

/-- A core after reset: both banks empty (R36). -/
def Core.reset : Core :=
  { bc := 0, bank := false, switching := 0, freeze := 0, missing := none, sinceSwitch := 0, ctxA := none, ctxB := none,
    snapA := .empty, snapB := .empty, granary := [], badWords := [], dirty := [], tiles := Vector.replicate 64 .reset, quarters := Vector.replicate 4 .awake,
    matrix := .reset, istore := [], leases := [], disabled := false }

/-- A stage with nothing written. -/
def Stage.reset : Stage := ⟨[], [], [], [], []⟩

/-- A cluster after reset (R268, R291-R294, R296). -/
def Cluster.reset : Cluster :=
  { parser := [], portcfg := Vector.replicate 4 0, pstart := Vector.replicate 16 0, counters := Vector.replicate 17 0,
    violrec := 0, stages := Vector.replicate 16 .reset, signals := [], batches := [], allot := Vector.replicate 16 0,
    sysParser := [], sysStages := Vector.replicate 16 .reset, sysBad := 0, headers := [], tails := 0, cribs := [], barriers := Vector.replicate 4 none }

/-- A queue after reset (R313). -/
def Queue.reset : Queue := ⟨0, 0, 0, 0, 0, false, 0, 0, false, false⟩

/-- A counter with nothing outstanding. -/
def Counter.reset : Counter := ⟨0, 0, false, 0, 0, false, 0⟩

/-- A Granger after reset. -/
def Granger.reset : Granger :=
  { queues := Vector.replicate 64 .reset, cmds := [], launches := [], graphs := [], phases := [],
    jobs := Vector.replicate 16 .reset, templates := [], tasks := [], nextTask := 0, triggers := [], saved := [], holds := [], decs := [] }

/-- A Thresher after reset. -/
def Thresher.reset : Thresher := ⟨[], [], [], [], 0, 0, 0, 0, 0, [], none, none, []⟩

/-- A die after reset. -/
def Die.reset : Die :=
  { troot := Vector.replicate 16 0, frbase := 0, faults := [], gens := [], tlb := [], invaddr := 0, invctl := 0,
    invRun := none, barn := [], gatedWays := 0, granger := .reset, thresher := .reset, target := [], tx := 0, aptab := [],
    winbase := [], winctl := [], slots := [], slotNow := 0, slotAt := 0, circmiss := 0, fabcfg := 0, answers := [] }

/-- The package after reset (R404, R410-R412, R416, R418-R420, R427). -/
def Package.reset : Package :=
  { hirq := 0, hirqen := 0, msix := [], badLines := [], partmap := Vector.replicate 256 0, partNext := [], rstPart := 0,
    rstRun := none, rstCancel := false, booted := 0, bootst := 0, halted := false, recovery := [], mr := Vector.replicate 16 0, log := [], doe := none,
    clk := Vector.replicate 16 ⟨0, false, 27⟩, pwrcap := 0, frz := 0, dscan := false, scanRun := 0, scanPos := 0, links := Vector.replicate 2 true,
    d2dNext := 0, d2dFails := 0, d2dLost := false, hostLines := [],
    ports := Vector.replicate 64 ⟨0, false, 0, 0, false, 0, 0, 0⟩, egress := [] }

/-- The module right after reset (R36): every bank empty, every register at its reset value, memory with nothing listed;
values that the spec does not give are those of log entries 3 and 4. -/
def State.reset : State :=
  { now := 0, sched := [], cur := 0, issue := ⟨0, 0, 0, .whole, .none⟩, free := 0,
    cores := Vector.replicate 256 .reset, clusters := Vector.replicate 16 .reset, dies := Vector.replicate 2 .reset,
    pkg := .reset, prog := ⟨0, 0, 0, 0⟩, reread := false, mem := [] }

end Sys2Proof.Machine
end

