-- ==== Sys2Proof/Machine/Bits.lean ====
section
/-! DEFINITION. Bit fields, sign extension and byte order (R2), sparse byte memories in their canonical form, and the
elements of vector registers (R16, R17, R42, R136). -/
namespace Sys2Proof.Machine

/-- Bits lo + n - 1 : lo of a number. -/
def bitsOf (x lo n : Nat) : Nat := x / 2 ^ lo % 2 ^ n

/-- Bits lo + n - 1 : lo of a 64-bit word, as a number. -/
def wbits (x : Word) (lo n : Nat) : Nat := bitsOf x.toNat lo n

/-- Sign extension to 64 bits. -/
def sext64 {n : Nat} (x : BitVec n) : Word := x.signExtend 64

/-- Zero extension to 64 bits. -/
def zext64 {n : Nat} (x : BitVec n) : Word := x.zeroExtend 64

/-- A 64-bit word from a number, modulo 2^64. -/
def word (n : Nat) : Word := BitVec.ofNat 64 n

/-- A byte from a number, modulo 2^8. -/
def byte (n : Nat) : Byte := BitVec.ofNat 8 n

/-- The number that bytes spell, the first being the least significant (R2). -/
def leNat : List Byte → Nat
  | [] => 0
  | b :: bs => b.toNat + 256 * leNat bs

/-- The `n` bytes of a number, the least significant first (R2). -/
def leBytes : Nat → Nat → List Byte
  | 0, _ => []
  | n + 1, x => byte x :: leBytes n (x / 256)

/-- The number that bytes spell, the first being the most significant (R265, R429). -/
def beNat (bs : List Byte) : Nat := leNat bs.reverse

/-- The `n` bytes of a number, the most significant first. -/
def beBytes (n x : Nat) : List Byte := (leBytes n x).reverse

/-! ### Byte memories: cells with strictly rising addresses, none of them zero -/

/-- The canonical form: addresses strictly rising, no listed byte equal to what an unlisted address reads as. -/
def Memory.wf : List Host.Cell → Bool
  | [] => true
  | [c] => c.2 != 0
  | c :: d :: rest => c.2 != 0 && c.1 < d.1 && Memory.wf (d :: rest)

/-- What an address reads as: its listed byte, or 0 (log entry 3). -/
def readCell : List Host.Cell → Nat → Byte
  | [], _ => 0
  | c :: rest, a => if c.1 == a then c.2 else readCell rest a

/-- Writes one byte and keeps the canonical form: a zero byte is not listed. -/
def writeCell : List Host.Cell → Nat → Byte → List Host.Cell
  | [], a, b => if b == 0 then [] else [(a, b)]
  | c :: rest, a, b =>
    if a < c.1 then (if b == 0 then c :: rest else (a, b) :: c :: rest)
    else if a == c.1 then (if b == 0 then rest else (a, b) :: rest)
    else c :: writeCell rest a b

/-- The `n` bytes from address `a` on. -/
def readCells (m : List Host.Cell) (a n : Nat) : List Byte := (List.range n).map fun k => readCell m (a + k)

/-- Writes each listed byte, in order. -/
def writeCells (m : List Host.Cell) (cells : List Host.Cell) : List Host.Cell :=
  cells.foldl (fun acc c => writeCell acc c.1 c.2) m

/-- Bytes at consecutive addresses. -/
def cellsAt (a : Nat) (bs : List Byte) : List Host.Cell := (List.range bs.length).zipWith (fun k b => (a + k, b)) bs

/-- Writes bytes at consecutive addresses. -/
def writeBytes (m : List Host.Cell) (a : Nat) (bs : List Byte) : List Host.Cell := writeCells m (cellsAt a bs)

/-- Every byte of `n` from address `a` on becomes zero. -/
def zeroCells (m : List Host.Cell) (a n : Nat) : List Host.Cell := m.filter fun c => c.1 < a || a + n ≤ c.1

/-! ### Bytes of registers -/

/-- The `n` lowest bytes of a bit vector, the least significant first. -/
def bvBytes {w : Nat} (x : BitVec w) (n : Nat) : List Byte := leBytes n x.toNat

/-- A 512-bit predicate as one bit a byte lane, lane `i`. -/
def laneOn (p : PData) (i : Nat) : Bool := p.getLsbD i

/-- Every byte lane on. -/
def allLanes : PData := BitVec.allOnes 512

/-- The data bits of the byte lanes that are on. -/
def laneDataMask (p : PData) : VData :=
  if p == allLanes then BitVec.allOnes 4096
  else BitVec.ofNat 4096 ((List.range 512).foldr (fun i acc => acc * 256 + (if laneOn p i then 255 else 0)) 0)

/-- The tail bits of the byte lanes that are on: two pairs a byte (R16). -/
def laneTailMask (p : PData) : VTail :=
  if p == allLanes then BitVec.allOnes 2048
  else BitVec.ofNat 2048 ((List.range 512).foldr (fun i acc => acc * 16 + (if laneOn p i then 15 else 0)) 0)

/-- The register image mask of byte lanes. -/
def laneMask (p : PData) : VVal := ⟨laneDataMask p, laneTailMask p⟩

/-- Every bit of a register image. -/
def fullMask : VVal := ⟨BitVec.allOnes 4096, BitVec.allOnes 2048⟩

/-- Bits of `new` where the mask is set, of `old` elsewhere. -/
def mergeBits {w : Nat} (old new mask : BitVec w) : BitVec w := (old &&& ~~~mask) ||| (new &&& mask)

/-- A vector register image merged under a mask. -/
def VVal.merge (old new mask : VVal) : VVal :=
  ⟨mergeBits old.data new.data mask.data, mergeBits old.tail new.tail mask.tail⟩

/-- Element `i` of width `w` of a register: its bits and the pair of its lowest nibble (R17, R136). -/
def VVal.elem (x : VVal) (w i : Nat) : Elem :=
  ⟨bitsOf x.data.toNat (w * i) w, bitsOf x.tail.toNat (w * i / 2) 2⟩

/-- A register image and the mask of what it writes, from one optional element for each place: an element that is
written writes 00 into its other pairs (R17). -/
def buildV (w : Nat) (es : List (Option Elem)) : VVal × VVal :=
  let ones := 2 ^ w - 1
  let tones := 2 ^ (w / 2) - 1
  (⟨BitVec.ofNat 4096 (es.foldr (fun e acc => acc * 2 ^ w + (match e with | some x => x.code % 2 ^ w | none => 0)) 0),
    BitVec.ofNat 2048
      (es.foldr (fun e acc => acc * 2 ^ (w / 2) + (match e with | some x => x.tail % 4 | none => 0)) 0)⟩,
   ⟨BitVec.ofNat 4096 (es.foldr (fun e acc => acc * 2 ^ w + (if e.isSome then ones else 0)) 0),
    BitVec.ofNat 2048 (es.foldr (fun e acc => acc * 2 ^ (w / 2) + (if e.isSome then tones else 0)) 0)⟩)

/-- The 768-byte image of a register: its data, then its tail plane (R164). -/
def VVal.image (x : VVal) : List Byte := bvBytes x.data 512 ++ bvBytes x.tail 256

/-- A register from its 768-byte image (R164). -/
def VVal.ofImage (bs : List Byte) : VVal :=
  ⟨BitVec.ofNat 4096 (leNat (bs.take 512)), BitVec.ofNat 2048 (leNat (bs.drop 512))⟩

end Sys2Proof.Machine
end

