-- ==== Sys2Proof/Machine/Ops.lean ====
section
/-! DEFINITION. The named operations on a core and its contexts: reading registers through VBASE and PBASE, pending results
and their landing, granary stores, the checks of a word (R104, R235), raising and taking a trap (R237-R240), and the
shared form of every bundle word's meaning. -/
namespace Sys2Proof.Machine

/-- The outcome of a step of this machine. -/
abbrev Out := Host.Outcome State Fault Refusal

/-! ### Cores and contexts -/

/-- The core whose bundle issues. -/
def State.core (s : State) : Core := s.cores[s.cur]

/-- Changes one core. -/
def State.updCore (s : State) (c : Fin 256) (f : Core → Core) : State := { s with cores := s.cores.set c (f s.cores[c]) }

/-- Changes the core whose bundle issues. -/
def State.modCore (s : State) (f : Core → Core) : State := s.updCore s.cur f

/-- The context of a bank: false A, true B (R10). -/
def Core.ctx? (k : Core) (bank : Bool) : Option Context := if bank then k.ctxB else k.ctxA

/-- Puts a context into a bank. -/
def Core.setCtx (k : Core) (bank : Bool) (x : Option Context) : Core :=
  if bank then { k with ctxB := x } else { k with ctxA := x }

/-- Changes the context of a bank, if it holds one. -/
def Core.modCtx (k : Core) (bank : Bool) (f : Context → Context) : Core := k.setCtx bank ((k.ctx? bank).map f)

/-- The context that issues: the current bank of the current core. -/
def State.ctx? (s : State) : Option Context := s.core.ctx? s.core.bank

/-- Changes the context that issues. -/
def State.modCtx (s : State) (f : Context → Context) : State := s.modCore fun k => k.modCtx k.bank f

/-- Draws a number for a free value (log entry 5). -/
def State.draw (s : State) : State := { s with free := s.free + 1 }

/-! ### Register names (R13, R18, R21, R22) -/

/-- The physical register of a vector name (R18). -/
def Context.vPhys (x : Context) (n : BitVec 5) : BitVec 5 :=
  if n.toNat < 8 then n else BitVec.ofNat 5 (8 + (n.toNat - 8 + x.vbase.val) % 24)

/-- The physical predicate of a predicate name (R22). -/
def Context.pPhys (x : Context) (n : Nat) : Nat :=
  if n % 16 < 8 then n % 16 else 8 + (n % 16 - 8 + 2 * x.pbase.val) % 8

/-- A scalar register; s0 reads as zero with a zero tail (R13). -/
def Context.sget (x : Context) (n : BitVec 5) : SVal := if n = 0 then ⟨0, 0⟩ else x.s[n.toFin]

/-- The data bits of a scalar register. -/
def Context.sdata (x : Context) (n : BitVec 5) : Word := (x.sget n).data

/-- A vector register by name (R18). -/
def Context.vget (x : Context) (n : BitVec 5) : VVal := x.v[(x.vPhys n).toFin]

/-- A physical predicate: p0 reads all ones and p1 all zeros (R21). -/
def Context.pRead (x : Context) (n : Nat) : PData :=
  if n = 0 then allLanes else if n = 1 then 0 else if h : n < 16 then x.p[n] else 0

/-- A predicate by name (R22, R71). -/
def Context.pget (x : Context) (n : Nat) : PData := x.pRead (x.pPhys n)

/-- The guard predicate of a word (R71). -/
def Context.guard (x : Context) (g : BitVec 4) : PData := x.pget g.toNat

/-- Whether a scalar word's guard allows it: bit 0 of its predicate (R23, R72). -/
def Context.guardOn (x : Context) (g : BitVec 4) : Bool := (x.guard g).getLsbD 0

/-! ### Writes (R13, R21, R33) -/

/-- The register a write goes to. -/
def RegWrite.reg : RegWrite → Reg
  | .s n _ => .s n
  | .v n _ _ => .v n
  | .p q _ _ => .p q
  | .stage b n _ => .stage b n
  | .latches _ => .latch

/-- One register write, in place. A write to s0 and a write to pair 0 are discarded (R13, R21); a pair receives the
result and its complement. -/
def Context.write (x : Context) : RegWrite → Context
  | .s n val => if n = 0 then x else { x with s := x.s.set n.toFin val }
  | .v n val mask => { x with v := x.v.set n.toFin (x.v[n.toFin].merge val mask) }
  | .p pair val mask =>
    if pair = 0 then x else
      let r := mergeBits (x.pRead (2 * pair.toNat)) val mask
      let c := mergeBits (x.pRead (2 * pair.toNat + 1)) (~~~val) mask
      { x with p := (x.p.set (2 * pair.toNat) r (by omega)).set (2 * pair.toNat + 1) c (by omega) }
  | .stage bank n val =>
    if bank = 0 then { x with ms := x.ms.set n.toFin val }
    else if bank = 1 then { x with ws := x.ws.set n.toFin val }
    else { x with fs := x.fs.set n.toFin val }
  | .latches val => { x with latches := x.latches.mapIdx fun n l => (val.getD n none).getD l }

/-- Register writes in order. -/
def Context.writes (x : Context) (ws : List RegWrite) : Context := ws.foldl Context.write x

/-- Sets exception flags (R28). -/
def Context.raise (x : Context) (f : Flags) : Context := { x with fflags := x.fflags ||| f }

/-- The results that fall due at the end of bc `t` land, in issue order and within a bundle by position, and their
flags are set (R28, R33, R95). -/
def Context.land (x : Context) (t : Nat) : Context :=
  let due := x.pend.filter fun r => r.due ≤ t
  let y := due.foldl (fun acc r => (acc.writes r.writes).raise r.flags) x
  { y with pend := x.pend.filter fun r => !(r.due ≤ t) }

/-! ### The snapshot latch bank (R250, R251, R255) -/

/-- What the latch bank holds for a bank. -/
def Core.snap (k : Core) (bank : Bool) : Snapshot := if bank then k.snapB else k.snapA

/-- Changes what the latch bank holds for a bank. -/
def Core.setSnap (k : Core) (bank : Bool) (s : Snapshot) : Core := if bank then { k with snapB := s } else { k with snapA := s }

/-- The pending result of an entry whose task's bc U is `bc` (R255): it lands at the end of bc U + OFF − 1. -/
def LatchEntry.pend (e : LatchEntry) (bc : Nat) : Pend :=
  ⟨0, bc + e.off.toNat - 1, e.slot.toNat, e.writes.map RegWrite.reg, e.writes, 0, e.checked, none⟩

/-- The flags of a schedule as results that write nothing and land at their offsets (R251, R255). -/
def Snapshot.flagPends (s : Snapshot) (bc : Nat) : List Pend :=
  (List.finRange 15).filterMap fun n => if s.flags.get n = 0 then none else some ⟨0, bc + n.val, 0, [], [], s.flags.get n, false, none⟩

/-- In bc U, the first in which a resumed bank issues or passes an empty `dly` cycle, its latch entries become pending
results, the oldest first, and its flag schedule runs (R248, R255). -/
def Core.unlatch (k : Core) (bank : Bool) : Core :=
  let s := k.snap bank
  if s.entries.isEmpty && s.flags == Snapshot.empty.flags then k
  else (k.modCtx bank fun x => { x with pend := x.pend ++ s.entries.map (·.pend k.bc) ++ s.flagPends k.bc }).setSnap bank .empty

/-- A fabric store whose source is still to be read, in bc t + 2 of its bundle (R448). -/
def FCmd.reading (f : FCmd) : Bool := f.op == .st && f.enabled && f.data.isNone

/-- Nothing of the bank is pending: every fixed-latency result has landed and every granary access has taken place
(R237). -/
def Context.drained (x : Context) : Bool :=
  x.pend.isEmpty && x.stores.isEmpty && !x.fabric.any fun f => f.reading

/-! ### Names as checking mode sees them (R104, R234) -/

/-- A register as a word names it: scalar, vector, predicate, or the quantise latches. -/
inductive Name where
  | s (n : BitVec 5)
  | v (n : BitVec 5)
  | p (n : Nat)
  | stage (bank : BitVec 2) (n : BitVec 3)
  | latch
  deriving DecidableEq, Repr

/-- The physical register of a name; hard-wired registers have none that could be pending. -/
def Context.phys (x : Context) : Name → Option Reg
  | .s n => if n = 0 then none else some (.s n)
  | .v n => some (.v (x.vPhys n))
  | .p n => let q := x.pPhys n / 2; if q = 0 then none else some (.p (BitVec.ofNat 3 q))
  | .stage b n => some (.stage b n)
  | .latch => some .latch

/-- FILE of R234. -/
def Name.file : Name → Nat
  | .s _ => 0 | .v _ => 1 | .p _ => 2 | .stage _ _ => 0 | .latch => 3

/-- REG of R234: the register as the word names it; 0 for the latches. -/
def Name.num : Name → Nat
  | .s n => n.toNat | .v n => n.toNat | .p n => n | .stage _ n => n.toNat | .latch => 0

/-- Whether a fabric command is an atomic (R449). -/
def FOp.atomic : FOp → Bool
  | .add | .min | .max | .swap | .cas | .and | .or => true
  | _ => false

/-- The register that a fabric command writes at its post (R448, R449, R453). -/
def FCmd.register (f : FCmd) : Option Reg :=
  let sreg := BitVec.ofNat 5 (wbits f.fs[3] 10 5)
  if !f.enabled then none
  else if f.op == .fence then some (.v f.reg)
  else if (f.op == .ld || f.op.atomic) && wbits f.fs[3] 8 2 = 1 && sreg != 0 then some (.s sreg)
  else none

/-- The registers that a pending engine command of the bank will write (R211), from commands issued with checking on. -/
def Context.engineDests (k : Core) (bank : Bool) (x : Context) : List Reg :=
  (k.matrix.queue.filterMap fun m => if m.bank == bank && m.checked && m.op == .mread then some (.v m.reg) else none)
    ++ (x.wain.flatMap fun w =>
        if !w.checked then [] else
        match w.op with
        | .far => if w.enabled then w.regs.map .s else []
        | .fillM => if w.enabled then w.regs.map .v else []
        | _ => [])
    ++ (x.fabric.filterMap fun f => if f.checked then f.register else none)

/-- The latest landing that a checked result still pending from an earlier bundle has on a register (R96, R104). -/
def Context.pendingDue (x : Context) (bc : Nat) (r : Reg) : Option Nat :=
  (x.pend.filterMap fun q =>
    if q.checked && q.issue < bc && bc ≤ q.due && q.dests.contains r then some q.due else none).max?

/-- TVAL of a schedule trap (R234). -/
def scheduleTval (kind short : Nat) (n : Name) : Word :=
  word (short % 65536 * 65536 + kind * 256 + n.file * 32 + n.num % 32)

/-- The lowest-numbered of some names (R234). -/
def lowestName : List Name → Option Name
  | [] => none
  | n :: ns =>
    match lowestName ns with
    | none => some n
    | some m => if n.num < m.num || (n.num == m.num && n.file ≤ m.file) then some n else some m

/-- The schedule check of a word in checking mode (R104, R234): the first of the five conditions that it breaks. -/
def scheduleCheck (k : Core) (bank : Bool) (x : Context) (reads : List Name) (dests : List (Name × Nat)) :
    Option Word :=
  if !x.chkmode then none else
  let bc := k.bc
  let eng := x.engineDests k bank
  let due? (n : Name) : Option Nat := (x.phys n).bind (x.pendingDue bc)
  let early := reads.filter fun n => n != .latch && (due? n).isSome
  let engRead := reads.filter fun n => match x.phys n with | some r => eng.contains r | none => false
  let earlyLatch := reads.filter fun n => n == .latch && (due? n).isSome
  let outOrder := dests.filterMap fun d =>
    match due? d.1 with
    | some t => if bc + d.2 - 1 ≤ t then some d.1 else none
    | none => none
  let engWrite := dests.filterMap fun d =>
    match x.phys d.1 with | some r => if eng.contains r then some d.1 else none | none => none
  let short (n : Name) : Nat := match due? n with | some t => t + 1 - bc | none => 0
  match lowestName early with
  | some n => some (scheduleTval 1 (short n) n)
  | none =>
    match lowestName engRead with
    | some n => some (scheduleTval 2 0 n)
    | none =>
      match lowestName earlyLatch with
      | some n => some (scheduleTval 3 (short n) n)
      | none =>
        match lowestName outOrder with
        | some n => some (scheduleTval 4 0 n)
        | none =>
          match lowestName engWrite with
          | some n => some (scheduleTval 5 0 n)
          | none => none

/-! ### Trap causes (R233) -/

def causeIllegalBundle : BitVec 8 := 0x01
def causeUndefined : BitVec 8 := 0x02
def causeSchedule : BitVec 8 := 0x03
def causeRange : BitVec 8 := 0x04
def causeMisaligned : BitVec 8 := 0x05
def causeModel : BitVec 8 := 0x06
def causeMode : BitVec 8 := 0x07
def causeTransfer : BitVec 8 := 0x08
def causeFetchFault : BitVec 8 := 0x09
def causeDataFault : BitVec 8 := 0x0A
def causeGranaryData : BitVec 8 := 0x0B
def causeToken : BitVec 8 := 0x0C
def causeMatrix : BitVec 8 := 0x0D
def causeWain : BitVec 8 := 0x0E
def causeFabric : BitVec 8 := 0x0F
def causeLaunch : BitVec 8 := 0x10
def causeSoftware : BitVec 8 := 0x20

/-- TCAUSE: CAUSE 7:0, WORD 11:8, NEST 12 (R31). -/
def tcauseWord (cause : BitVec 8) (pos : BitVec 4) (nest : Bool) : Word :=
  zext64 cause ||| (zext64 pos <<< 8) ||| (if nest then 0x1000 else 0)

/-! ### Taking a trap (R237-R240) -/

/-- A trap is taken once nothing is pending (R237): a granary-data error that fell due becomes the trap; with HACT 1
the task fails with a nested record, with TVEC 0 it fails (R239, R240); else TEPC, TCAUSE and TVAL are written, HACT
is set and the handler's first bundle is next. -/
def Context.enterTrap (x : Context) (cause : BitVec 8) (pos : BitVec 4) (tval : Word) : Context :=
  let g := x.granaryErr
  let cause := if g.isSome then causeGranaryData else cause
  let pos := if g.isSome then 0 else pos
  let tval := match g with | some e => word e.1 | none => tval
  let nested := x.hact || (match g with | some e => e.2 | none => false)
  let x := { x with granaryErr := none, delay := none, delayBundle := [] }
  if nested then { x with status := .ending x.pc (tcauseWord cause pos true) tval 2 }
  else if x.tvec = 0 then { x with status := .ending x.pc (tcauseWord cause pos false) tval 1 }
  else { x with tepc := x.pc, tcause := tcauseWord cause pos false, tval := tval, hact := true, pc := x.tvec,
                landed := false, status := .running }

/-- A trap raised at the bundle to issue: it is taken at once when nothing is pending, else after the drain hold
(R237). -/
def Context.raiseTrap (x : Context) (cause : BitVec 8) (pos : BitVec 4) (tval : Word) : Context :=
  if x.drained then x.enterTrap cause pos tval else { x with status := .draining (.trap cause pos tval) }

/-- A trap raised at the bundle being issued (R235). -/
def State.trap (s : State) (cause : BitVec 8) (pos : Nat) (tval : Word) : State :=
  { s.modCtx (fun x => x.raiseTrap cause (BitVec.ofNat 4 pos) tval) with issue := { s.issue with stop := .trapped } }

/-- A synchronous page fault at the bundle being issued (R243): the bank drains, then waits for the fault service. -/
def State.syncFault (s : State) (cause : BitVec 8) (addr : Word) (kind : BitVec 3) : State :=
  { s.modCtx (fun x => { x with status := .draining (.fault cause addr kind (BitVec.ofNat 4 s.issue.pos)) }) with
      issue := { s.issue with stop := .trapped } }

/-! ### The shared form of a word's meaning -/

/-- How a word's own issue checks end. -/
inductive Check where
  | ok
  /-- A trap with its cause and TVAL. -/
  | trap (cause : BitVec 8) (tval : Word)
  /-- The bundle is held for this bc (R103); every such hold counts as a `wait` (R357). -/
  | hold
  /-- A synchronous page fault (R243) of a KIND of R349. -/
  | pageFault (cause : BitVec 8) (addr : Word) (kind : BitVec 3)
  deriving DecidableEq, Repr

/-- The first check that does not pass (R235). -/
def Check.andThen (a b : Check) : Check := match a with | .ok => b | r => r

/-- A trap when a condition holds. -/
def trapIf (b : Bool) (cause : BitVec 8) (tval : Word) : Check := if b then .trap cause tval else .ok

/-- How a word uses its guard: not at all, as one bit (R72), or per byte lane (R72). -/
inductive Guard where
  | always
  | scalar (g : BitVec 4)
  | lanes (g : BitVec 4)
  deriving DecidableEq, Repr

/-- What a word reads and the fixed-latency results it starts: destination and latency (R81-R92). -/
structure Use where
  guard : Guard
  reads : List Name
  dests : List (Name × Nat)
  deriving DecidableEq, Repr

/-- Whether the guard lets the word run (R72). -/
def Use.on (u : Use) (x : Context) : Bool :=
  match u.guard with | .scalar g => x.guardOn g | _ => true

/-- The registers the word reads, its guard among them; a scalar word that its guard switches off reads only the guard
(R72, R104). -/
def Use.allReads (u : Use) (x : Context) : List Name :=
  match u.guard with
  | .always => u.reads
  | .scalar g => .p g.toNat :: (if x.guardOn g then u.reads else [])
  | .lanes g => .p g.toNat :: u.reads

/-- The checks of one word: the schedule checks, then its own (R235 step 5). -/
def wordCheck (u : Use) (own : Check) (k : Core) (x : Context) : Check :=
  match scheduleCheck k k.bank x (u.allReads x) (if u.on x then u.dests else []) with
  | some tval => .trap causeSchedule tval
  | none => if u.on x then own else .ok

/-- What the checks of a word come to in the phase of its bundle: none once every check has passed; only the schedule
checks for a delay bundle that is looked at ahead (R100). -/
def wordVerdict (u : Use) (own : State → Core → Context → Check) (s : State) (x : Context) : Check :=
  match s.issue.phase with
  | .act => .ok
  | .sched => wordCheck u .ok s.core x
  | _ => wordCheck u (own s s.core x) s.core x

/-- The shared meaning of a bundle word: its checks, in the phases in which they are made, then its effect (R5, R235).
The effect reads the registers as they stand before the bundle, since every result lands later. -/
def runWord (u : Use) (own : State → Core → Context → Check) (act : Core → Context → State → State) (s : State) : Out :=
  match s.ctx? with
  | none => .fault .noTask
  | some x =>
    match wordVerdict u own s x with
    | .trap cause tval => .next (s.trap cause s.issue.pos tval)
    | .pageFault cause addr kind => .next (s.syncFault cause addr kind)
    | .hold => .next { s with issue := { s.issue with stop := .held } }
    | .ok => .next (if s.issue.phase = .whole || s.issue.phase = .act then (if u.on x then act s.core x s else s) else s)

/-- No issue check of its own. -/
def noCheck : State → Core → Context → Check := fun _ _ _ => .ok

/-- A fixed-latency result of the word being issued: it lands at the end of bc t + L − 1 (R95). -/
def State.result (s : State) (lat : Nat) (ws : List RegWrite) (flags : Flags) : State :=
  s.modCore fun k => k.modCtx k.bank fun x =>
    { x with pend := x.pend ++
        [⟨k.bc, k.bc + lat - 1, s.issue.pos, ws.map RegWrite.reg, ws, flags, x.chkmode, none⟩] }

/-- A write that takes effect from the next bundle (R20, R26, R203, R210). -/
def State.defer (s : State) (d : Deferred) : State := s.modCtx fun x => { x with deferred := x.deferred ++ [d] }

/-- A scalar result: written to rd with its tail after `lat` bc; a write to s0 is discarded (R13, R111). -/
def State.sresult (s : State) (lat : Nat) (rd : BitVec 5) (val : SVal) (flags : Flags) : State :=
  s.result lat [.s rd val] flags

/-- The meaning of a scalar word with one scalar result. -/
def scalarWord (g : Guard) (reads : List (BitVec 5)) (rd : BitVec 5) (lat : Nat)
    (f : Context → SVal × Flags) (s : State) : Out :=
  runWord ⟨g, reads.map .s, [(.s rd, lat)]⟩ noCheck (fun _ x s => s.sresult lat rd (f x).1 (f x).2) s

end Sys2Proof.Machine
end

