-- ==== Sys2Proof/Machine/Mem.lean ====
section
/-! DEFINITION. Global memory: the physical map (R336), device reads and writes through the Barns (R354), radix walks
(R341-R344) and extents (R339, R340), permits (R346), cached translations (R352), and the fault service's requests
(R246, R349-R351). -/
namespace Sys2Proof.Machine

/-- Where a physical address lies (R336). -/
inductive PhysKind where
  /-- HBM of a die. -/
  | hbm (die : Fin 2)
  /-- The Loft. -/
  | loft
  /-- The gate window of a die. -/
  | gate (die : Fin 2)
  /-- Host memory; the home die is bit 12 of the address. -/
  | host (die : Fin 2)
  /-- No memory. -/
  | none
  deriving DecidableEq, Repr

/-- Die 0 or 1 by a bit. -/
def dieOf (b : Bool) : Fin 2 := if b then 1 else 0

/-- The physical map (R336): stacks 0-3 are die 0's, each 0xC_0000_0000 bytes. -/
def physKind (a : Nat) : PhysKind :=
  if a < 0x6000000000 then .hbm (dieOf (decide (4 * 0xC00000000 ≤ a)))
  else if 0x10000000000 ≤ a ∧ a < 0x10000800000 then .loft
  else if 0x10000800000 ≤ a ∧ a < 0x10000810000 then .gate (dieOf (decide (0x10000808000 ≤ a)))
  else if 0x2000000000000 ≤ a ∧ a < 0x4000000000000 then .host (dieOf (a.testBit 12))
  else .none

/-- The first byte of the Loft (R336). -/
def loftBase : Nat := 0x10000000000

/-- Changes one die. -/
def State.updDie (s : State) (d : Fin 2) (f : Die → Die) : State := { s with dies := s.dies.set d (f s.dies[d]) }

/-- The 128-byte line of an address. -/
def lineOf (a : Nat) : Nat := a / 128

/-- The Barn line of a host-side address on a die, if cached. -/
def Die.barnLine (d : Die) (a : Nat) : Option BarnLine := d.barn.find? fun l => l.line == lineOf a

/-- A byte as a device agent reads it: host-side bytes come from the home Barn's line if it holds one (R354), and a gate
window reads as zero (R379). -/
def State.devByte (s : State) (a : Nat) : Byte :=
  match physKind a with
  | .host d =>
    match (s.dies[d]).barnLine a with
    | some l => l.data.getD (a % 128) 0
    | none => readCell s.mem a
  | .gate _ | .none => 0
  | _ => readCell s.mem a

/-- Bytes as a device agent reads them. -/
def State.devRead (s : State) (a n : Nat) : List Byte := (List.range n).map fun k => s.devByte (a + k)

/-- The way that a line is fetched into: the first of its turn that is not gated (R355). -/
def freeWay (gated : BitVec 16) (line : Nat) : Option (Fin 16) :=
  ((List.finRange 16).map fun j => (⟨(line + j.val) % 16, Nat.mod_lt _ (by decide)⟩ : Fin 16)).find? fun w => !gated.getLsbD w.val

/-- Writes the newer lines that satisfy `sel` back to host memory, and drops every line that does (R227, R353, R355). -/
def State.barnDrop (s : State) (d : Fin 2) (sel : BarnLine → Bool) : State :=
  let lines := ((s.dies[d]).barn.filter sel).filter fun l => l.dirty
  let mem := lines.foldl (fun m l => writeBytes m (128 * l.line) l.data) s.mem
  ({ s with mem := mem }).updDie d fun x => { x with barn := x.barn.filter fun l => !sel l }

/-- The lines of one way of a Barn: 96 MiB in lines of 128 bytes over 16 ways (R1). -/
def wayLines : Nat := 96 * 2 ^ 20 / 128 / 16

/-- Makes room in a way that is full: its oldest line is written back and leaves (R1, log entry 49). -/
def State.barnRoom (s : State) (d : Fin 2) (w : Fin 16) : State :=
  let lines := (s.dies[d]).barn.filter fun l => l.way == w
  match lines with
  | l :: _ => if wayLines ≤ lines.length then s.barnDrop d fun x => x.line == l.line else s
  | [] => s

/-- Fetches the line of a host-side address into its home Barn, if it is not there (R354); with every way gated nothing is
kept (R355). -/
def State.barnFill (s : State) (a : Nat) : State :=
  match physKind a with
  | .host d =>
    match (s.dies[d]).barnLine a with
    | some _ => s
    | none =>
      match freeWay (s.dies[d]).gatedWays (lineOf a) with
      | some w => (s.barnRoom d w).updDie d fun x => { x with barn := x.barn ++ [⟨lineOf a, readCells s.mem (128 * lineOf a) 128, false, w⟩] }
      | none => s
  | _ => s

/-- Fetches every line of some host-side bytes. -/
def State.barnFillSpan (s : State) (a n : Nat) : State :=
  (List.range (lineOf (a + n - 1) - lineOf a + 1)).foldl (fun t j => t.barnFill (128 * (lineOf a + j))) s

/-- The 64-byte host cache line of an address (R407). -/
def hostLineOf (a : Nat) : Nat := a / 64

/-- A back-invalidate snoop: the host's copy of a line is gone (R407). -/
def Package.snoop (p : Package) (a : Nat) : Package := { p with hostLines := p.hostLines.filter fun l => l.1 != hostLineOf a }

/-- A device reads some bytes of the Loft: the lines that the host holds in modified or exclusive state are taken back first
(R407). -/
def Package.snoopRead (p : Package) (a n : Nat) : Package :=
  { p with hostLines := p.hostLines.filter fun l => !(l.2 && hostLineOf a ≤ l.1 && l.1 ≤ hostLineOf (a + n - 1)) }

/-- What a device read of some bytes does beside reading: it fetches the lines of host-side bytes (R354), and takes back those
that the host holds (R407). -/
def State.touch (s : State) (a n : Nat) : State :=
  match physKind a with
  | .loft => { s with pkg := s.pkg.snoopRead a n }
  | .host _ => s.barnFillSpan a n
  | _ => s

/-- A byte written by a device agent: a host-side byte makes its Barn line newer than host memory (R354); a byte of the Loft
takes the host's copy of its line back first (R407); a byte where there is no memory is lost. -/
def State.devWriteByte (s : State) (a : Nat) (b : Byte) : State :=
  match physKind a with
  | .host d =>
    let t := s.barnFill a
    match (t.dies[d]).barnLine a with
    | some _ =>
      t.updDie d fun x =>
        { x with barn := x.barn.map fun l => if l.line == lineOf a then { l with data := l.data.set (a % 128) b, dirty := true } else l }
    | none => { t with mem := writeCell t.mem a b }
  | .none => s
  | .gate _ => s
  | .loft => { s with mem := writeCell s.mem a b, pkg := s.pkg.snoop a }
  | _ => { s with mem := writeCell s.mem a b }

/-- Bytes written by a device agent at consecutive addresses. -/
def State.devWrite (s : State) (a : Nat) (bs : List Byte) : State :=
  (cellsAt a bs).foldl (fun acc c => acc.devWriteByte c.1 c.2) s

/-- The little-endian number a device agent reads (R2). -/
def State.devNat (s : State) (a n : Nat) : Nat := leNat (s.devRead a n)

/-- Whether some bytes lie in host memory while no host link is up (R404). -/
def State.unlinked (s : State) (a : Nat) : Bool :=
  !s.pkg.links[0] && !s.pkg.links[1] && (match physKind a with | .host _ => true | _ => false)

/-- The die that is the home of an address (R336). -/
def homeDie (a : Nat) : Option (Fin 2) :=
  match physKind a with
  | .hbm d | .gate d | .host d => some d
  | .loft => some 0
  | .none => none

/-- Whether an access of a die to a byte crosses the die-to-die link: its home is the other die, or its home's host link is down
(R336, R402, R404). -/
def State.crosses (s : State) (d : Fin 2) (a : Nat) : Bool :=
  match homeDie a with
  | some h => h != d || (match physKind a with | .host _ => !s.pkg.links[h] | _ => false)
  | none => false

/-- The first bytes of the lines that some bytes touch; lines of one span may have different homes (R336). -/
def spanLines (a n : Nat) : List Nat := (List.range (lineOf (a + n - 1) - lineOf a + 1)).map fun j => 128 * (lineOf a + j)

/-- Whether an access of a die to some bytes fails with ECODE 2: a line of them is in host memory and no host link is up
(R404), or needs the die-to-die link and a flit of that has failed for good (R402). -/
def State.severed (s : State) (d : Fin 2) (a n : Nat) : Bool :=
  (spanLines a n).any fun l => s.unlinked l || (s.pkg.d2dLost && s.crosses d l)

/-- Whether a read of some bytes fails: a memory line in uncorrectable error (R355), or host memory out of reach (R404). -/
def State.memBad (s : State) (a n : Nat) : Bool :=
  s.unlinked a || s.pkg.badLines.any fun l => lineOf a ≤ l && l ≤ lineOf (a + n - 1)

/-! ### Radix walks (R341-R344) -/

/-- Fields of a leaf entry (R344). -/
structure Leaf where
  aper : Nat
  frame : Nat
  geom : Nat
  fmt : Nat
  side : Bool
  ra : Bool
  la : Bool
  w : Bool
  r : Bool
  deriving DecidableEq, Repr

/-- The fields of a leaf entry's 64 bits (R344). -/
def Leaf.ofWord (e : Word) : Leaf :=
  ⟨wbits e 50 5, wbits e 16 34, wbits e 13 2, wbits e 8 5, e.getLsbD 6, e.getLsbD 5, e.getLsbD 4, e.getLsbD 3, e.getLsbD 2⟩

/-- A reserved FMT code: neither a code of R79 nor 11111 (R344). -/
def fmtReserved (f : Nat) : Bool := f == 6 || f == 7 || (16 < f && f != 31)

/-- A leaf that breaks its layout (R344): SIDE against the frame's range, a reserved FMT or GEOM, GEOM on a format other
than e2m1, SIDE set on a page of an aperture (R439), or low FRAME bits set for its level (R342). -/
def leafMalformed (e : Word) (level : Nat) : Bool :=
  let l := Leaf.ofWord e
  let hostFrame := match physKind (l.frame * 65536) with | .host _ => true | _ => false
  let devFrame := match physKind (l.frame * 65536) with | .hbm _ => true | .loft => true | .gate _ => true | _ => false
  wbits e 55 3 != 0 || e.getLsbD 15 || e.getLsbD 7 || (l.aper != 0 && l.side) ||
  (level == 1 && l.frame % 2 ^ 18 != 0) || (level == 2 && l.frame % 2 ^ 9 != 0) ||
  (l.aper == 0 && (fmtReserved l.fmt || (l.fmt != 5 && l.geom != 0) || 2 ≤ l.geom ||
    (l.side && devFrame) || (!l.side && hostFrame)))

/-- How a walk ends: a leaf with its level, the CAUSE of R349, or a table that cannot be read. -/
inductive Walk where
  | leaf (e : Word) (level : Nat)
  | fault (cause : Nat)
  /-- A table could not be read: its line is in error or out of reach (R355, R404). -/
  | lost
  deriving DecidableEq, Repr

/-- The index bits of a level (R342). -/
def levelIndex (va level : Nat) : Nat := bitsOf va (43 - 9 * level) 9

/-- One table entry, read whole: tables in host memory are read from host memory, never from a Barn line (R342). -/
def State.tableEntry (s : State) (table va level : Nat) : Word :=
  word (leNat (readCells s.mem (table + 8 * levelIndex va level) 8))

/-- The walk from a table of a level on (R342, R343): an absent entry, a malformed entry or a valid leaf ends it; a table that is
in error or out of the die's reach is lost (R355, R402, R404). -/
def State.walkFrom (s : State) (d : Fin 2) (va : Nat) : Nat → Nat → Nat → Walk
  | 0, _, _ => .fault 2
  | fuel + 1, level, table =>
    let e := s.tableEntry table va level
    if s.severed d (table + 8 * levelIndex va level) 8 || s.memBad (table + 8 * levelIndex va level) 8 then .lost
    else if !e.getLsbD 0 then .fault 1
    else if e.getLsbD 1 then
      if level == 0 || leafMalformed e level then .fault 2 else .leaf e level
    else if level == 3 || wbits e 50 14 != 0 || wbits e 2 10 != 0 then .fault 2
    else s.walkFrom d va fuel (level + 1) (wbits e 12 38 * 4096)

/-- The walk of a partition's tables on a die (R341, R342). -/
def State.walk (s : State) (d : Fin 2) (part : BitVec 4) (va : Nat) : Walk :=
  let root := (s.dies[d]).troot[part.toFin]
  if !root.getLsbD 0 then .fault 4 else s.walkFrom d va 4 0 (wbits root 12 38 * 4096)

/-- The page size in bits of a leaf's level (R342). -/
def levelBits (level : Nat) : Nat := if level == 1 then 34 else if level == 2 then 25 else 16

/-- The physical address of a virtual address under a leaf (R342). -/
def leafPhys (e : Word) (level va : Nat) : Nat := (Leaf.ofWord e).frame * 65536 + va % 2 ^ levelBits level

/-! ### Translation (R340, R346, R352) -/

/-- The kinds of access that need permits (R346). -/
inductive Access where
  | read | write | atomic | fetch
  deriving DecidableEq, Repr

/-- KIND of a fault-ring entry (R349). -/
def Access.kind : Access → Nat
  | .read => 1 | .write => 2 | .atomic => 3 | .fetch => 4

/-- Whether a leaf carries the permits an access needs (R346). -/
def Leaf.permits (l : Leaf) : Access → Bool
  | .read | .fetch => l.r
  | .write => l.w
  | .atomic => l.r && l.w && l.la

/-- How an access is translated: a physical address with the leaf's attributes, a page of a peer's aperture, a failure
for good (ECODE 3), or a page fault with its CAUSE. -/
inductive Trans where
  | phys (pa : Nat) (leaf : Word)
  | aper (leaf : Word) (level : Nat)
  | fail
  /-- A table cannot be read: ECODE 2. -/
  | lost
  | fault (cause : Nat)
  deriving DecidableEq, Repr

/-- The extent in which an access lies wholly, the earliest in the table (R339, R340). -/
def findExtent (xs : List Extent) (va len : Nat) : Option Extent := xs.find? fun e => e.va ≤ va && va + len ≤ e.va + e.size

/-- The physical address of the first byte of an extent. -/
def Extent.phys (e : Extent) : Nat := (Leaf.ofWord e.leaf).frame * 65536 + e.va % 65536

/-- The leaf a translation of a page uses: the one the tables hold, or, where others are cached, a free choice among them and
it (R352, log entry 16). With EN = 0 every translation faults (R341). -/
def State.currentLeaf (s : State) (d : Fin 2) (part : BitVec 4) (va : Nat) : Walk :=
  if !((s.dies[d]).troot[part.toFin]).getLsbD 0 then .fault 4
  else match (s.dies[d]).tlb.filter fun t => t.live && t.part == part && t.page == va / 65536 with
  | [] => s.walk d part va
  | ts =>
    match ts[Config.translationChoice s.free (va / 65536) % (ts.length + 1)]? with
    | some t => .leaf t.leaf t.level
    | none => s.walk d part va

/-- An access of `len` bytes is made only where every one of them has memory: the ranges of R336 are far longer than any access,
so its first and last byte decide. -/
def Trans.within (t : Trans) (len : Nat) : Trans :=
  match t with
  | .phys pa leaf => (match physKind pa, physKind (pa + len - 1) with | .none, _ | _, .none => .fail | _, _ => .phys pa leaf)
  | other => other

/-- What a leaf gives an access (R336, R344, R346). -/
def leafAccess (e : Word) (level va : Nat) (acc : Access) : Trans :=
  let l := Leaf.ofWord e
  if l.aper != 0 then .aper e level
  else if !l.permits acc then .fault 3
  else match physKind (leafPhys e level va) with | .none => .fail | _ => .phys (leafPhys e level va) e

/-- What an extent gives an access of some bytes: an extent never faults (R340). -/
def Extent.gives (e : Extent) (va len : Nat) (acc : Access) : Trans :=
  if !(Leaf.ofWord e.leaf).permits acc then .fail else (Trans.phys (e.phys + (va - e.va)) e.leaf).within len

/-- A translation that an extent's access takes: it never faults (R340). -/
def Trans.unfaulting : Trans → Trans
  | .fault _ => .fail
  | t => t

/-- What the page of an access would give it if its extent were made now (R339), for a leaf that the tables hold; with no
leaf there the extent stands. -/
def Extent.remade (e : Extent) (w : Walk) (va len : Nat) (acc : Access) : Trans :=
  match w with
  | .leaf f level =>
    let l := Leaf.ofWord f
    let allowed : Leaf := { l with r := l.r && e.perm.getLsbD 0, w := l.w && e.perm.getLsbD 1, la := l.la && e.perm.getLsbD 2 }
    if l.aper != 0 || l.fmt != (Leaf.ofWord e.leaf).fmt || l.geom != (Leaf.ofWord e.leaf).geom then (leafAccess f level va acc).unfaulting
    else if !allowed.permits acc then .fail
    else (Trans.phys (leafPhys f level va) f).within len
  | .fault _ | .lost => e.gives va len acc

/-- Whether two translations lead an access to the same place. -/
def Trans.same : Trans → Trans → Bool
  | .phys a x, .phys b y => a == b && ((x ^^^ y) &&& 0x7F00) == 0
  | .fail, .fail => true
  | _, _ => false

/-- What an extent gives an access whose leaf may have changed under it (R340, log entry 16): the old translation or, for an
access within a page, the new one. -/
def State.extentAccess (s : State) (d : Fin 2) (part : BitVec 4) (e : Extent) (va len : Nat) (acc : Access) : Trans :=
  let old := e.gives va len acc
  let new := if va / 65536 = (va + len - 1) / 65536 then e.remade (s.walk d part va) va len acc else old
  if old.same new then old else if Config.translationChoice s.free (va / 65536) % 2 = 0 then old else new

/-- Translates an access of `len` bytes that lies in one page or one extent (R340). A virtual address beyond 2^52 − 1 fails
(R224). -/
def State.translate (s : State) (d : Fin 2) (part : BitVec 4) (xs : List Extent) (va len : Nat) (acc : Access) :
    Trans :=
  if 2 ^ 52 < va + len then .fail
  else match findExtent xs va len with
    | some e => s.extentAccess d part e va len acc
    | none =>
      match s.currentLeaf d part va with
      | .leaf e level => (leafAccess e level va acc).within len
      | .fault c => .fault c
      | .lost => .lost

/-- The translation of an access that a core makes as its bundle issues; memory out of its reach is lost (R402, R404). -/
def State.syncAccess (s : State) (d : Fin 2) (part : BitVec 4) (xs : List Extent) (va len : Nat) (acc : Access) : Trans :=
  match s.translate d part xs va len acc with
  | .phys pa leaf => if s.severed d pa len then .lost else .phys pa leaf
  | t => t

/-- The translation of a signal access of 8 bytes: a gate window is no memory (R131, R336, R379). -/
def State.signalAccess (s : State) (d : Fin 2) (part : BitVec 4) (xs : List Extent) (va : Nat) (acc : Access) : Trans :=
  match s.syncAccess d part xs va 8 acc with
  | .phys pa leaf => (match physKind pa with | .gate _ => .fail | _ => .phys pa leaf)
  | t => t

/-- Remembers the translation of a page (R352) and draws a free value, so that the next choice is its own. -/
def State.cacheLeaf (s : State) (d : Fin 2) (part : BitVec 4) (va : Nat) : State :=
  let s' := s.draw
  match s.walk d part va with
  | .leaf e level =>
    s'.updDie d fun x =>
      if x.tlb.any fun t => t.live && t.part == part && t.page == va / 65536 && t.leaf == e then x
      else { x with tlb := ⟨part, va / 65536, e, level, true⟩ :: x.tlb }
  | .fault _ | .lost => s'

/-! ### Interrupts (R410) -/

/-- Sets a bit of HIRQ; where HIRQEN has it, its MSI-X vector is raised (R410). -/
def Package.interrupt (p : Package) (n : Nat) : Package :=
  { p with hirq := p.hirq ||| (1#6 <<< n), msix := if p.hirqen.getLsbD n then p.msix ++ [n] else p.msix }

/-! ### The fault service (R246, R349) -/

/-- The outstanding request that an access of a page, partition and kind is held on (R246). -/
def Die.request (d : Die) (page : Nat) (part : BitVec 4) (kind : Nat) : Option FaultReq :=
  d.faults.find? fun f => f.page == page && f.part == part && f.kind == kind

/-- The lowest slot of the fault ring that no outstanding request occupies. -/
def freeSlot (fs : List FaultReq) : Nat := ((List.range 4096).find? fun n => !fs.any fun f => f.slot == n).getD 0

/-- Posts a fault: an outstanding request of the same page, partition and kind is joined; else, if the service has room,
a request is opened, its fault-ring entry is written, VALID last, and HIRQ.FAULTd is set (R246, R349, R410). -/
def State.postFault (s : State) (d : Fin 2) (part : BitVec 4) (va : Nat) (acc : Access) (cause : Nat) : State :=
  let die := s.dies[d]
  let page := va / 65536
  if (die.request page part acc.kind).isSome || 4096 ≤ die.faults.length then s
  else
    let slot := freeSlot die.faults
    let gen := match die.gens.find? fun g => g.1 == slot with | some g => (g.2 + 1) % 2 ^ 20 | none => 0
    let entry := leBytes 8 (page * 65536) ++ leBytes 4 (gen * 4096 + slot) ++
      [byte part.toNat, byte acc.kind, byte cause, 1] ++ List.replicate 16 0
    let s' := s.devWrite (die.frbase.toNat + 32 * slot) entry
    let s'' := s'.updDie d fun x =>
      { x with faults := x.faults ++ [⟨slot, gen, page, part, acc.kind, cause⟩],
               gens := (slot, gen) :: x.gens.filter fun g => g.1 != slot }
    { s'' with pkg := s''.pkg.interrupt d.val }

/-- The die of a core (R411). -/
def coreDie (c : Fin 256) : Fin 2 := dieOf (decide (128 ≤ c.val))

end Sys2Proof.Machine
end

