-- ==== Sys2Proof/Machine/Flags.lean ====
section
/-! DEFINITION. Exception flags (R28, R64): the flags an operation raises are collected per element and set once, when
its result lands; the store rounding mode of RMODE and its illegal values (R27). -/
namespace Sys2Proof.Machine

/-- The flags of several elements together (R142: a flag is raised once if any element raises it). -/
def orFlags (fs : List Flags) : Flags := fs.foldl (· ||| ·) 0

/-- The illegal-mode check of a word that rounds with RMODE: MODE 110 and 111 (R27). -/
def modeCheck (x : Context) : Check := trapIf (RMode.ofBits x.rmode).isNone causeMode 0

/-- The rounding mode a store reads at issue (R27); only reached with a legal mode. -/
def storeMode (x : Context) : RMode := (RMode.ofBits x.rmode).getD .rne

/-- A carried result with the flags of its operation (R48, R64). -/
def carryOp (f : FFmt) (r : FVal × Flags) : Elem × Flags := (carry f r.1, r.2)

end Sys2Proof.Machine
end

