-- ==== Sys2Proof/Machine/Operands.lean ====
section
/-! DEFINITION. Operand forms: scalar sources with their tails (R15, R118), type codes (R78, R79), scalar arithmetic helpers
(R112, R113, R116), control registers (R26, R123), granary addresses and their checks (R124), and the shared forms of
scalar, branch and staging words. -/
namespace Sys2Proof.Machine

/-! ### Integer helpers -/

/-- An integer result: tail 00 (R15, R111). -/
def intVal (w : Word) : SVal := ⟨w, 0⟩

/-- 1 for true, 0 for false. -/
def flagWord (b : Bool) : Word := if b then 1 else 0

/-- A shift amount: bits 5:0 (R112). -/
def shiftAmt (b : Word) : Nat := wbits b 0 6

/-- Shifts of R112 and R83: 0 left, 1 right with zeros, 2 right with sign, 3 rotate right. -/
def shiftWord (kind : Nat) (a : Word) (c : Nat) : Word :=
  match kind with
  | 0 => a <<< c
  | 1 => a >>> c
  | 2 => a.sshiftRight c
  | _ => a.rotateRight c

/-- Bits 127:64 of the signed product (R112). -/
def mulHigh (a b : Word) : Word := ((a.signExtend 128 * b.signExtend 128) >>> 64).setWidth 64

/-- Bits 127:64 of the unsigned product (R112). -/
def mulHighN (a b : Word) : Word := ((a.zeroExtend 128 * b.zeroExtend 128) >>> 64).setWidth 64

/-- The signed quotient, truncated towards zero; all ones for a zero divisor (R113). -/
def quotS (a b : Word) : Word := if b = 0 then BitVec.allOnes 64 else BitVec.ofInt 64 (a.toInt.tdiv b.toInt)

/-- The unsigned quotient; all ones for a zero divisor (R113). -/
def quotN (a b : Word) : Word := if b = 0 then BitVec.allOnes 64 else a / b

/-- The number of 1 bits (R112). -/
def popCount (a : Word) : Nat := ((List.range 64).filter fun n => a.getLsbD n).length

/-- The number of leading 0 bits (R112). -/
def leadingZeros (a : Word) : Nat := if a = 0 then 64 else 63 - a.toNat.log2

/-- Bit field extract (R116). -/
def bfExtract (a : Word) (off wid : Nat) : Word :=
  if wid = 0 ∨ 64 ≤ off then 0 else word (wbits a off (min wid (64 - off)))

/-- Bit field insert (R116): none when rd is unchanged. -/
def bfInsert (old a : Word) (off wid : Nat) : Option Word :=
  if wid = 0 ∨ 64 ≤ off then none
  else
    let mask : Word := word (2 ^ min wid (64 - off) - 1) <<< off
    some ((old &&& ~~~mask) ||| ((a <<< off) &&& mask))

/-! ### Type codes -/

/-- The float formats by 3-bit code (R78). -/
def floatFmt (ty : BitVec 3) : FFmt :=
  match ty with
  | 0#3 => .f32 | 1#3 => .f16 | 2#3 => .bf16 | 3#3 => .e4m3 | 4#3 => .e5m2 | _ => .e2m1

/-- The scalar float formats by 2-bit code (R78). -/
def scalarFmt (fmt : BitVec 2) : FFmt :=
  match fmt with | 0#2 => .f32 | 1#2 => .f16 | _ => .bf16

/-- The access size of `ld` in bytes (R83). -/
def ldSize (ty : BitVec 3) : Nat := 2 ^ (ty.toNat / 2)

/-- Whether `ld` sign-extends (R83). -/
def ldSigned (ty : BitVec 3) : Bool := ty.toNat % 2 == 0

/-- The access size of `st` in bytes (R83). -/
def stSize (ty : BitVec 3) : Nat :=
  match ty with | 1#3 => 1 | 3#3 => 2 | 5#3 => 4 | _ => 8

/-- The access size of `stf` in bytes (R83). -/
def stfSize (ty : BitVec 3) : Nat := (floatFmt ty).width / 8

/-! ### Scalar float operands (R15, R118) -/

/-- A scalar operand of format `f`, with its tail. -/
def Context.elem (x : Context) (f : FFmt) (n : BitVec 5) : Elem :=
  ⟨(x.sdata n).toNat % 2 ^ f.width, (x.sget n).tail.toNat⟩

/-- The carried value of a scalar operand. -/
def Context.fval (x : Context) (f : FFmt) (n : BitVec 5) : FVal := carried f (x.elem f n)

/-- A scalar floating result: the low bits, all higher data bits 0 (R15, R111). -/
def floatVal (e : Elem) : SVal := ⟨word e.code, BitVec.ofNat 2 e.tail⟩

/-- A 64-bit source read as an integer of the conversion selectors 8 to 11: i32, i64, n32, n64 (R82, R120). -/
def convertSource (sel : Nat) (w : Word) : Int :=
  match sel with
  | 8 => (w.setWidth 32).toInt
  | 9 => w.toInt
  | 10 => (w.setWidth 32).toNat
  | _ => w.toNat

/-- The range of the integer destinations of the selectors 12 to 15: i32, i64, n32, n64 (R41, R82). -/
def convertRange (sel : Nat) : Int × Int :=
  match sel with
  | 12 => (-2 ^ 31, 2 ^ 31 - 1)
  | 13 => (-2 ^ 63, 2 ^ 63 - 1)
  | 14 => (0, 2 ^ 32 - 1)
  | _ => (0, 2 ^ 64 - 1)

/-- The floating formats of the selectors 0 to 3 (source) and 4 to 7 (destination) (R82). -/
def convertFmt (sel : Nat) : FFmt :=
  match sel % 4 with | 0 => .f16 | 1 => .bf16 | 2 => .e4m3 | _ => .e5m2

/-- `fcvt` by its selector (R82, R120). -/
def scalarConvert (sel : Nat) (rmode : BitVec 3) (a : SVal) : SVal × Flags :=
  let el (f : FFmt) : FVal := carried f ⟨a.data.toNat % 2 ^ f.width, a.tail.toNat⟩
  if sel < 4 then (floatVal (carry .f32 (el (convertFmt sel))), 0)
  else if sel < 8 then (floatVal (carry (convertFmt sel) (el .f32)), 0)
  else if sel < 12 then (floatVal (carry .f32 (FVal.ofInt (convertSource sel a.data))), 0)
  else
    let r := toIntClamp ((RMode.ofBits rmode).getD .rne) (convertRange sel).1 (convertRange sel).2 (el .f32)
    (intVal (BitVec.ofInt 64 r.1), r.2)

/-! ### Control registers (R26-R32, R123) -/

/-- CORELOC (R32): bank 11, die 10, cluster 9:7, core 6:3. -/
def coreloc (c : Fin 256) (bank : Bool) : Word :=
  word ((if bank then 2048 else 0) + c.val / 128 * 1024 + c.val / 16 % 8 * 128 + c.val % 16 * 8)

/-- The value of a control register as `crd` reads it (R26, R123). -/
def controlRead (c : Fin 256) (k : Core) (x : Context) (cidx : BitVec 12) : Word :=
  match cidx.toNat with
  | 0x000 => zext64 x.rmode
  | 0x001 => zext64 x.fflags
  | 0x002 => flagWord x.chkmode
  | 0x003 => word x.vbase.val
  | 0x004 => word (2 * x.pbase.val)
  | 0x005 => zext64 x.livecnt
  | 0x010 => x.tvec
  | 0x011 => x.tepc
  | 0x012 => x.tcause
  | 0x013 => x.tval
  | 0x014 => x.tscratch
  | 0x020 => coreloc c k.bank
  | 0x021 => zext64 x.partId
  | 0x022 => zext64 x.tindex
  | 0x023 => word k.bc
  | _ => 0

/-- The effect of `cwr` (R123): read-only registers ignore it, reserved fields are ignored. -/
def Context.controlWrite (x : Context) (cidx : BitVec 12) (w : Word) : Context :=
  match cidx.toNat with
  | 0x000 => { x with rmode := w.setWidth 3 }
  | 0x001 => { x with fflags := x.fflags &&& ~~~(w.setWidth 5) }
  | 0x002 => { x with chkmode := w.getLsbD 0 }
  | 0x003 => { x with vbase := ⟨wbits w 0 6 % 24, Nat.mod_lt _ (by decide)⟩ }
  | 0x004 => { x with pbase := ⟨wbits w 1 2 % 4, Nat.mod_lt _ (by decide)⟩ }
  | 0x005 => { x with livecnt := w.setWidth 16 }
  | 0x010 => { x with tvec := w &&& 0x000FFFFFFFFFFFFC }
  | 0x011 => { x with tepc := w }
  | 0x012 => { x with tcause := w &&& 0x1FFF }
  | 0x013 => { x with tval := w }
  | 0x014 => { x with tscratch := w }
  | _ => x

/-! ### Granary addresses and checks (R124, R198, R200) -/

/-- The size of the granary in bytes (R198). -/
def granaryBytes : Nat := 0x180000

/-- The owner code of a context bank (R200). -/
def bankOwner (bank : Bool) : BitVec 3 := if bank then 2 else 1

/-- The tile of a granary byte (R198). -/
def tileOf (a : Nat) : Nat := a / 24576

/-- A tile by number. -/
def Core.tile (k : Core) (t : Nat) : Tile := if h : t < 64 then k.tiles[t] else k.tiles[63]

/-- The address of a scalar load or store: s[rs] plus the offset in units of the access size, modulo 2^64 (R124). -/
def scalarAddr (base : Word) (off : BitVec 9) (sz : Nat) : Word := base + sext64 off * word sz

/-- The checks of a scalar granary access in their order, with TVAL the address (R124). -/
def scalarAccess (k : Core) (a : Word) (sz : Nat) : Check :=
  ((trapIf (granaryBytes ≤ a.toNat) causeRange a).andThen
    (trapIf (a.toNat % sz != 0) causeMisaligned a)).andThen
      (trapIf ((k.tile (tileOf a.toNat)).owner != bankOwner k.bank) causeModel a)

/-! ### Shared forms of scalar words -/

/-- A word with two scalar sources and an integer result (R112). -/
def scalarBin (g : BitVec 4) (rd rs rt : BitVec 5) (lat : Nat) (f : Word → Word → Word) : State → Out :=
  scalarWord (.scalar g) [rs, rt] rd lat fun x => (intVal (f (x.sdata rs) (x.sdata rt)), 0)

/-- A word with one scalar source and an integer result (R112, R114). -/
def scalarUn (g : Guard) (rd rs : BitVec 5) (lat : Nat) (f : Word → Word) : State → Out :=
  scalarWord g [rs] rd lat fun x => (intVal (f (x.sdata rs)), 0)

/-- A word with a scalar floating result (R118, R119). -/
def scalarFloat (g : BitVec 4) (rd : BitVec 5) (reads : List (BitVec 5)) (lat : Nat) (f : Context → Elem × Flags) :
    State → Out :=
  scalarWord (.scalar g) reads rd lat fun x => (floatVal (f x).1, (f x).2)

/-- `bfi` and `bfir` (R116): rd is a source; with no field to insert rd is not written. -/
def bfInsertWord (g : Guard) (rd rs : BitVec 5) (more : List (BitVec 5)) (field : Context → Nat × Nat) : State → Out :=
  runWord ⟨g, ([rd, rs] ++ more).map .s, [(.s rd, 1)]⟩ noCheck fun _ x s =>
    match bfInsert (x.sdata rd) (x.sdata rs) (field x).1 (field x).2 with
    | some w => s.sresult 1 rd (intVal w) 0
    | none => s

/-- `stage`: the 64 data bits, the tail dropped (R122). -/
def stageWord (g : BitVec 4) (bank : BitVec 2) (num : BitVec 3) (rs : BitVec 5) : State → Out :=
  runWord ⟨.scalar g, [.s rs], [(.stage bank num, 1)]⟩ noCheck fun _ x s =>
    s.result 1 [.stage bank num (x.sdata rs)] 0

/-- The branch bundle decides where issue goes on after its delay bundle (R99). -/
def State.branch (s : State) (taken : Bool) (target : Word) : State :=
  s.modCtx fun x => { x with delay := some ⟨taken, target, false⟩ }

/-- A branch without a register result (R127). -/
def branchWord (g : BitVec 4) (reads : List Name) (own : State → Core → Context → Check)
    (f : Context → Bool × Word) : State → Out :=
  runWord ⟨.scalar g, reads, []⟩ own fun _ x s => s.branch (f x).1 (f x).2

/-- The target check of `jr` and `callr`: bits 1:0 and bits 63:52 must be 0 (R128). -/
def transferCheck (target : Word) : Check :=
  trapIf (wbits target 0 2 != 0 || wbits target 52 12 != 0) causeTransfer target

/-- A granary load of the word being issued: it reads in bc t + 2 and lands at the end of bc t + L − 1 (R95, R98). -/
def State.load (s : State) (lat addr len : Nat) (kind : LoadKind) (dest : Reg) : State :=
  s.modCore fun k => k.modCtx k.bank fun x =>
    { x with pend := x.pend ++
        [⟨k.bc, k.bc + lat - 1, s.issue.pos, [dest], [], 0, x.chkmode, some ⟨addr, len, x.hact, kind⟩⟩] }

/-- Granary bytes of the word being issued, written in bc t + 2 with the flags raised then (R98, R125). -/
def State.storeMasked (s : State) (addr len : Nat) (bytes : List MaskedByte) (flags : Flags) : State :=
  s.modCore fun k => k.modCtx k.bank fun x =>
    { x with stores := x.stores ++ [⟨k.bc, s.issue.pos, addr, len, bytes, flags, x.hact⟩] }

/-- Whole bytes of the word being issued. -/
def State.storeCells (s : State) (addr len : Nat) (cells : List Host.Cell) (flags : Flags) : State :=
  s.storeMasked addr len (cells.map fun c => ⟨c.1, c.2, 255⟩) flags

/-- Single bits of 64 bytes: those whose mask bit is 1 (R164). -/
def State.storeBits (s : State) (addr : Nat) (val mask : PData) : State :=
  s.storeMasked addr 64 (((List.range 64).map fun j =>
    (⟨addr + j, val.extractLsb' (8 * j) 8, mask.extractLsb' (8 * j) 8⟩ : MaskedByte)).filter fun b => b.mask != 0) 0

/-- A store of consecutive bytes. -/
def State.store (s : State) (addr : Nat) (bs : List Byte) (flags : Flags) : State :=
  s.storeCells addr bs.length (cellsAt addr bs) flags

end Sys2Proof.Machine
end

