-- ==== Sys2Proof/Machine/Access.lean ====
section
/-! DEFINITION. What happens on a core between the issue of bundles: the granary accesses two bc after issue (R98, R167,
R168), uncorrectable granary words (R199, R458), landing at the end of a bc (R95), and the passing of a bc (R103). -/
namespace Sys2Proof.Machine

/-- The 16-byte words that some bytes touch (R198). -/
def wordsOf (a n : Nat) : List Nat := if n = 0 then [] else (List.range ((a + n - 1) / 16 - a / 16 + 1)).map fun j => a / 16 + j

/-- The lowest byte of `n` from `a` that lies in a word in error and that `want` selects. -/
def firstBad (bad : List Nat) (a n : Nat) (want : Nat → Bool) : Option Nat :=
  ((List.range n).find? fun j => want j && bad.contains ((a + j) / 16)).map fun j => a + j

/-- The byte offsets a load reads (R164: masked lanes are not read). -/
def Load.wants (l : Load) (j : Nat) : Bool :=
  match l.kind with
  | .scalar _ _ => true
  | .vec _ mask => laneOn mask j
  | .bcast _ mask => (List.range 32).any fun g => laneOn mask (16 * g + j)
  | .pred _ mask => (List.range 8).any fun b => laneOn mask (8 * j + b)
  | .fill _ on => on

/-- What a load writes with the bytes it read (R125, R164). -/
def Load.writes (l : Load) (bs : List Byte) : List RegWrite :=
  match l.kind with
  | .scalar n signed =>
    let v := leNat bs
    [.s n (intVal (if signed then BitVec.ofInt 64 (toSigned (8 * l.len) v) else word v))]
  | .vec n mask => [.v n ⟨BitVec.ofNat 4096 (leNat bs), 0⟩ (laneMask mask)]
  | .bcast n mask => [.v n ⟨BitVec.ofNat 4096 (leNat (List.replicate 32 bs).flatten), 0⟩ (laneMask mask)]
  | .pred pair mask => [.p pair (BitVec.ofNat 512 (leNat bs)) mask]
  | .fill n on => if on then [.v n (VVal.ofImage bs) fullMask] else []

/-- The lower of two granary-data errors; it escalates if either arose with HACT 1 (R236). -/
def mergeErr (a : Option (Nat × Bool)) (addr : Nat) (hact : Bool) : Option (Nat × Bool) :=
  match a with
  | none => some (addr, hact)
  | some e => some (min e.1 addr, e.2 || hact)

/-- One pending load reads the granary: its writes are filled in, or an uncorrectable word leaves its destination
unchanged (R199); a load whose result R34 has discarded reads and writes nothing. -/
def readLoad (k : Core) (p : Pend) (l : Load) : Pend × Option (Nat × Bool) :=
  match firstBad k.badWords l.addr l.len l.wants with
  | some a => ({ p with load := none, writes := [] }, some (a, l.hact))
  | none => ({ p with load := none, writes := if p.dests.isEmpty then [] else l.writes (readCells k.granary l.addr l.len) }, none)

/-- The reads of the bundle issued two bc ago (R98). -/
def Context.doLoads (x : Context) (k : Core) (t : Nat) : Context :=
  x.pend.foldl (fun acc p =>
    match p.load with
    | some l =>
      if p.issue + 2 ≤ t then
        let r := readLoad k p l
        { acc with pend := acc.pend ++ [r.1], granaryErr := match r.2 with | some e => mergeErr acc.granaryErr e.1 e.2 | none => acc.granaryErr }
      else { acc with pend := acc.pend ++ [p] }
    | none => { acc with pend := acc.pend ++ [p] }) { x with pend := [] }

/-- A granary access that takes place in bc `issue` + 2 (R98): until the end of that bc it counts as not over (R237), and
then the flags of a store's roundings are set, as of any result that lands in that bc (R28, R123, R125, R165, log entry
65). -/
def accessPend (issue pos : Nat) (flags : Flags) : Pend := ⟨issue, issue + 2, pos, [], [], flags, false, none⟩

/-- GADDR and LEN of a fabric command (R444). -/
def FCmd.span (f : FCmd) : Nat × Nat := (wbits f.fs[0] 0 21, wbits f.fs[1] 0 13)

/-- The source read of a fabric store: a word in error sends nothing and fails the command with ECODE 1 (R199, R206,
R448); the peer of an expert send is known already (R395, R443). -/
def FCmd.readSource (f : FCmd) (k : Core) : FCmd × Option (Nat × Bool) :=
  match firstBad k.badWords f.span.1 f.span.2 fun _ => true with
  | some a =>
    ({ f with data := some [], items := f.items.map fun i => if i.state == .waiting then { i with state := .failed 1 } else i }, some (a, f.hact))
  | none => ({ f with data := some (readCells k.granary f.span.1 f.span.2) }, none)

/-- The source reads of fabric stores of the bundle issued two bc ago (R98, R448). -/
def Context.doSources (x : Context) (k : Core) (t : Nat) : Context :=
  x.fabric.foldl (fun acc f =>
    if f.reading && decide (f.issue + 2 ≤ t) then
      let r := f.readSource k
      { acc with fabric := acc.fabric ++ [r.1], pend := acc.pend ++ [accessPend f.issue 0 0], granaryErr := match r.2 with | some e => mergeErr acc.granaryErr e.1 e.2 | none => acc.granaryErr }
    else { acc with fabric := acc.fabric ++ [f] }) { x with fabric := [] }

/-- The words of a write that it covers whole, every bit of 16 bytes (R458). -/
def coversWord (bytes : List MaskedByte) (w : Nat) : Bool :=
  (List.range 16).all fun j => bytes.any fun b => b.addr == 16 * w + j && b.mask == 255

/-- Bytes that are written with all their bits. -/
def wholeBytes (cells : List Host.Cell) : List MaskedByte := cells.map fun c => ⟨c.1, c.2, 255⟩

/-- One masked byte into the granary. -/
def writeMasked (m : List Host.Cell) (b : MaskedByte) : List Host.Cell :=
  writeCell m b.addr (mergeBits (readCell m b.addr) b.val b.mask)

/-- Masked bytes written to a granary with words in error (R458): a word covered whole is fresh; a word in error that is
covered in part stays as it is. Granary, words in error, and the lowest byte of a write that met an error. -/
def writeGranary (g : List Host.Cell) (bad : List Nat) (bytes : List MaskedByte) : List Host.Cell × List Nat × Option Nat :=
  if bad.isEmpty then (bytes.foldl writeMasked g, [], none)
  else
    let fresh := bad.filter fun w => coversWord bytes w
    let still := bad.filter fun w => !coversWord bytes w
    let ok := bytes.filter fun b => !still.contains (b.addr / 16)
    let hit := (bytes.filter fun b => still.contains (b.addr / 16)).map fun b => b.addr
    (ok.foldl writeMasked g, bad.filter fun w => !fresh.contains w, hit.min?)

/-- A number in its place in a rising list, once. -/
def insertNat (n : Nat) : List Nat → List Nat
  | [] => [n]
  | m :: ms => if n < m then n :: m :: ms else if n = m then m :: ms else m :: insertNat n ms

/-- The granary rows of 768 bytes in which a write has left a byte: one of a word that stays in error it has not (R253, R458). -/
def rowsWritten (bad : List Nat) (bytes : List MaskedByte) : List Nat :=
  ((bytes.filter fun b => b.mask != 0 && !bad.contains (b.addr / 16)).map fun b => b.addr / 768).eraseDups

/-- The one write of the granary that every agent makes (R198, R253, R458): the bytes, the words in error, and the rows that are
dirty from then on; with the lowest byte of it that met a word in error. -/
def Core.write (k : Core) (bytes : List MaskedByte) : Core × Option Nat :=
  let r := writeGranary k.granary k.badWords bytes
  ({ k with granary := r.1, badWords := r.2.1, dirty := (rowsWritten r.2.1 bytes).foldr insertNat k.dirty }, r.2.2)

/-- The writes of the bundle issued two bc ago, in the order of their words; the flags of their roundings land at the end
of this bc (R98, R125, R165, log entry 65). -/
def Core.doStores (k : Core) (bank : Bool) (t : Nat) : Core :=
  match k.ctx? bank with
  | none => k
  | some x =>
    let due := x.stores.filter fun w => w.issue + 2 ≤ t
    let k' := k.setCtx bank (some { x with stores := x.stores.filter fun w => !(w.issue + 2 ≤ t) })
    due.foldl (fun acc w =>
      let r := acc.write w.bytes
      r.1.modCtx bank fun y =>
        { y with pend := y.pend ++ [accessPend w.issue w.pos w.flags], granaryErr := match r.2 with | some a => mergeErr y.granaryErr a w.hact | none => y.granaryErr }) k'

/-- The spans that the bundle issued two bc ago reads and writes. -/
def Context.spans (x : Context) (t : Nat) : List (Nat × Nat) × List (Nat × Nat) :=
  ((x.pend.filterMap fun p => if p.issue + 2 ≤ t then p.load.map fun l => (l.addr, l.len) else none) ++
      (x.fabric.filterMap fun f => if f.reading && decide (f.issue + 2 ≤ t) then some f.span else none),
   (x.stores.filterMap fun w => if w.issue + 2 ≤ t then some (w.addr, w.len) else none))

/-- The distinct rows that some spans touch in each bank: the largest count over the banks (R168). -/
def bankRows (spans : List (Nat × Nat)) : Nat :=
  let ws := (spans.flatMap fun p => wordsOf p.1 p.2).eraseDups
  ((List.range 48).map fun b => (ws.filter fun w => w % 48 == b).length).foldl max 0

/-- The clocks of a bank-conflict freeze (R168). -/
def conflictClocks (x : Context) (t : Nat) : Nat :=
  let s := x.spans t
  max (bankRows s.1) (bankRows s.2) - 1

/-- The quarter of a granary byte (R204). -/
def quarterOf (a : Nat) : Fin 4 := ⟨a / 393216 % 4, Nat.mod_lt _ (by decide)⟩

/-- Whether an access due at bc t touches a waking quarter: the core then freezes (R205). -/
def Core.wakeFreeze (k : Core) : Bool :=
  match k.ctx? k.bank with
  | none => false
  | some x =>
    let s := x.spans k.bc
    (s.1 ++ s.2).any fun p =>
      k.quarters[quarterOf p.1] != .awake || k.quarters[quarterOf (p.1 + p.2 - 1)] != .awake

/-- The granary accesses that take place in this bc, reads before writes, and the freeze of their bank conflicts (R98,
R168). -/
def Core.granaryAccess (k : Core) : Core :=
  match k.ctx? k.bank with
  | none => k
  | some x =>
    if (x.spans k.bc).1.isEmpty && (x.spans k.bc).2.isEmpty then k
    else
      let k' := (k.setCtx k.bank (some ((x.doLoads k k.bc).doSources k k.bc))).doStores k.bank k.bc
      { k' with freeze := k'.freeze + conflictClocks x k.bc }

/-- The tiles that accesses still to take place touch: stores, loads, and sources of fabric stores (R98, R203). -/
def Context.accessTiles (x : Context) : List (Nat × Nat) :=
  (x.pend.filterMap fun p => p.load.map fun l => (l.addr, l.len)) ++ (x.stores.map fun w => (w.addr, w.len)) ++
    (x.fabric.filterMap fun f => if f.reading then some f.span else none)

/-- Whether every quarter is awake in which an access of the bank that is still to come takes place: the core freezes else (R102,
R205). -/
def Core.accessAwake (k : Core) (x : Context) : Bool :=
  x.accessTiles.all fun p => k.quarters[quarterOf p.1] == .awake && k.quarters[quarterOf (p.1 + p.2 - 1)] == .awake

/-- Every granary access of the bank's issued bundles has taken place (R98, R249). -/
def Context.accessed (x : Context) : Bool := x.accessTiles.isEmpty

/-- Whether an access of either bank to a tile is still to take place: the tile's next owner comes after it (R126, R203,
R309). -/
def Core.accessDue (k : Core) (tile : Nat) : Bool :=
  [k.ctxA, k.ctxB].any fun x => match x with
    | some x => x.accessTiles.any fun p => p.2 != 0 && decide (p.1 < 24576 * (tile + 1)) && decide (24576 * tile < p.1 + p.2)
    | none => false

/-- Every result of the issuing bank that was due at the end of a bc that has passed lands (R95). -/
def Core.landDue (k : Core) : Core :=
  match k.bc with
  | 0 => k
  | t + 1 => k.modCtx k.bank fun x => x.land t

/-- The end of a bc: CYCLE counts it, and what falls due lands (R95, R123). -/
def Core.endBc (k : Core) : Core := { k with bc := k.bc + 1 }.landDue

/-- A hold cycle (R103). -/
def Core.holdCycle (k : Core) : Core := k.endBc

end Sys2Proof.Machine
end

