-- ==== Sys2Proof/Machine/Issue.lean ====
section
/-! DEFINITION. The issue of bundles (spec/03, spec/08): fetch from the instruction store and its fills (R230), the checks
of a bundle in their order (R68, R93, R100, R235), the effects of its words and the end of the bundle, drains and what
follows them (R237, R243-R245), switches of banks, and one clock of a core. The meaning of a word is a parameter here, so
that the dispatch stays the one place that gives it. -/
namespace Sys2Proof.Machine

/-- A word's meaning: what a step does with an instruction. -/
abbrev Meaning := Instr → State → Out

/-- The state a meaning of a bundle word answers; a word in a core without a task leaves the state alone. -/
def applyMeaning (ex : Meaning) (i : Instr) (s : State) : State :=
  match ex i s with | .next t => t | _ => s

/-! ### Fetch (R66, R70, R230) -/

/-- The 2 KiB-aligned row address of a code address (R230). -/
def rowAddr (a : Nat) : Nat := a / 2048 * 2048

/-- The row that holds an address for a partition. -/
def Core.row (k : Core) (part : BitVec 4) (a : Nat) : Option IRow :=
  k.istore.find? fun r => r.addr == rowAddr a && r.part == part

/-- A word of a row. -/
def IRow.word (r : IRow) (a : Nat) : BitVec 32 := r.code.extractLsb' (8 * (a % 2048)) 32

/-- How the fetch of a bundle ends: its words, or the address whose row is absent. -/
inductive Fetched where
  | words (ws : List (BitVec 32))
  | miss (a : Nat)
  deriving DecidableEq, Repr

/-- The words of the bundle at an address: up to and including the first with E = 1, at most eight (R66, R68). -/
def Core.fetchFrom (k : Core) (part : BitVec 4) : Nat → Nat → Fetched
  | 0, _ => .words []
  | n + 1, a =>
    match k.row part a with
    | none => .miss a
    | some r =>
      let w := r.word a
      if w.getLsbD 31 then .words [w]
      else match k.fetchFrom part n (a + 4) with
        | .words ws => .words (w :: ws)
        | .miss b => .miss b

/-- The bundle at a code address. -/
def Core.fetch (k : Core) (part : BitVec 4) (a : Nat) : Fetched := k.fetchFrom part 8 a

/-! ### Checks on encodings (R67, R68, R93, R100) -/

/-- The class of a word (R67). -/
def wordClass (w : BitVec 32) : Nat := bitsOf w.toNat 28 3

/-- How many words of a class one bundle may hold (R67). -/
def classLimit (c : Nat) : Nat := if c < 2 then 2 else if c < 6 then 1 else 0

/-- Whether a word is in the scalar branch/system form (R73). -/
def isSystemForm (w : BitVec 32) : Bool := wordClass w == 0 && bitsOf w.toNat 26 2 == 3

/-- Whether the word at a position breaks R68, given the words before it. -/
def illegalAt (before : List (BitVec 32)) (w : BitVec 32) : Bool :=
  let c := wordClass w
  6 ≤ c || (match before.getLast? with | some v => c < wordClass v | none => false) ||
    classLimit c < (before.filter fun v => wordClass v == c).length + 1 ||
    (isSystemForm w && before.any isSystemForm) || (before.length == 7 && !w.getLsbD 31)

/-- The position of the first word at which a condition of R68 is met. -/
def illegalPos (ws : List (BitVec 32)) : Option Nat :=
  (List.range ws.length).find? fun n => illegalAt (ws.take n) (ws.getD n 0)

/-- The instruction of a word, if it is one. -/
def instrOf (w : BitVec 32) : Option Instr := match decodeWord w with | .ok i => some i | .error _ => none

/-- The position of the lowest-placed undefined word (R93). -/
def undefinedPos (ws : List (BitVec 32)) : Option Nat := ws.findIdx? fun w => (instrOf w).isNone

/-- The branch words: br, call, jr, callr, bz, bnz, bbs, bbc, loop and tret (R85). -/
def isBranch : Instr → Bool
  | .br .. | .call .. | .jr .. | .callr .. | .bz .. | .bnz .. | .bbs .. | .bbc .. | .loop .. | .tret .. => true
  | _ => false

/-- Whether a word may stand in a delay bundle (R100): the scalar register form, the immediate form but for `ld`, `st`,
`stf`, `crd` and `cwr`, the upper form, and vector and F words. -/
def delayAllowed (w : BitVec 32) : Bool :=
  let c := wordClass w
  let form := bitsOf w.toNat 26 2
  let op := bitsOf w.toNat 22 4
  c == 1 || c == 2 || (c == 0 && (form == 0 || form == 2 || (form == 1 && op < 9)))

/-- Whether a delay bundle breaks R100. -/
def delayIllegal (ws : List (BitVec 32)) : Bool :=
  (illegalPos ws).isSome || (undefinedPos ws).isSome || ws.any fun w => !delayAllowed w

/-! ### The effects of a bundle -/

/-- Meanings of the words of a bundle in ascending position, in one phase, while none stops the bundle. -/
def runWords (ex : Meaning) (ph : Phase) : Nat → List Instr → State → State
  | _, [], s => s
  | n, i :: is, s =>
    if s.issue.stop = .none then
      runWords ex ph (n + 1) is (applyMeaning ex i { s with issue := { s.issue with pos := n, phase := ph } })
    else s

/-- The register that an engine command writes and its word names (R34), as physical registers: the destinations of
`mread`, `wn.far`, `vfill.m` and `fx.fence`, when the guard lets the command run. -/
def Context.engineNames (x : Context) : Instr → List Reg
  | .mread _ _ vd => [.v (x.vPhys vd)]
  | .wnFar g _ sd => if laneOn (x.guard g) 0 && sd != 0 then [.s sd] else []
  | .vfillM g _ a b =>
    if laneOn (x.guard g) 0 then (List.range (b.toNat + 1 - a.toNat)).map fun j => .v (x.vPhys (BitVec.ofNat 5 (a.toNat + j))) else []
  | .fxFence g _ vd _ => if laneOn (x.guard g) 0 then [.v (x.vPhys vd)] else []
  | _ => []

/-- A destination named twice in one bundle (R34, log entry 10): the higher-placed word supplies it, and the result of the
lower-placed word, a group of registers included, never lands, its flags apart; a load among them still makes its access
(R199). `named` lists what the bundle's engine words name, with their positions. -/
def Context.dropDoubles (x : Context) (t : Nat) (named : List (Nat × List Reg)) : Context :=
  { x with pend := x.pend.map fun p =>
      if p.issue != t then p
      else
        let higher := (x.pend.filter fun q => q.issue == t && decide (p.pos < q.pos)).flatMap (·.dests) ++
          (named.filter fun e => decide (p.pos < e.1)).flatMap (·.2)
        if p.dests.any higher.contains then { p with dests := [], writes := [] } else p }

/-- An `mread` of the bundle whose register a word behind it names: its result never lands (R34), so no lane of it is
written. -/
def Core.dropMread (k : Core) (bank : Bool) (x : Context) (named : List (Nat × List Reg)) : Core :=
  { k with matrix := { k.matrix with queue := k.matrix.queue.map fun m =>
      if m.op == .mread && m.bank == bank && m.issue == k.bc then
        let pos := ((named.find? fun e => e.2 == [.v m.reg]).map (·.1)).getD 8
        let higher := (x.pend.filter fun q => q.issue == k.bc && decide (pos < q.pos)).flatMap (·.dests) ++
          (named.filter fun e => decide (pos < e.1)).flatMap (·.2)
        { m with guard := if higher.any fun r => r == .v m.reg then 0 else m.guard }
      else m } }

/-- Destinations that two words of the bundle name are settled (R34). -/
def Core.settleDoubles (k : Core) (named : List (Nat × List Reg)) : Core :=
  match k.ctx? k.bank with
  | none => k
  | some x => (k.dropMread k.bank x named).setCtx k.bank (some (x.dropDoubles k.bc named))

/-- The rotation of `loop`: VBASE − 1 mod 24, PBASE − 2 mod 8 (R129). -/
def Context.rotate (x : Context) : Context :=
  { x with vbase := ⟨(x.vbase.val + 23) % 24, Nat.mod_lt _ (by decide)⟩, pbase := ⟨(x.pbase.val + 3) % 4, Nat.mod_lt _ (by decide)⟩ }

/-- Gives a tile an owner; the Wain's giver is the bank, and a gated quarter begins to wake (R200, R204). -/
def Core.giveTile (k : Core) (t : Nat) (owner : BitVec 3) (giver : Bool) (now : Nat) : Core :=
  if h : t < 64 then
    let q : Fin 4 := ⟨t / 16, by omega⟩
    { k with tiles := k.tiles.set t { k.tiles[t] with owner := owner, giver := giver, since := now },
             quarters := if owner != 0 && k.quarters[q] == .gated then k.quarters.set q .waking else k.quarters }
  else k

/-- Deferred writes without the `cwr` words whose register a higher-placed `cwr` of the bundle writes too (R123). -/
def lastWrites : List Deferred → List Deferred
  | [] => []
  | d :: ds =>
    let rest := lastWrites ds
    match d with
    | .creg c _ => if ds.any (fun e => match e with | .creg c' _ => c' == c | _ => false) then rest else d :: rest
    | _ => d :: rest

/-- The writes that take effect from the next bundle (R20, R26, R203, R210): the rotation of `loop` first, so that an
explicit write of VBASE or PBASE stands; then the others in the order of their words, of two `cwr` to one register the
higher-placed alone (R123). -/
def Core.applyDeferred (k : Core) (now : Nat) : Core :=
  match k.ctx? k.bank with
  | none => k
  | some x =>
    let rot := x.deferred.filter fun d => d == .rotate
    let rest := lastWrites (x.deferred.filter fun d => d != .rotate)
    let k' := k.setCtx k.bank (some { (rot.foldl (fun y _ => y.rotate) x) with deferred := [] })
    rest.foldl (fun acc d =>
      match d with
      | .creg c w => acc.modCtx acc.bank fun y => y.controlWrite c w
      | .tokenSet t v => acc.modCtx acc.bank fun y => { y with k := y.k.set t.toFin ⟨v.zeroExtend 16, false, 0⟩ }
      | .tileGive t o => acc.giveTile t o acc.bank now
      | .rotate => acc) k'

/-- Where issue goes on after a bundle of `size` bytes (R99): after a delay bundle whose branch was taken, at the target;
else at the next word. `prior` is the decision of the branch bundle before this one. -/
def Context.advance (x : Context) (size : Nat) (prior : Option Delay) (hasBranch : Bool) : Context :=
  match prior with
  | some d =>
    if d.taken then { x with pc := d.target, landed := true, hact := x.hact && !d.tret, delay := none, delayBundle := [] }
    else { x with pc := x.pc + word size, landed := false, delay := none, delayBundle := [] }
  | none =>
    { x with pc := x.pc + word size, landed := false,
             delay := if hasBranch then some (x.delay.getD ⟨false, 0, false⟩) else none }

/-- A bundle whose checks have passed: the effects of its words, doubled destinations, deferred writes, and the address
of the next bundle. -/
def issueBundle (ex : Meaning) (is : List Instr) (s : State) : State :=
  let prior := s.ctx?.bind fun x => x.delay
  let s1 := s.modCtx fun x => { x with delay := none, waitHold := 0, begun := true }
  let s2 := runWords ex .act 0 is s1
  let named := match s.ctx? with | some x => is.zipIdx.map fun e => (e.2, x.engineNames e.1) | none => []
  let s3 := s2.modCore fun k => (k.settleDoubles named).applyDeferred s2.now
  s3.modCtx fun x => x.advance s.issue.size prior (is.any isBranch)

/-! ### The checks of a bundle in their order (R235) -/

/-- How a bundle of one core's current bank stands before its words are checked. -/
inductive Front where
  /-- The row of this address is absent: the core freezes (R230). -/
  | miss (a : Nat)
  /-- A trap of the steps 1 to 4 of R235. -/
  | trap (cause : BitVec 8) (pos : Nat) (tval : Word)
  /-- The bundle's instructions, and the words of its delay bundle when it is a branch bundle. -/
  | ready (is : List Instr) (delay : Option (List Instr))
  deriving DecidableEq, Repr

/-- The instructions of some words. -/
def instrsOf (ws : List (BitVec 32)) : List Instr := ws.filterMap instrOf

/-- Steps 1 to 4 of R235 for the bundle at the context's pc; a delay bundle was fetched and checked with its branch, and always
issues (R99, R100). -/
def front (k : Core) (x : Context) : Front :=
  match x.granaryErr, x.delay with
  | _, some _ => .ready x.delayBundle none
  | some e, none => .trap causeGranaryData 0 (word e.1)
  | none, none =>
    match k.fetch x.partId x.pc.toNat with
    | .miss a => .miss a
    | .words ws =>
      let after := x.pc.toNat + 4 * ws.length
      let branch := (instrsOf ws).any isBranch
      let delay := if branch then some (k.fetch x.partId after) else none
      match delay with
      | some (.miss a) => .miss a
      | _ =>
        match illegalPos ws with
        | some n => .trap causeIllegalBundle n (zext64 (ws.getD n 0))
        | none =>
          match delay with
          | some (.words ds) =>
            if delayIllegal ds then .trap causeIllegalBundle 0 (word after)
            else
              match undefinedPos ws with
              | some n => .trap causeUndefined n (zext64 (ws.getD n 0))
              | none => .ready (instrsOf ws) (some (instrsOf ds))
          | _ =>
            match undefinedPos ws with
            | some n => .trap causeUndefined n (zext64 (ws.getD n 0))
            | none => .ready (instrsOf ws) none

/-- Whether a check of the delay bundle's words fails in one phase, made as if the branch bundle had issued in its own bc
(R100). -/
def delayFails (ex : Meaning) (ph : Phase) (is ds : List Instr) (s : State) : Bool :=
  let after := issueBundle ex is s
  let next := after.modCore Core.endBc
  (runWords ex ph 0 ds { next with issue := { next.issue with stop := .none } }).issue.stop == .trapped

/-- Step 6 of R235: the schedule check of the delay bundle (R100). Its rounding words are checked for an illegal RMODE
there as well, the one check of their own that words of a delay bundle have, since no trap may be taken between a branch
and its delay bundle (R100, log entry 66): the cause, if one of the two fails. -/
def delayBreaks (ex : Meaning) (is ds : List Instr) (s : State) : Option (BitVec 8) :=
  if delayFails ex .sched is ds s then some causeSchedule
  else if delayFails ex .check is ds s then some causeMode
  else none

/-- The bundle that starts in a fresh issue record. -/
def State.startIssue (s : State) (x : Context) (n : Nat) (delay : Option (List Instr)) : State :=
  { s with issue := ⟨0, 4 * n, x.pc + word (4 * n + (match delay with | some ds => 4 * ds.length | none => 0)), .whole, .none⟩ }

/-- Whether an acquire of the fabric holds the bank's Wain and fabric words (R450). -/
def Context.acquires (x : Context) : Bool :=
  x.fabric.any fun f => (f.op.atomic || f.op == .sdec) && f.fs[3].getLsbD 0

/-- The hold of a Wain or fabric word behind an acquire (R450). -/
def acquireHold (x : Context) : Check := if x.acquires then .hold else .ok

/-- The Wain and fabric words (R91, R92). -/
def isEngineWord : Instr → Bool
  | .wnCopy .. | .wnGather .. | .wnScatter .. | .wnDecode .. | .wnEncode .. | .wnExpand .. | .wnFlush .. | .wnFar .. => true
  | .vspillM .. | .vfillM .. | .fxLd .. | .fxSt .. | .fxAdd .. | .fxMin .. | .fxMax .. | .fxSwap .. | .fxCas .. => true
  | .fxAnd .. | .fxOr .. | .fxFlush .. | .fxFence .. | .fxSdec .. => true
  | _ => false

/-- The words that keep their whole bundle from issuing before any of its words is checked (R208, R307, R357). -/
def holdsFirst : Instr → Bool
  | .wait .. | .waitr .. | .bar .. | .fence .. => true
  | _ => false

/-- A bundle that a word of it holds does not issue in this bc, and no word of it is checked (R208, R307, R357, R450). -/
def earlyHold (ex : Meaning) (is : List Instr) (s : State) : Option State :=
  if (match s.ctx? with | some x => x.acquires && is.any isEngineWord | none => false) then
    some { s with issue := { s.issue with stop := .held } }
  else
    is.zipIdx.findSome? fun p =>
      if holdsFirst p.1 then
        let t := applyMeaning ex p.1 { s with issue := { s.issue with pos := p.2, phase := .check } }
        if t.issue.stop = .held then some t else none
      else none

/-- Holds, then steps 5 and 6 of R235, then the issue of the bundle; a bundle that a check stops has no effect. -/
def checkAndIssue (ex : Meaning) (is : List Instr) (delay : Option (List Instr)) (s : State) : State :=
  match earlyHold ex is s with
  | some t => t
  | none =>
    let c := runWords ex .check 0 is s
    if c.issue.stop != .none then c
    else
      match delay with
      | some ds =>
        match delayBreaks ex is ds s with
        | some cause =>
          s.trap cause 0 (if cause = causeSchedule then word ((s.issue.after.toNat + 2 ^ 64 - 4 * ds.length) % 2 ^ 64) else 0)
        | none => (issueBundle ex is s).modCtx fun y => { y with delayBundle := ds }
      | none => issueBundle ex is s

/-! ### Drains, faults and switches (R237, R243-R245) -/

/-- Whether an engine item of the bank is held on an unanswered fault (R244). -/
def Context.hasHeldItem (x : Context) : Bool :=
  (x.wain.any fun w => w.held.isSome) ||
    x.fabric.any fun f => f.items.any fun i => match i.state with | .held _ => true | _ => false

/-- What follows once a bank has drained; a bank whose items have all been answered by then evaluates its `wait` again
(R244). -/
def Context.afterDrain (x : Context) : Drain → Context
  | .trap cause pos tval => x.enterTrap cause pos tval
  | .fault cause addr kind pos => { x with status := .faultWaiting cause addr kind pos }
  | .heldItem => { x with status := if x.hasHeldItem then .heldWaiting else .running }
  | .suspend a t => { x with status := .suspended a t }
  | .switch => { x with status := .running }

/-- Whether the bundle of the core's other bank would hold now (R245). -/
def State.otherHolds (ex : Meaning) (s : State) (y : Context) : Bool :=
  let t := s.modCore fun k => { k with bank := !k.bank }
  match front t.core y with
  | .ready is delay => (checkAndIssue ex is delay (t.startIssue y is.length delay)).issue.stop = .held
  | _ => false

/-- Whether the core's other bank is ready (R245): it has a task that is not fault-waiting, suspended or at its end, and that
does not hold where it held when it was switched out. -/
def State.otherReady (ex : Meaning) (s : State) : Bool :=
  match s.core.ctx? (!s.core.bank) with
  | some y =>
    (match y.status with | .running => !(y.outWait && s.otherHolds ex y) | .refused _ _ _ => true | _ => false)
  | none => false

/-- Whether the current bank cannot issue until something outside it happens: fault-waiting, suspended, or retired
(R245). -/
def Core.parked (k : Core) : Bool :=
  match k.ctx? k.bank with
  | none => true
  | some x => match x.status with | .faultWaiting _ _ _ _ | .heldWaiting | .suspended _ _ => true | _ => false

/-- The cases of R245 in which a drain comes before the switch, if the other bank is ready. -/
def Core.wantsSwitch (k : Core) : Bool :=
    match k.ctx? k.bank with
    | some x => x.status == .running && (256 ≤ x.waitHold ||
        (4096 ≤ k.sinceSwitch && (match k.ctx? (!k.bank) with | some y => y.outFaulted | none => false)))
    | none => false

/-- The bank that is switched out remembers why (R245). -/
def Core.toggle (k : Core) : Core :=
  let k' := k.modCtx k.bank fun x =>
    { x with outFaulted := (match x.status with | .faultWaiting _ _ _ _ | .heldWaiting => true | _ => false), outWait := x.status == .running && 256 ≤ x.waitHold, waitHold := 0 }
  { k' with bank := !k.bank, sinceSwitch := 0, switching := 0 }

/-- One clock of a switch of two (R245). -/
def Core.switchClock (k : Core) : Core :=
  if k.switching = 0 then { k.holdCycle with switching := 1 } else k.holdCycle.toggle

/-- A row enters the instruction store (R230): where 128 rows are there, the least recently issued unlocked row makes
room. The bc of its fill counts as the last issue of a row that nothing has issued from yet, and of rows that issued last
in one bc the one filled first goes (DESIGN CHOICE, log entry 67). -/
def Core.insertRow (k : Core) (r : IRow) : Core :=
  if k.istore.length < 128 then { k with istore := k.istore ++ [r] }
  else
    let free := k.istore.filter fun q => !q.lockA && !q.lockB
    match (free.map fun q => q.used).min? with
    | some u =>
      match k.istore.findIdx? fun q => !q.lockA && !q.lockB && q.used == u with
      | some n => { k with istore := k.istore.eraseIdx n ++ [r] }
      | none => k
    | none => k

/-- The partition of the bank that issues. -/
def Core.part (k : Core) : BitVec 4 := match k.ctx? k.bank with | some x => x.partId | none => 0

/-- The row fill of a core ends, and with it the freeze (R230): the row's lines come through the Barn; a translation that
faults is a synchronous page fault at the bundle being fetched (R243). -/
def State.istoreFill (s : State) (c : Fin 256) : State :=
  let k := s.cores[c]
  match k.missing, k.ctx? k.bank with
  | some a, some x =>
    let d := coreDie c
    let s1 := s.updCore c fun k => { k with missing := none }
    match s.syncAccess d x.partId x.extents (rowAddr a) 2048 .fetch with
    | .phys pa _ =>
      if s.memBad pa 2048 then
        s1.updCore c fun k => k.modCtx k.bank fun y => { y with status := .refused causeFetchFault (word a) 0 }
      else
        let s2 := (s1.cacheLeaf d x.partId a).touch pa 2048
        let row : IRow := ⟨rowAddr a, x.partId, BitVec.ofNat 16384 (s2.devNat pa 2048), false, false, k.bc, [x.kernel]⟩
        s2.updCore c fun k => k.insertRow row
    | .fault _ =>
      s1.updCore c fun k =>
        k.modCtx k.bank fun y => { y with status := .draining (.fault causeFetchFault (word a) 4 0) }
    | _ => s1.updCore c fun k => k.modCtx k.bank fun y => { y with status := .refused causeFetchFault (word a) 0 }
  | _, _ => s.updCore c fun k => { k with missing := none }

/-- A row is one of a kernel's (R334, log entry 19). -/
def IRow.addUser (r : IRow) (kernel : Nat) : IRow := if r.users.contains kernel then r else { r with users := kernel :: r.users }

/-- The rows a bundle is fetched from have now issued last, for its task's kernel (R230, R334). -/
def Core.touchRows (k : Core) (x : Context) (n : Nat) : Core :=
  let a := x.pc.toNat
  { k with istore := k.istore.map fun r =>
      if r.part == x.partId && (r.addr == rowAddr a || r.addr == rowAddr (a + n - 1)) then { r.addUser x.kernel with used := k.bc } else r }

/-- Whether the target bundle of a taken branch crosses into the next 64-byte block (R70). -/
def crossesBlock (x : Context) (n : Nat) : Bool := x.landed && x.pc.toNat / 64 != (x.pc.toNat + 4 * n - 1) / 64

/-! ### One clock of a core -/

/-- The clock in which a running bank issues, holds or takes a trap. Every hold of a bundle counts as a `wait` (R245, R308, R357,
R450). -/
def issueClock (ex : Meaning) (s : State) (x : Context) : State :=
  match front s.core x with
  | .miss a => s.modCore fun k => { k with missing := some a }
  | .trap cause pos tval => s.trap cause pos tval
  | .ready is delay =>
    if crossesBlock x is.length then s.modCore fun k => k.modCtx k.bank fun y => { y with landed := false }
    else
      let s1 := s.startIssue x is.length delay
      let s2 := checkAndIssue ex is delay s1
      match s2.issue.stop with
      | .none =>
        s2.modCore fun k => { (k.touchRows x (4 * is.length)).endBc with sinceSwitch := k.sinceSwitch + 1 }
      | .held =>
        let s3 := if x.hasHeldItem then s2.modCtx fun y => { y with status := .draining .heldItem }
          else s2.modCtx fun y => { y with waitHold := y.waitHold + 1 }
        s3.modCore Core.holdCycle
      | .trapped => s2

/-- The access of a KIND of R349. -/
def accessOf (kind : Nat) : Access := if kind = 1 then .read else if kind = 2 then .write else if kind = 3 then .atomic else .fetch

/-- A drained bank's synchronous fault goes to the fault service (R243); where the access translates by now, the bundle is
issued again. The access is that of the bundle: a whole row, or the 8 bytes of a signal (R230, R340). -/
def State.pageFault (s : State) (x : Context) (cause : BitVec 8) (addr : Word) (kind : BitVec 3) (pos : BitVec 4) : State :=
  let d := coreDie s.cur
  let fetch := accessOf kind.toNat == .fetch
  match s.translate d x.partId x.extents (if fetch then rowAddr addr.toNat else addr.toNat) (if fetch then 2048 else 8) (accessOf kind.toNat) with
  | .fault c =>
    (s.postFault d x.partId addr.toNat (accessOf kind.toNat) c).modCtx fun y => { y with status := .faultWaiting cause addr kind pos }
  | _ => s.modCtx fun y => { y with status := .running }

/-- The clock of a bank by its status. A drain before a switch ends with the switch if the other bank is still ready then
(R245). -/
def statusClock (ex : Meaning) (s : State) (x : Context) : State :=
  match x.status with
  | .draining why =>
    if x.drained then
      match why with
      | .switch =>
        let t := s.modCore fun k => k.modCtx k.bank fun y => y.afterDrain .switch
        if s.otherReady ex then t.modCore Core.switchClock else t
      | .fault cause addr kind pos => s.pageFault x cause addr kind pos
      | _ => s.modCtx fun y => y.afterDrain why
    else s.modCore Core.holdCycle
  | .refused cause addr pos => (s.modCtx fun y => { y with status := .running }).trap cause pos.toNat addr
  | .running =>
    if 0 < x.dly then s.modCore fun k => (k.modCtx k.bank fun y => { y with dly := y.dly - 1 }).holdCycle
    else issueClock ex s x
  | _ => s.modCore Core.holdCycle

/-- Whether a bank is about to issue a bundle or to pass an empty `dly` cycle (R248). -/
def Context.goesOn (x : Context) : Bool := match x.status with | .running | .refused _ _ _ => true | _ => false

/-- The clock of a bank: in the first in which it would issue again after a resume its latch entries begin to run
(R255). -/
def bankClock (ex : Meaning) (s : State) (x : Context) : State :=
  if x.goesOn then
    let t := s.modCore fun k => k.unlatch k.bank
    match t.ctx? with | some y => statusClock ex t y | none => t
  else statusClock ex s x

/-- The reason in `BankStatus.ending` of a cancelled task; 0 is `end`, 1 to 4 are those of R240. -/
def endCancelled : Nat := 9

/-- Whether a bank stands at a bundle boundary (R248): not between a branch and its delay bundle, not in the hold of R237 (a
drain towards a trap, a synchronous fault or a suspension), and its core not in a freeze, that of a waking quarter included
(R102). -/
def Core.atBoundary (k : Core) (bank : Bool) : Bool :=
  match k.ctx? bank with
  | some x =>
    x.delay.isNone && (match x.status with | .draining (.trap _ _ _) | .draining (.fault _ _ _ _) | .draining (.suspend _ _) => false | _ => true) &&
      k.freeze = 0 && k.missing.isNone && !k.wakeFreeze
  | none => false

/-- A cancelled task stops at a bundle boundary; a task whose `end` has issued, or that has failed, ends as it would have
(R327). -/
def Core.stopCancelled (k : Core) (bank : Bool) : Core :=
  match k.ctx? bank with
  | some x =>
    if x.cancel && k.atBoundary bank then
      match x.status with
      | .ending _ _ _ _ => k
      | _ => k.setCtx bank (some { x with status := .ending x.pc 0 0 endCancelled })
    else k
  | none => k

/-- Whether a bank's task has come to its end (R130, R240). -/
def Context.atEnd (x : Context) : Bool := match x.status with | .ending _ _ _ _ => true | _ => false

/-- Whether the issuing bank's pre-emption has begun: issue stops at the boundary, and no bc passes for the task (R249); a
task that has come to its end is not pre-empted any more. -/
def Core.preempting (k : Core) : Bool :=
  match k.ctx? k.bank with | some x => x.preempt && !x.atEnd && k.atBoundary k.bank | none => false

/-- The granary accesses of a bank that have not taken place take place now, bundle by bundle in issue order, reads before
writes (R249 step 2). -/
def Core.flushAccesses (k : Core) (bank : Bool) : Core :=
  [k.bc, k.bc + 1, k.bc + 2].foldl (fun acc t =>
    match acc.ctx? bank with
    | some y => (acc.setCtx bank (some ((y.doLoads acc t).doSources acc t))).doStores bank t
    | none => acc) k

/-- KIND of a latch entry (R250). -/
def latchKind : List RegWrite → BitVec 3
  | [.s _ _] => 0
  | [.v _ _ _] => 1
  | [.v _ _ _, .v _ _ _] => 2
  | [.p _ _ _] => 4
  | [.latches _] => 5
  | _ => 3

/-- REG of a latch entry (R250): the first register it writes. -/
def latchReg : List RegWrite → BitVec 5
  | .s n _ :: _ => n
  | .v n _ _ :: _ => n
  | .p q _ _ :: _ => BitVec.ofNat 5 (2 * q.toNat)
  | _ => 0

/-- Step 3 of R249: every result that has not landed goes into the latch bank, in issue order, and its flags into the flag
schedule (R250, R251); OFF 1 is the end of the bc in which the bank would have gone on. -/
def Core.latchResults (k : Core) (bank : Bool) : Core :=
  match k.ctx? bank with
  | none => k
  | some x =>
    let old := k.snap bank
    let rs := (x.pend.filter fun p => !p.writes.isEmpty).zipIdx
    let new := rs.map fun e =>
      (⟨latchReg e.1.writes, latchKind e.1.writes, BitVec.ofNat 5 (e.1.due + 1 - k.bc), BitVec.ofNat 3 e.1.pos,
        BitVec.ofNat 16 (old.entries.length + e.2), e.1.writes, e.1.checked⟩ : LatchEntry)
    let flags := Vector.ofFn fun n : Fin 15 =>
      (x.pend.filter fun p => p.due - k.bc == n.val).foldl (fun f p => f ||| p.flags) (old.flags.get n)
    (k.setCtx bank (some { x with pend := [] })).setSnap bank ⟨old.entries ++ new, flags⟩

/-- Steps 2 and 3 of R249: the accesses take place, and the results go to the latch bank; an access to a quarter that still wakes
waits for it (R205). -/
def Core.latchBank (k : Core) (bank : Bool) : Core :=
  match k.ctx? bank with
  | some x => if k.accessAwake x then (k.flushAccesses bank).latchResults bank else k
  | none => k

/-- Steps 1 to 3 of R249 for the bank that issues: from the boundary on no bc passes for its task. -/
def Core.stopForPreempt (k : Core) : Core :=
  match k.ctx? k.bank with
  | some x => if x.accessed && x.pend.isEmpty then k else k.latchBank k.bank
  | none => k

/-- Whether a bank's task has been cancelled (R327). -/
def Core.cancelled (k : Core) (bank : Bool) : Bool :=
  match k.ctx? bank with
  | some x => x.cancel || (match x.status with | .ending _ _ _ reason => reason == endCancelled | _ => false)
  | none => false

/-- Whether an engine's first access may come for a command issued in bc `issue` (R186, R203, R212): two bc have passed, or
the bank is being pre-empted and its accesses have all taken place (R249 steps 2 and 4). -/
def Core.engineMay (k : Core) (bank : Bool) (issue : Nat) : Bool :=
  decide (issue + 2 ≤ k.bc) || (k.preempting && (match k.ctx? bank with | some x => x.accessed | none => true))

/-- One clock of the current core: a freeze stops it (R102); a switch takes two hold clocks (R245); else the granary
accesses of this bc take place and the bank has its clock. -/
def coreClock (ex : Meaning) (s : State) : State :=
  let s := s.modCore fun k => k.stopCancelled k.bank
  let k := s.core
  if k.disabled && k.ctxA.isNone && k.ctxB.isNone then s
  else if 0 < k.freeze then s.modCore fun k => { k with freeze := k.freeze - 1 }
  else if k.missing.isSome || k.wakeFreeze then s
  else if k.preempting then s.modCore Core.stopForPreempt
  else
    let s1 := s.modCore Core.granaryAccess
    let k1 := s1.core
    if 0 < k1.switching then s1.modCore Core.switchClock
    else if k1.parked then
      if s1.otherReady ex then s1.modCore Core.switchClock else s1.modCore Core.holdCycle
    else
      match k1.ctx? k1.bank with
      | none => s1
      | some x =>
        if k1.wantsSwitch && x.delay.isNone && x.dly = 0 && s1.otherReady ex then
          if x.drained then s1.modCore Core.switchClock
          else s1.modCore fun k => (k.modCtx k.bank fun y => { y with status := .draining .switch }).holdCycle
        else bankClock ex s1 x

/-- One clock of a core by number; a frozen module has none (R420). -/
def clockOf (ex : Meaning) (c : Fin 256) (s : State) : State := if s.pkg.frz = 0 then coreClock ex { s with cur := c } else s

end Sys2Proof.Machine
end

