-- ==== Sys2Proof/Machine/Engine.lean ====
section
/-! DEFINITION. What the asynchronous engines of a core share: posts (R24, R207), tile returns (R183, R222), the owners
their commands need (R181, R221), and the form of the words that queue a command. -/
namespace Sys2Proof.Machine

/-- A completion adds 1 to a token; a failure sets ERR and, if ERR was 0, writes ECODE (R24). -/
def Token.post (k : Token) (ecode : BitVec 4) : Token :=
  ⟨k.count + 1, k.err || ecode != 0, if ecode != 0 && !k.err then ecode else k.ecode⟩

/-- A post to a context in the order of R207, tile returns apart: register writes, flags, and the token. -/
def Context.post (x : Context) (token : BitVec 5) (ecode : BitVec 4) (flags : Flags) (ws : List RegWrite) : Context :=
  let y := (x.writes ws).raise flags
  { y with k := y.k.set token.toFin (y.k[token.toFin].post ecode) }

/-- Gives each listed tile an owner (R183, R222). -/
def Core.giveTiles (k : Core) (ts : List Nat) (owner : BitVec 3) (giver : Bool) (now : Nat) : Core :=
  ts.foldl (fun acc t => acc.giveTile t owner giver now) k

/-- The tiles that some spans touch, each once. -/
def tilesOf (spans : List (Nat × Nat)) : List Nat :=
  (spans.flatMap fun p =>
    if p.2 = 0 then [] else (List.range (tileOf (p.1 + p.2 - 1) - tileOf p.1 + 1)).map fun j => tileOf p.1 + j).eraseDups

/-- The memory-model trap of the first listed tile that is not `good` (R181, R221, R446). Where several touched tiles fail,
TVAL names the first in the order in which the command's spans touch them, a choice of the model (log entry 68). -/
def tileCheck (ts : List Nat) (good : Nat → Bool) : Check :=
  match ts.find? fun t => !good t with
  | some t => .trap causeModel (word (24576 * t))
  | none => .ok

/-- The lowest code whose condition holds (R182, R221, R446). -/
def lowestCode (conds : List (Nat × Bool)) : Option Nat := ((conds.filter fun c => c.2).map fun c => c.1).min?

/-- A command trap with the lowest code that holds. -/
def codeCheck (cause : BitVec 8) (conds : List (Nat × Bool)) : Check :=
  match lowestCode conds with | some c => .trap cause (word c) | none => .ok

/-- An engine's read of some bytes, or none where a word of them is in error (R199) or lies in a tile that the engine does
not own any more (R201, log entry 69). -/
def Core.readBytes (k : Core) (own : Tile → Bool) (a n : Nat) : Option (List Byte) :=
  if (tilesOf [(a, n)]).all fun t => own (k.tile t) then
    match firstBad k.badWords a n fun _ => true with
    | some _ => none
    | none => some (readCells k.granary a n)
  else none

/-- An engine's write of whole bytes, and whether it met a word in error (R458) or a tile that the engine does not own any
more, which it leaves alone (R201, log entry 69). -/
def Core.writeEngine (k : Core) (own : Tile → Bool) (cells : List Host.Cell) : Core × Bool :=
  let mine := cells.filter fun c => own (k.tile (tileOf c.1))
  let r := k.write (wholeBytes mine)
  (r.1, r.2.isSome || decide (mine.length < cells.length))

/-- The tiles of the matrix engine (R201). -/
def matrixOwns (t : Tile) : Bool := t.owner == 3

/-- The tiles of the Wain (R201). -/
def wainOwns (t : Tile) : Bool := t.owner == 4

/-- The tiles that fabric inbound has from a bank (R201). -/
def fabricOwns (bank : Bool) (t : Tile) : Bool := t.owner == 6 && t.giver == bank

/-- Whether every quarter that some tiles lie in is awake: an engine access waits until it is (R205). -/
def Core.awake (k : Core) (ts : List Nat) : Bool :=
  ts.all fun t => k.quarters[(⟨t / 16 % 4, Nat.mod_lt _ (by decide)⟩ : Fin 4)] == .awake

/-- Removes the first element that satisfies a condition. -/
def dropFirst {α : Type} (p : α → Bool) : List α → List α
  | [] => []
  | a :: as => if p a then as else a :: dropFirst p as

/-- Changes the element at a place. -/
def updAt {α : Type} (f : α → α) : Nat → List α → List α
  | _, [] => []
  | 0, a :: as => f a :: as
  | n + 1, a :: as => a :: updAt f n as

/-- The meaning of an event: while the module is frozen nothing of it happens (R420). -/
def runEvent (f : State → State) (s : State) : Out := .next (if s.pkg.frz = 0 then f s else s)

/-- The meaning of a management event: the service island keeps running in a freeze (R420). -/
def runService (f : State → State) (s : State) : Out := .next (f s)

/-- The meaning of a management event of a unit that a failed boot leaves unloaded: the device then offers CXL.io, SPDM and the
recovery upload region alone (R415). -/
def runLoaded (f : State → State) : State → Out := runService fun s => if s.pkg.halted then s else f s

end Sys2Proof.Machine
end

