-- ==== Sys2Proof/Machine/Blocks.lean ====
section
/-! DEFINITION. Error feedback over a row of stored elements (R53) and block-scaled E2M1: the header's scale (R55),
decoding (R56) and the quantise procedure (R57, R161). -/
namespace Sys2Proof.Machine

/-- Final rounding of the stored elements of one block, in ascending index (R52, R53): under RNE-EF each result's
residual goes into the next stored element through carry in the register type `t`; a masked element (none) passes it
on. A residual of zero adds nothing, the sign of a zero included (R165, log entry 83). Codes with the flags each raises. -/
def roundRow (f t : FFmt) (m : RMode) : FVal → List (Option FVal) → List (Option (Nat × Flags))
  | _, [] => []
  | res, none :: rest => none :: roundRow f t m res rest
  | res, some x :: rest =>
    let c := if m = .rneEf && !res.isZero then carried t (carry t (x.add res).1) else x
    let y := final f m c
    let v := valueOf f y.1
    let res' : FVal :=
      if m = .rneEf && !v.isNan && !v.isInf && (y.2 &&& flagOF) == 0 then (c.sub v).1 else .fin false 0 0
    some y :: roundRow f t m res' rest

/-- The stored elements of one block from its first element on, which takes no residual (R53). -/
def roundBlock (f t : FFmt) (m : RMode) : List (Option FVal) → List (Option (Nat × Flags))
  | [] => []
  | none :: rest => none :: roundBlock f t m rest
  | some x :: rest =>
    let y := final f m x
    let v := valueOf f y.1
    let res : FVal :=
      if m = .rneEf && !v.isNan && !v.isInf && (y.2 &&& flagOF) == 0 then (x.sub v).1 else .fin false 0 0
    some y :: roundRow f t m res rest

/-- A block header: SEXP 31:24, SFRAC 23:8, XVAL 7:0 (R55). -/
abbrev Header := BitVec 32

/-- SEXP of a header. -/
def Header.sexp (h : Header) : Nat := bitsOf h.toNat 24 8
/-- SFRAC of a header. -/
def Header.sfrac (h : Header) : Nat := bitsOf h.toNat 8 16
/-- XVAL of a header. -/
def Header.xval (h : Header) : Nat := bitsOf h.toNat 0 8

/-- The value of a UE8M16 scale (R55): zero for SEXP 0, NaN for 255. -/
def scaleVal (sexp sfrac : Nat) : FVal :=
  if sexp = 0 then .fin false 0 0
  else if sexp = 255 then .nan
  else .fin false (2 ^ 16 + sfrac) ((sexp : Int) - 127 - 16)

/-- The element value of an E2M1 code in a block before scaling: X for code 1000 (R190). -/
def blockElem (h : Header) (code : Nat) : FVal :=
  if code % 16 = 8 then valueOf .e4m3 h.xval else valueOf .e2m1 (code % 16)

/-- The decoded value of an element of a block (R56). -/
def blockDecode (h : Header) (code : Nat) : FVal :=
  if h.sexp = 255 then .nan
  else if h.sexp = 0 then .fin false 0 0
  else if code % 16 = 8 && (h.xval = 0 || h.xval = 128) then .fin false 0 0
  else ((blockElem h code).mul (scaleVal h.sexp h.sfrac)).1

/-- A magnitude without its sign. -/
def FVal.fabs : FVal → FVal
  | .nan => .nan
  | .inf _ => .inf false
  | .fin _ m e => .fin false m e

/-- The largest magnitude of some values, with the lowest index that has it (R57). -/
def maxMag : Nat → List FVal → FVal × Nat → FVal × Nat
  | _, [], best => best
  | n, v :: vs, best => maxMag (n + 1) vs (if best.1.flt v.fabs then (v.fabs, n) else best)

/-- The least UE8M16 value that is at least max(base / 6, 2^-126), as SEXP and SFRAC (R57). -/
def leastScale (mag : Nat) (exp : Int) : Nat × Nat :=
  let e : Int := ((mag * 2 ^ 80 / 6).log2 : Int) - 80 + exp
  if e < -126 then (1, 0)
  else
    let d := exp - e + 16
    let n := if 0 ≤ d then (mag * 2 ^ d.toNat + 5) / 6 else (mag + 6 * 2 ^ (-d).toNat - 1) / (6 * 2 ^ (-d).toNat)
    if n < 2 ^ 17 then ((e + 127).toNat, n - 2 ^ 16) else ((e + 128).toNat, 0)

/-- What the quantise procedure finds before its element loop: scale, X, the outlier's index, the NaN case and the flags
(R57, R160). -/
structure QHead where
  sexp : Nat
  sfrac : Nat
  xv : Nat
  oidx : Nat
  nanb : Bool
  flags : Flags
  deriving DecidableEq, Repr

/-- The header part of the quantise procedure over 32 carried FP32 values (R57); the place of the outlier of a block with a NaN or an
infinity, which the procedure does not reach, is put as 0 (log entry 81). -/
def quantHead (vs : List FVal) : QHead :=
  if vs.any fun v => v.isNan || v.isInf then ⟨255, 0, 0, 0, true, flagNV⟩
  else
    let m1 := maxMag 0 vs (.fin false 0 0, 0)
    let o := m1.2
    let m2 := maxMag 0 (vs.eraseIdx o) (.fin false 0 0, 0)
    if m1.1.isZero then ⟨0, 0, 0, 0, false, 0⟩
    else
      let base := if m2.1.isZero then m1.1 else m2.1
      let sc := match base with | .fin _ m e => leastScale m e | _ => (0, 0)
      let qo := carried .f32 (fdivElem .f32 (vs.getD o .nan) (scaleVal sc.1 sc.2)).1
      if (FVal.fin false 6 0).flt qo.fabs then
        let x := final .e4m3 .rne qo
        ⟨sc.1, sc.2, x.1, o, false, if (x.2 &&& flagOF) != 0 then flagOF ||| flagNX else 0⟩
      else ⟨sc.1, sc.2, 0, o, false, 0⟩

/-- The element loop of the quantise procedure (R57, with the NaN and infinite elements of R161): codes and flags. A NaN or an infinity
at the outlier's place is coded 1000 and raises no flag (log entry 81). -/
def quantCodes (m : RMode) (scale : FVal) (xv oidx : Nat) : Nat → FVal → List FVal → List (Nat × Flags)
  | _, _, [] => []
  | i, res, v :: rest =>
    let zero : FVal := .fin false 0 0
    let q := carried .f32 (fdivElem .f32 v scale).1
    if i = oidx && xv != 0 then
      let res' := if m = .rneEf && !q.isNan && !q.isInf then (q.sub (valueOf .e4m3 xv)).1 else zero
      (8, 0) :: quantCodes m scale xv oidx (i + 1) res' rest
    else if v.isNan then (0, flagNV) :: quantCodes m scale xv oidx (i + 1) zero rest
    else if v.isInf then
      (final .e2m1 m.single v) :: quantCodes m scale xv oidx (i + 1) zero rest
    else
      let c := carried .f32 (carry .f32 (q.add res).1)
      let y := final .e2m1 m.single c
      let code := if y.1 = 8 then 0 else y.1
      let res' := if m = .rneEf && (y.2 &&& flagOF) == 0 then (c.sub (valueOf .e2m1 y.1)).1 else zero
      (code, y.2) :: quantCodes m scale xv oidx (i + 1) res' rest

/-- The header word of a quantised block. -/
def packHeader (sexp sfrac xv : Nat) : Header := BitVec.ofNat 32 (sexp * 2 ^ 24 + sfrac * 2 ^ 8 + xv)

/-- A run of 4-bit codes as a number, element 0 lowest (R42). -/
def packNibbles (cs : List Nat) : Nat := cs.foldr (fun c acc => acc * 16 + c % 16) 0

/-- A whole quantised block (R57): its codes, its header and the flags. -/
def quantise (m : RMode) (vs : List FVal) : List Nat × Header × Flags :=
  let h := quantHead vs
  if h.nanb then (List.replicate 32 0, packHeader 255 0 0, h.flags)
  else if h.sexp = 0 then (List.replicate 32 0, 0, h.flags)
  else
    let cs := quantCodes m (scaleVal h.sexp h.sfrac) h.xv h.oidx 0 (.fin false 0 0) vs
    (cs.map (·.1), packHeader h.sexp h.sfrac h.xv, cs.foldl (fun acc c => acc ||| c.2) h.flags)

end Sys2Proof.Machine
end

