-- ==== Sys2Proof/Machine/Special.lean ====
section
/-! DEFINITION. The special functions of R157 and R158: carry(f(x), T) of the exact mathematical value, and the table of
special operands. Roots and reciprocals are computed exactly with a sticky bit. The transcendental functions are
enclosed between two dyadic numbers, in fixed point with outward rounding, at rising precision, until both ends have the
same last place at p + 2 bits; the exact value then lies strictly between two neighbours, and rounding to odd is
decided (R48). Where the precisions tried do not decide, the result is a free value (log entry 7). -/
namespace Sys2Proof.Machine

/-- An enclosure in units of 2^-n. -/
structure Iv where
  lo : Int
  hi : Int
  deriving DecidableEq, Repr

/-- Division rounded up, by a positive number. -/
def cdiv (a d : Int) : Int := -((-a) / d)

/-- The enclosure of an exact integer number of units. -/
def Iv.exact (a : Int) : Iv := ⟨a, a⟩

/-- Sum. -/
def Iv.add (a b : Iv) : Iv := ⟨a.lo + b.lo, a.hi + b.hi⟩

/-- Negation. -/
def Iv.neg (a : Iv) : Iv := ⟨-a.hi, -a.lo⟩

/-- Difference. -/
def Iv.sub (a b : Iv) : Iv := a.add b.neg

/-- An enclosure made wider by `k` units on each side. -/
def Iv.widen (a : Iv) (k : Int) : Iv := ⟨a.lo - k, a.hi + k⟩

/-- Product of two enclosures in units of 2^-n. -/
def Iv.mul (n : Nat) (a b : Iv) : Iv :=
  let p1 := a.lo * b.lo
  let p2 := a.lo * b.hi
  let p3 := a.hi * b.lo
  let p4 := a.hi * b.hi
  ⟨min (min p1 p2) (min p3 p4) / 2 ^ n, cdiv (max (max p1 p2) (max p3 p4)) (2 ^ n)⟩

/-- Division by a positive whole number. -/
def Iv.divNat (a : Iv) (d : Nat) : Iv := ⟨a.lo / (d : Int), cdiv a.hi d⟩

/-- Quotient by an enclosure whose ends are positive. -/
def Iv.div (n : Nat) (a b : Iv) : Iv :=
  ⟨a.lo * 2 ^ n / (if 0 ≤ a.lo then b.hi else b.lo), cdiv (a.hi * 2 ^ n) (if 0 ≤ a.hi then b.lo else b.hi)⟩

/-- The largest magnitude of an enclosure. -/
def Iv.mag (a : Iv) : Nat := max a.lo.natAbs a.hi.natAbs

/-- The exact number num / den in units of 2^-n. -/
def Iv.ofRat (n num den : Nat) : Iv := ⟨(num * 2 ^ n / den : Nat), cdiv (num * 2 ^ n : Nat) den⟩

/-- Taylor series of e^t for |t| at most 1: `k` the next index, `term` t^k / k!. Once a term is at most one unit the
rest is below two. -/
def expLoop (n : Nat) (t : Iv) : Nat → Nat → Iv → Iv → Iv
  | 0, _, term, acc => acc.widen (2 * term.mag + 2)
  | fuel + 1, k, term, acc =>
    if term.mag ≤ 1 && 2 ≤ k then acc.widen 4
    else expLoop n t fuel (k + 1) ((Iv.mul n term t).divNat (k + 1)) (acc.add term)

/-- e^t for |t| at most 1. -/
def expSmall (n : Nat) (t : Iv) : Iv := expLoop n t (n + 16) 0 (Iv.exact (2 ^ n)) (Iv.exact 0)

/-- Σ z^(2k+1) / (2k+1), alternating when `alt`, for |z| at most 1/2: `p` is the power. -/
def atanLoop (n : Nat) (z2 : Iv) (alt : Bool) : Nat → Nat → Iv → Iv → Iv
  | 0, _, p, acc => acc.widen (2 * p.mag + 2)
  | fuel + 1, k, p, acc =>
    if p.mag ≤ 1 then acc.widen 4
    else
      let term := p.divNat (2 * k + 1)
      atanLoop n z2 alt fuel (k + 1) (Iv.mul n p z2) (if alt && k % 2 == 1 then acc.sub term else acc.add term)

/-- The inverse hyperbolic tangent of z. -/
def atanhIv (n : Nat) (z : Iv) : Iv := atanLoop n (Iv.mul n z z) false (n + 8) 0 z (Iv.exact 0)

/-- The inverse tangent of 1/d. -/
def atanInv (n d : Nat) : Iv :=
  let z := Iv.ofRat n 1 d
  atanLoop n (Iv.mul n z z) true (n + 8) 0 z (Iv.exact 0)

/-- ln 2 = 2 artanh (1/3). -/
def ln2Iv (n : Nat) : Iv := let a := atanhIv n (Iv.ofRat n 1 3); a.add a

/-- π = 16 arctan (1/5) − 4 arctan (1/239). -/
def piIv (n : Nat) : Iv :=
  let a := atanInv n 5
  let b := atanInv n 239
  (Iv.mul n ⟨16 * 2 ^ n, 16 * 2 ^ n⟩ a).sub (Iv.mul n ⟨4 * 2 ^ n, 4 * 2 ^ n⟩ b)

/-- Taylor series of sine (odd) or cosine: `j` is the index of `term`'s power. -/
def sinLoop (n : Nat) (r2 : Iv) : Nat → Nat → Iv → Iv → Iv
  | 0, _, term, acc => acc.widen (2 * term.mag + 2)
  | fuel + 1, j, term, acc =>
    if term.mag ≤ 1 then acc.widen 4
    else sinLoop n r2 fuel (j + 2) ((Iv.mul n term r2).divNat ((j + 1) * (j + 2))).neg (acc.add term)

/-- The sine of r, |r| at most 2. -/
def sinIv (n : Nat) (r : Iv) : Iv := sinLoop n (Iv.mul n r r) (n + 8) 1 r (Iv.exact 0)

/-- The cosine of r, |r| at most 2. -/
def cosIv (n : Nat) (r : Iv) : Iv := sinLoop n (Iv.mul n r r) (n + 8) 0 (Iv.exact (2 ^ n)) (Iv.exact 0)

/-- Σ (−1)^k x^(2k+1) / (k! (2k+1)): `p` is (−1)^k x^(2k+1) / k!. The terms fall once k exceeds x². -/
def erfLoop (n : Nat) (x2 : Iv) : Nat → Nat → Iv → Iv → Iv
  | 0, _, p, acc => acc.widen (2 * p.mag + 2)
  | fuel + 1, k, p, acc =>
    if p.mag ≤ 1 && 256 < k then acc.widen 4
    else erfLoop n x2 fuel (k + 1) ((Iv.mul n p x2).divNat (k + 1)).neg (acc.add (p.divNat (2 * k + 1)))

/-- The square root of a positive enclosure. -/
def Iv.sqrt (n : Nat) (a : Iv) : Iv := ⟨isqrt (a.lo.toNat * 2 ^ n), isqrt (a.hi.toNat * 2 ^ n) + 1⟩

/-- A magnitude mag × 2^exp in units of 2^-n. -/
def Iv.ofFin (n : Nat) (mag : Nat) (exp : Int) : Iv :=
  let s := splitAt mag exp (-(n : Int))
  ⟨s.1, s.1 + (if s.2.1 = 0 then 0 else 1)⟩

/-- The functions of R157. -/
inductive SpecialFn where
  | rcp | rsqrt | sqrt | exp2 | log2 | exp | log | sin | cos | tanh | sigm | erf
  deriving DecidableEq, Repr

/-- e^y for an enclosure y, as an enclosure of e^(y − k ln 2) and the power k of two. -/
def expScaled (n : Nat) (y : Iv) : Iv × Int :=
  let l := ln2Iv n
  let k := y.lo / l.lo
  (expSmall n (y.sub ⟨min (k * l.lo) (k * l.hi), max (k * l.lo) (k * l.hi)⟩), k)

/-- ln of a positive mag × 2^exp. -/
def lnIv (n mag : Nat) (exp : Int) : Iv :=
  let l := mag.log2
  let z := Iv.ofRat n (mag - 2 ^ l) (mag + 2 ^ l)
  let a := atanhIv n z
  let e : Int := exp + l
  let two := ln2Iv n
  (a.add a).add ⟨min (e * two.lo) (e * two.hi), max (e * two.lo) (e * two.hi)⟩

/-- An enclosure of the exact value at precision n, with the power of two that scales it: the sign, the bounds of the
magnitude in units of 2^-n × 2^scale. -/
structure Enclosure where
  neg : Bool
  lo : Int
  hi : Int
  units : Int
  deriving DecidableEq, Repr

/-- An enclosure from a signed interval; none while the sign is open. -/
def Enclosure.ofIv (a : Iv) (units : Int) : Option Enclosure :=
  if 0 < a.lo then some ⟨false, a.lo, a.hi, units⟩
  else if a.hi < 0 then some ⟨true, -a.hi, -a.lo, units⟩
  else none

/-- Sine or cosine with exact argument reduction: x = k π/2 + r. -/
def trigEnclosure (n : Nat) (isCos : Bool) (neg : Bool) (mag : Nat) (exp : Int) : Option Enclosure :=
  let top := (log2Floor mag exp).toNat + 2
  let m := n + top
  let x := Iv.ofFin m mag exp
  let half := (piIv m).divNat 2
  let k := x.lo / half.hi
  let r := x.sub ⟨k * half.lo, k * half.hi⟩
  let q := ((k % 4).toNat + (if isCos then 1 else 0)) % 4
  let v := if q % 2 == 0 then sinIv m r else cosIv m r
  let v := if 2 ≤ q then v.neg else v
  Enclosure.ofIv (if neg && !isCos then v.neg else v) (-(m : Int))

/-- An enclosure of the function's value at a finite non-zero operand, at precision n. -/
def encloseAt (n : Nat) (f : SpecialFn) (neg : Bool) (mag : Nat) (exp : Int) : Option Enclosure :=
  let fx := Iv.ofFin n mag exp
  let x := if neg then fx.neg else fx
  match f with
  | .exp2 =>
    let k := x.lo / 2 ^ n
    let e := expSmall n (Iv.mul n (x.sub (Iv.exact (k * 2 ^ n))) (ln2Iv n))
    Enclosure.ofIv e (k - n)
  | .exp => let e := expScaled n x; Enclosure.ofIv e.1 (e.2 - n)
  | .log => Enclosure.ofIv (lnIv n mag exp) (-(n : Int))
  | .log2 => Enclosure.ofIv (Iv.div n (lnIv n mag exp) (ln2Iv n)) (-(n : Int))
  | .sin => trigEnclosure n false neg mag exp
  | .cos => trigEnclosure n true neg mag exp
  | .tanh =>
    if 6 ≤ log2Floor mag exp then some ⟨neg, 2 ^ 160 - 1, 2 ^ 160, -160⟩
    else
      let e := expScaled n (fx.add fx)
      let one := Iv.exact (2 ^ n)
      let v : Iv := ⟨e.1.lo * 2 ^ e.2.toNat, e.1.hi * 2 ^ e.2.toNat⟩
      (Enclosure.ofIv (Iv.div n (v.sub one) (v.add one)) (-(n : Int))).map fun r => { r with neg := neg }
  | .sigm =>
    let one := Iv.exact (2 ^ n)
    if neg then
      -- e^x / (1 + e^x), e^x = v × 2^k with k ≤ 0
      let e := expScaled n x
      let d := one.add ⟨e.1.lo / 2 ^ (-e.2).toNat, cdiv e.1.hi (2 ^ (-e.2).toNat)⟩
      Enclosure.ofIv (Iv.div n e.1 d) (e.2 - n)
    else if 7 ≤ log2Floor mag exp then some ⟨false, 2 ^ 160 - 1, 2 ^ 160, -160⟩
    else
      let e := expScaled n fx.neg
      let d := one.add ⟨e.1.lo / 2 ^ (-e.2).toNat, cdiv e.1.hi (2 ^ (-e.2).toNat)⟩
      Enclosure.ofIv (Iv.div n one d) (-(n : Int))
  | .erf =>
    if 4 ≤ log2Floor mag exp then some ⟨neg, 2 ^ 160 - 1, 2 ^ 160, -160⟩
    else
      let m := n + 768
      let y := Iv.ofFin m mag exp
      let sum := erfLoop m (Iv.mul m y y) (m + 1024) 0 y (Iv.exact 0)
      let s := Iv.sqrt m (piIv m)
      (Enclosure.ofIv (Iv.div m (sum.add sum) s) (-(m : Int))).map fun r => { r with neg := neg }
  | _ => none

/-- The element an enclosure decides, when both ends lie in one unit of the (p+2)-th bit: rounded to odd (R48). -/
def decideElem (f : FFmt) (r : Enclosure) : Option Elem :=
  let lo := r.lo.toNat
  let e := max (log2Floor lo r.units) f.emin
  let q := e - f.prec - 1
  let a := scaleTo lo r.units q
  let b := scaleTo r.hi.toNat r.units q
  if a.1 == b.1 || (a.1 + 1 == b.1 && !b.2) then some (carryFin f r.neg lo r.units true) else none

/-- Tries the precisions in turn. -/
def decideAt (fn : SpecialFn) (f : FFmt) (neg : Bool) (mag : Nat) (exp : Int) : List Nat → Option Elem
  | [] => none
  | n :: ns =>
    match (encloseAt n fn neg mag exp).bind (decideElem f) with
    | some e => some e
    | none => decideAt fn f neg mag exp ns

/-- The number of a function, for the free fallback. -/
def SpecialFn.num : SpecialFn → Nat
  | .rcp => 0 | .rsqrt => 1 | .sqrt => 2 | .exp2 => 3 | .log2 => 4 | .exp => 5 | .log => 6 | .sin => 7 | .cos => 8
  | .tanh => 9 | .sigm => 10 | .erf => 11

/-- The number of a format, for the free fallback. -/
def FFmt.num : FFmt → Nat
  | .f32 => 0 | .f16 => 1 | .bf16 => 2 | .e4m3 => 3 | .e5m2 => 4 | .e2m1 => 5

/-- The value that the precisions decide, else the free value. -/
def specialTry (fn : SpecialFn) (f : FFmt) (x : Elem) (neg : Bool) (mag : Nat) (exp : Int) : Elem :=
  (decideAt fn f neg mag exp [96, 256, 640, 1280]).getD
    (let r := Config.specialFallback fn.num f.num x.code x.tail
     ⟨r.1 % 2 ^ f.width, r.2 % 4⟩)

/-- The general rule of R157 for a finite non-zero operand: exact cases first, results outside the carried range next,
then the enclosure. -/
def specialFinite (fn : SpecialFn) (f : FFmt) (x : Elem) (neg : Bool) (mag : Nat) (exp : Int) : Elem :=
  let huge := decide (10 ≤ log2Floor mag exp)
  let tiny := carryFin f false 1 (-4000) false
  let big := carryFin f false 1 4000 false
  match fn with
  | .rcp =>
    let k := f.prec + 5 + mag.log2
    carryFin f neg (2 ^ k / mag) (-exp - k) (2 ^ k % mag != 0)
  | .rsqrt =>
    let odd := exp % 2 != 0
    let mag := if odd then 2 * mag else mag
    let exp := if odd then exp - 1 else exp
    let k := f.prec + 6 + mag.log2
    let r := isqrt (2 ^ (2 * k) / mag)
    carryFin f false r (-(exp / 2) - k) (r * r * mag != 2 ^ (2 * k))
  | .sqrt => (fsqrtElem f (.fin neg mag exp)).1
  | .exp2 =>
    if huge then (if neg then tiny else big)
    else
      let s := splitAt mag exp 0
      if s.2.1 == 0 then carryFin f false 1 (if neg then -(s.1 : Int) else s.1) false else specialTry fn f x neg mag exp
  | .exp => if huge then (if neg then tiny else big) else specialTry fn f x neg mag exp
  | .log => if mag == 2 ^ mag.log2 && exp + mag.log2 == 0 then ⟨0, 0⟩ else specialTry fn f x neg mag exp
  | .log2 => if mag == 2 ^ mag.log2 then carry f (FVal.ofInt (exp + mag.log2)) else specialTry fn f x neg mag exp
  | .sigm => if huge && neg then tiny else specialTry fn f x neg mag exp
  | _ => specialTry fn f x neg mag exp

/-- A special function of one element with its flags (R157, R158). -/
def specialElem (fn : SpecialFn) (f : FFmt) (x : Elem) : Elem × Flags :=
  let nan : Elem := ⟨f.nanCode, 0⟩
  let one := carry f (.fin false 1 0)
  match carried f x with
  | .nan => (nan, 0)
  | .inf neg =>
    match fn with
    | .rcp => (carry f (.fin neg 0 0), 0)
    | .rsqrt => if neg then (nan, flagNV) else (⟨0, 0⟩, 0)
    | .sqrt => if neg then (nan, flagNV) else (carry f (.inf false), 0)
    | .exp2 | .exp => if neg then (⟨0, 0⟩, 0) else (carry f (.inf false), 0)
    | .log2 | .log => if neg then (nan, flagNV) else (carry f (.inf false), 0)
    | .sin | .cos => (nan, 0)
    | .tanh | .erf => (carry f (.fin neg 1 0), 0)
    | .sigm => if neg then (⟨0, 0⟩, 0) else (one, 0)
  | .fin neg mag exp =>
    if mag == 0 then
      match fn with
      | .rcp | .rsqrt => (carry f (.inf neg), flagDZ)
      | .sqrt | .sin | .tanh | .erf => (carry f (.fin neg 0 0), 0)
      | .exp2 | .exp | .cos => (one, 0)
      | .log2 | .log => (carry f (.inf true), flagDZ)
      | .sigm => (carry f (.fin false 1 (-1)), 0)
    else if neg && (fn == .rsqrt || fn == .sqrt || fn == .log2 || fn == .log) then (nan, flagNV)
    else (specialFinite fn f x neg mag exp, 0)

end Sys2Proof.Machine
end

