-- ==== Sys2Proof/Machine/Vector.lean ====
section
/-! DEFINITION. The vector words of spec/05_vector_and_special_function.md: integer and floating elements, reductions,
compares and predicate logic, select, move and rearrangement, widening (R136-R152). -/
namespace Sys2Proof.Machine

/-! ### Elements -/

/-- The element width of an integer code (R78). -/
def intWidth (ty : BitVec 3) : Nat :=
  match ty with
  | 0#3 => 4 | 1#3 => 8 | 2#3 => 16 | 3#3 => 32 | 4#3 => 8 | 5#3 => 16 | _ => 32

/-- Whether an integer code is signed (R78). -/
def intSigned (ty : BitVec 3) : Bool := ty.toNat < 4

/-- The element width of a size code (R78). -/
def sizeWidth (sz : BitVec 3) : Nat :=
  match sz with | 0#3 => 4 | 1#3 => 8 | 2#3 => 16 | _ => 32

/-- An element read as signed or unsigned by its type (R41, R141). -/
def intOf (ty : BitVec 3) (code : Nat) : Int :=
  if intSigned ty then toSigned (intWidth ty) code else (code % 2 ^ intWidth ty : Nat)

/-- The smallest and largest value of an integer type (R41). -/
def intRange (ty : BitVec 3) : Int × Int :=
  if intSigned ty then (-2 ^ (intWidth ty - 1), 2 ^ (intWidth ty - 1) - 1) else (0, 2 ^ intWidth ty - 1)

/-- A value clamped to the range of a type (R141). -/
def clampInt (ty : BitVec 3) (a : Int) : Int := max (intRange ty).1 (min (intRange ty).2 a)

/-- Element i of a vector name as an integer of a type. -/
def Context.vint (x : Context) (ty : BitVec 3) (r : BitVec 5) (i : Nat) : Int :=
  intOf ty ((x.vget r).elem (intWidth ty) i).code

/-- Element i of a vector name as a carried value of a format. -/
def Context.velem (x : Context) (f : FFmt) (r : BitVec 5) (i : Nat) : FVal := carried f ((x.vget r).elem f.width i)

/-- The guard bit that governs element i of width w: its lowest byte lane (R137). -/
def enOf (p : PData) (w i : Nat) : Bool := laneOn p (i * w / 8)

/-- One result element for each enabled place of width w (R138), with the flags of all together (R142). -/
def mapElems (p : PData) (w : Nat) (f : Nat → Elem × Flags) : (VVal × VVal) × Flags :=
  let es := (List.range (4096 / w)).map fun i => if enOf p w i then some (f i) else none
  (buildV w (es.map fun e => e.map (·.1)), orFlags (es.filterMap fun e => e.map (·.2)))

/-- The shift right of R141 on element codes. -/
def shiftRight (ty : BitVec 3) (a c : Nat) : Nat :=
  let w := intWidth ty
  if intSigned ty then ofSigned w (toSigned w a / 2 ^ min c w) else if w ≤ c then 0 else a / 2 ^ c

/-- An element code with its sign bit complemented (R143). -/
def flipSign (f : FFmt) (c : Nat) : Nat := c ^^^ 2 ^ (f.width - 1)

/-- An element code with its sign bit cleared (R143). -/
def clearSign (f : FFmt) (c : Nat) : Nat := c % 2 ^ (f.width - 1)

/-! ### Shared forms -/

/-- A word with one vector result in vd. -/
def vectorWord (g : BitVec 4) (reads : List Name) (vd : BitVec 5) (lat : Nat)
    (f : Context → (VVal × VVal) × Flags) (s : State) : Out :=
  runWord ⟨.lanes g, reads, [(.v vd, lat)]⟩ noCheck
    (fun _ x s => s.result lat [.v (x.vPhys vd) (f x).1.1 (f x).1.2] (f x).2) s

/-- An integer element result (R139: tail 00). -/
def intElem (w : Nat) (a : Int) : Elem × Flags := (⟨ofSigned w a, 0⟩, 0)

/-- Two integer sources (R141). -/
def intBin (g : BitVec 4) (ty : BitVec 3) (vd va vb : BitVec 5) (lat : Nat) (f : Int → Int → Int) : State → Out :=
  vectorWord g [.v va, .v vb] vd lat fun x =>
    mapElems (x.guard g) (intWidth ty) fun i => intElem (intWidth ty) (f (x.vint ty va i) (x.vint ty vb i))

/-- One integer source (R141). -/
def intUn (g : BitVec 4) (ty : BitVec 3) (vd va : BitVec 5) (lat : Nat) (f : Int → Int) : State → Out :=
  vectorWord g [.v va] vd lat fun x =>
    mapElems (x.guard g) (intWidth ty) fun i => intElem (intWidth ty) (f (x.vint ty va i))

/-- Two sources as bit patterns (R141). -/
def bitBin (g : BitVec 4) (ty : BitVec 3) (vd va vb : BitVec 5) (f : Nat → Nat → Nat) : State → Out :=
  vectorWord g [.v va, .v vb] vd 2 fun x =>
    mapElems (x.guard g) (intWidth ty) fun i =>
      (⟨f ((x.vget va).elem (intWidth ty) i).code ((x.vget vb).elem (intWidth ty) i).code, 0⟩, 0)

/-- A word with one floating result element a place (R142). -/
def floatWord (g : BitVec 4) (ty : BitVec 3) (vd : BitVec 5) (srcs : List (BitVec 5)) (lat : Nat)
    (f : Context → Nat → Elem × Flags) : State → Out :=
  vectorWord g (srcs.map .v) vd lat fun x => mapElems (x.guard g) (floatFmt ty).width (f x)

/-- A reduction (R152): the whole of vd is written, the result in element 0 of width `wd`, whatever the guard. -/
def reduceWord (g : BitVec 4) (vd va : BitVec 5) (lat w wd : Nat) (f : List Elem → Elem × Flags) : State → Out :=
  vectorWord g [.v va] vd lat fun x =>
    let es := ((List.range (4096 / w)).filter fun i => enOf (x.guard g) w i).map fun i => (x.vget va).elem w i
    let r := f es
    (((buildV wd [some r.1]).1, fullMask), r.2)

/-- The exact sum of carried elements (R152): NV when +∞ and −∞ are both there; −0 only when every addend is −0; +0 for
none. Where a NaN stands beside both infinities R152 says both that NV is raised and that a NaN is silent: the model
raises NV (DESIGN CHOICE, log entry 73). -/
def sumAll (vs : List FVal) : FVal × Flags :=
  let pos := vs.any fun v => v == .inf false
  let neg := vs.any fun v => v == .inf true
  if pos && neg then (.nan, flagNV)
  else if vs.any FVal.isNan then (.nan, 0)
  else
    match vs with
    | [] => (.fin false 0 0, 0)
    | v :: rest => (rest.foldl (fun acc x => (acc.add x).1) v, 0)

/-- What repeated minimum or maximum in ascending index leaves (R152). -/
def foldMinMax (f : FFmt) (isMax : Bool) (es : List Elem) : Elem :=
  match es with
  | [] => ⟨f.nanCode, 0⟩
  | e :: rest =>
    let r := rest.foldl (fun acc x => fminmaxElem f isMax acc x) e
    if (carried f r).isNan then ⟨f.nanCode, 0⟩ else r

/-- The byte lanes of a compare (R144): the element's result in all its lanes; for 4-bit elements the AND of the two
elements of the byte. -/
def compareLanes (w : Nat) (r : Nat → Bool) : PData :=
  let bits : List Bool :=
    if w = 4 then (List.range 512).map fun j => r (2 * j) && r (2 * j + 1)
    else (List.range (4096 / w)).flatMap fun i => List.replicate (w / 8) (r i)
  BitVec.ofNat 512 (bits.foldr (fun b acc => 2 * acc + (if b then 1 else 0)) 0)

/-- The byte lanes of the enabled elements of width w. -/
def elemLanes (p : PData) (w : Nat) : PData := compareLanes w fun i => enOf p w i

/-- The pair a predicate name stands for (R22, R87). -/
def Context.pairOf (x : Context) (vd : BitVec 5) : BitVec 3 := BitVec.ofNat 3 (x.pPhys vd.toNat / 2)

/-- A compare to a predicate pair (R144). -/
def compareWord (g : BitVec 4) (vd va vb : BitVec 5) (w : Nat) (f : Context → Nat → Bool) : State → Out :=
  runWord ⟨.lanes g, [.v va, .v vb], [(.p vd.toNat, 2)]⟩ noCheck fun _ x s =>
    s.result 2 [.p (x.pairOf vd) (compareLanes w (f x)) (elemLanes (x.guard g) w)] 0

/-- Predicate logic (R145). -/
def predWord (g : BitVec 4) (vd va vb : BitVec 5) (f : PData → PData → PData) : State → Out :=
  runWord ⟨.lanes g, [.p va.toNat, .p vb.toNat], [(.p vd.toNat, 2)]⟩ noCheck fun _ x s =>
    s.result 2 [.p (x.pairOf vd) (f (x.pget va.toNat) (x.pget vb.toNat)) (x.guard g)] 0

/-- Whole elements moved from places chosen by index (R139, R146-R149). -/
def moveWord (g : BitVec 4) (sz : BitVec 3) (reads : List Name) (vd : BitVec 5) (lat : Nat)
    (f : Context → Nat → Elem) : State → Out :=
  vectorWord g reads vd lat fun x => mapElems (x.guard g) (sizeWidth sz) fun i => (f x i, 0)

/-! ### Integer and logic operations (R141) -/

/-- R141: a + b modulo 2^w. -/
def execVadd (g : BitVec 4) (ty : BitVec 3) (vd va vb : BitVec 5) : State → Out :=
  intBin g ty vd va vb 2 fun a b => a + b

/-- R141: a − b modulo 2^w. -/
def execVsub (g : BitVec 4) (ty : BitVec 3) (vd va vb : BitVec 5) : State → Out :=
  intBin g ty vd va vb 2 fun a b => a - b

/-- R141: the low w bits of a × b. -/
def execVmul (g : BitVec 4) (ty : BitVec 3) (vd va vb : BitVec 5) : State → Out :=
  intBin g ty vd va vb 4 fun a b => a * b

/-- R141: the high w bits of the 2w-bit product. -/
def execVmulh (g : BitVec 4) (ty : BitVec 3) (vd va vb : BitVec 5) : State → Out :=
  intBin g ty vd va vb 4 fun a b => a * b / 2 ^ intWidth ty

/-- R141: a + b clamped to the range of T. -/
def execVsadd (g : BitVec 4) (ty : BitVec 3) (vd va vb : BitVec 5) : State → Out :=
  intBin g ty vd va vb 2 fun a b => clampInt ty (a + b)

/-- R141: a − b clamped to the range of T. -/
def execVssub (g : BitVec 4) (ty : BitVec 3) (vd va vb : BitVec 5) : State → Out :=
  intBin g ty vd va vb 2 fun a b => clampInt ty (a - b)

/-- R141: the magnitude of a; the smallest value of T stays itself. -/
def execVabs (g : BitVec 4) (ty : BitVec 3) (vd va : BitVec 5) : State → Out :=
  intUn g ty vd va 2 fun a => (a.natAbs : Int)

/-- R141: 0 − a; the smallest value of T stays itself. -/
def execVneg (g : BitVec 4) (ty : BitVec 3) (vd va : BitVec 5) : State → Out :=
  intUn g ty vd va 2 fun a => -a

/-- R141: bitwise AND. -/
def execVand (g : BitVec 4) (ty : BitVec 3) (vd va vb : BitVec 5) : State → Out :=
  bitBin g ty vd va vb fun a b => a &&& b

/-- R141: bitwise OR. -/
def execVor (g : BitVec 4) (ty : BitVec 3) (vd va vb : BitVec 5) : State → Out :=
  bitBin g ty vd va vb fun a b => a ||| b

/-- R141: bitwise exclusive OR. -/
def execVxor (g : BitVec 4) (ty : BitVec 3) (vd va vb : BitVec 5) : State → Out :=
  bitBin g ty vd va vb fun a b => a ^^^ b

/-- R141: a AND NOT b. -/
def execVandn (g : BitVec 4) (ty : BitVec 3) (vd va vb : BitVec 5) : State → Out :=
  bitBin g ty vd va vb fun a b => a &&& (b ^^^ (2 ^ intWidth ty - 1))

/-- R141: a shifted left by c, element i of vb read as unsigned; 0 if c ≥ w. -/
def execVshl (g : BitVec 4) (ty : BitVec 3) (vd va vb : BitVec 5) : State → Out :=
  bitBin g ty vd va vb fun a c => if intWidth ty ≤ c then 0 else a * 2 ^ c

/-- R141: a shifted right by c: sign fill for i types, zero fill for n types. -/
def execVshr (g : BitVec 4) (ty : BitVec 3) (vd va vb : BitVec 5) : State → Out :=
  bitBin g ty vd va vb fun a c => shiftRight ty a c

/-- R141: the smaller of a and b. -/
def execVmin (g : BitVec 4) (ty : BitVec 3) (vd va vb : BitVec 5) : State → Out :=
  intBin g ty vd va vb 2 fun a b => min a b

/-- R141: the larger of a and b. -/
def execVmax (g : BitVec 4) (ty : BitVec 3) (vd va vb : BitVec 5) : State → Out :=
  intBin g ty vd va vb 2 fun a b => max a b

/-! ### Floating arithmetic (R142, R143) -/

/-- R142: carry(x + y, T). -/
def execVfadd (g : BitVec 4) (ty : BitVec 3) (vd va vb : BitVec 5) : State → Out :=
  floatWord g ty vd [va, vb] 4 fun x i => carryOp (floatFmt ty) ((x.velem (floatFmt ty) va i).add (x.velem (floatFmt ty) vb i))

/-- R142: carry(x − y, T). -/
def execVfsub (g : BitVec 4) (ty : BitVec 3) (vd va vb : BitVec 5) : State → Out :=
  floatWord g ty vd [va, vb] 4 fun x i => carryOp (floatFmt ty) ((x.velem (floatFmt ty) va i).sub (x.velem (floatFmt ty) vb i))

/-- R142: carry(x × y, T). -/
def execVfmul (g : BitVec 4) (ty : BitVec 3) (vd va vb : BitVec 5) : State → Out :=
  floatWord g ty vd [va, vb] 4 fun x i => carryOp (floatFmt ty) ((x.velem (floatFmt ty) va i).mul (x.velem (floatFmt ty) vb i))

/-- R142: carry(z + x × y, T), one rounding; vd is a source. -/
def execVfma (g : BitVec 4) (ty : BitVec 3) (vd va vb : BitVec 5) : State → Out :=
  floatWord g ty vd [vd, va, vb] 4 fun x i => carryOp (floatFmt ty) ((x.velem (floatFmt ty) vd i).fma (x.velem (floatFmt ty) va i) (x.velem (floatFmt ty) vb i))

/-- R142: carry(z − x × y, T), one rounding; vd is a source. -/
def execVfms (g : BitVec 4) (ty : BitVec 3) (vd va vb : BitVec 5) : State → Out :=
  floatWord g ty vd [vd, va, vb] 4 fun x i => carryOp (floatFmt ty) ((x.velem (floatFmt ty) vd i).fma (x.velem (floatFmt ty) va i).negate (x.velem (floatFmt ty) vb i))

/-- R143: as `fmin` (R119), va in the role of rs. -/
def execVfmin (g : BitVec 4) (ty : BitVec 3) (vd va vb : BitVec 5) : State → Out :=
  floatWord g ty vd [va, vb] 2 fun x i =>
    (fminmaxElem (floatFmt ty) false ((x.vget va).elem (floatFmt ty).width i) ((x.vget vb).elem (floatFmt ty).width i), 0)

/-- R143: as `fmax` (R119), va in the role of rs. -/
def execVfmax (g : BitVec 4) (ty : BitVec 3) (vd va vb : BitVec 5) : State → Out :=
  floatWord g ty vd [va, vb] 2 fun x i =>
    (fminmaxElem (floatFmt ty) true ((x.vget va).elem (floatFmt ty).width i) ((x.vget vb).elem (floatFmt ty).width i), 0)

/-- R143: the sign bit complemented; every other bit and the tail kept. -/
def execVfneg (g : BitVec 4) (ty : BitVec 3) (vd va : BitVec 5) : State → Out :=
  floatWord g ty vd [va] 2 fun x i =>
    let e := (x.vget va).elem (floatFmt ty).width i
    (⟨flipSign (floatFmt ty) e.code, e.tail⟩, 0)

/-- R143: the sign bit cleared; every other bit and the tail kept. -/
def execVfabs (g : BitVec 4) (ty : BitVec 3) (vd va : BitVec 5) : State → Out :=
  floatWord g ty vd [va] 2 fun x i =>
    let e := (x.vget va).elem (floatFmt ty).width i
    (⟨clearSign (floatFmt ty) e.code, e.tail⟩, 0)

/-! ### Reductions (R152) -/

/-- R152: carry of the exact sum of the enabled elements, rounded once. -/
def execVfredsum (g : BitVec 4) (ty : BitVec 3) (vd va : BitVec 5) : State → Out :=
  reduceWord g vd va 8 (floatFmt ty).width (floatFmt ty).width fun es =>
    carryOp (floatFmt ty) (sumAll (es.map (carried (floatFmt ty))))

/-- R152: what `vfmax` in ascending index leaves of the enabled elements. -/
def execVfredmax (g : BitVec 4) (ty : BitVec 3) (vd va : BitVec 5) : State → Out :=
  reduceWord g vd va 4 (floatFmt ty).width (floatFmt ty).width fun es =>
    (foldMinMax (floatFmt ty) true es, 0)

/-- R152: what `vfmin` in ascending index leaves of the enabled elements. -/
def execVfredmin (g : BitVec 4) (ty : BitVec 3) (vd va : BitVec 5) : State → Out :=
  reduceWord g vd va 4 (floatFmt ty).width (floatFmt ty).width fun es =>
    (foldMinMax (floatFmt ty) false es, 0)

/-- R152: the exact sum modulo 2^32, as a 32-bit element. -/
def execVredsum (g : BitVec 4) (ty : BitVec 3) (vd va : BitVec 5) : State → Out :=
  reduceWord g vd va 4 (intWidth ty) 32 fun es =>
    (⟨ofSigned 32 (es.foldl (fun acc e => acc + intOf ty e.code) 0), 0⟩, 0)

/-- R152: the largest enabled element as a 32-bit element; the smallest value of T if none is enabled. -/
def execVredmax (g : BitVec 4) (ty : BitVec 3) (vd va : BitVec 5) : State → Out :=
  reduceWord g vd va 4 (intWidth ty) 32 fun es =>
    (⟨ofSigned 32 (es.foldl (fun acc e => max acc (intOf ty e.code)) (intRange ty).1), 0⟩, 0)

/-- R152: the smallest enabled element as a 32-bit element; the largest value of T if none is enabled. -/
def execVredmin (g : BitVec 4) (ty : BitVec 3) (vd va : BitVec 5) : State → Out :=
  reduceWord g vd va 4 (intWidth ty) 32 fun es =>
    (⟨ofSigned 32 (es.foldl (fun acc e => min acc (intOf ty e.code)) (intRange ty).2), 0⟩, 0)

/-! ### Compares and predicate logic (R144, R145) -/

/-- R144: a = b, signed or unsigned by T. -/
def execVceq (g : BitVec 4) (ty : BitVec 3) (vd va vb : BitVec 5) : State → Out :=
  compareWord g vd va vb (intWidth ty) fun x i =>
    let a := x.vint ty va i
    let b := x.vint ty vb i
    a == b

/-- R144: a ≠ b, signed or unsigned by T. -/
def execVcne (g : BitVec 4) (ty : BitVec 3) (vd va vb : BitVec 5) : State → Out :=
  compareWord g vd va vb (intWidth ty) fun x i =>
    let a := x.vint ty va i
    let b := x.vint ty vb i
    a != b

/-- R144: a < b, signed or unsigned by T. -/
def execVclt (g : BitVec 4) (ty : BitVec 3) (vd va vb : BitVec 5) : State → Out :=
  compareWord g vd va vb (intWidth ty) fun x i =>
    let a := x.vint ty va i
    let b := x.vint ty vb i
    decide (a < b)

/-- R144: a ≤ b, signed or unsigned by T. -/
def execVcle (g : BitVec 4) (ty : BitVec 3) (vd va vb : BitVec 5) : State → Out :=
  compareWord g vd va vb (intWidth ty) fun x i =>
    let a := x.vint ty va i
    let b := x.vint ty vb i
    decide (a ≤ b)

/-- R144: x = y on carried values (R61). -/
def execVfceq (g : BitVec 4) (ty : BitVec 3) (vd va vb : BitVec 5) : State → Out :=
  compareWord g vd va vb (floatFmt ty).width fun x i => (x.velem (floatFmt ty) va i).feq (x.velem (floatFmt ty) vb i)

/-- R144: x < y on carried values (R61). -/
def execVfclt (g : BitVec 4) (ty : BitVec 3) (vd va vb : BitVec 5) : State → Out :=
  compareWord g vd va vb (floatFmt ty).width fun x i => (x.velem (floatFmt ty) va i).flt (x.velem (floatFmt ty) vb i)

/-- R144: x ≤ y on carried values (R61). -/
def execVfcle (g : BitVec 4) (ty : BitVec 3) (vd va vb : BitVec 5) : State → Out :=
  compareWord g vd va vb (floatFmt ty).width fun x i => (x.velem (floatFmt ty) va i).fle (x.velem (floatFmt ty) vb i)

/-- R144: true when either operand is NaN. -/
def execVfcun (g : BitVec 4) (ty : BitVec 3) (vd va vb : BitVec 5) : State → Out :=
  compareWord g vd va vb (floatFmt ty).width fun x i => (x.velem (floatFmt ty) va i).isNan || (x.velem (floatFmt ty) vb i).isNan

/-- R145: pa AND pb, in the enabled byte lanes. -/
def execPand (g : BitVec 4) (vd va vb : BitVec 5) : State → Out :=
  predWord g vd va vb fun a b => a &&& b

/-- R145: pa OR pb, in the enabled byte lanes. -/
def execPor (g : BitVec 4) (vd va vb : BitVec 5) : State → Out :=
  predWord g vd va vb fun a b => a ||| b

/-- R145: pa exclusive OR pb, in the enabled byte lanes. -/
def execPxor (g : BitVec 4) (vd va vb : BitVec 5) : State → Out :=
  predWord g vd va vb fun a b => a ^^^ b

/-- R145: pa AND NOT pb, in the enabled byte lanes. -/
def execPandn (g : BitVec 4) (vd va vb : BitVec 5) : State → Out :=
  predWord g vd va vb fun a b => a &&& ~~~b

/-! ### Select, move and rearrangement (R146-R149) -/

/-- R146: every element of vd from va where the guard is 1, else from vb. -/
def execVsel (g : BitVec 4) (sz : BitVec 3) (vd va vb : BitVec 5) : State → Out :=
  vectorWord g [.v va, .v vb] vd 2 fun x =>
    mapElems allLanes (sizeWidth sz) fun i =>
      ((if enOf (x.guard g) (sizeWidth sz) i then x.vget va else x.vget vb).elem (sizeWidth sz) i, 0)

/-- R147: element chosen by an index in vb; bytes within the same 256-byte half; 4-bit elements as bytes, each nibble with
its own tail, as R139 says of a moved element, and not the one pair of a byte element of R17 (DESIGN CHOICE, log entry
74). -/
def execVperm (g : BitVec 4) (sz : BitVec 3) (vd va vb : BitVec 5) : State → Out :=
  if 16 ≤ sizeWidth sz then
    moveWord g sz [.v va, .v vb] vd 3 fun x i =>
      (x.vget va).elem (sizeWidth sz) (((x.vget vb).elem (sizeWidth sz) i).code % (4096 / sizeWidth sz))
  else if sizeWidth sz = 8 then
    moveWord g sz [.v va, .v vb] vd 3 fun x i =>
      (x.vget va).elem 8 (256 * (i / 256) + ((x.vget vb).elem 8 i).code)
  else
    moveWord g sz [.v va, .v vb] vd 3 fun x i =>
      (x.vget va).elem 4 (2 * (256 * (i / 512) + ((x.vget vb).elem 8 (i / 2)).code) + i % 2)

/-- R148: the lower halves interleaved. -/
def execVzip (g : BitVec 4) (sz : BitVec 3) (vd va vb : BitVec 5) : State → Out :=
  moveWord g sz [.v va, .v vb] vd 3 fun x i =>
    (if i % 2 = 0 then x.vget va else x.vget vb).elem (sizeWidth sz) (i / 2)

/-- R148: the even elements gathered. -/
def execVunzip (g : BitVec 4) (sz : BitVec 3) (vd va vb : BitVec 5) : State → Out :=
  moveWord g sz [.v va, .v vb] vd 3 fun x i =>
    let half := 4096 / sizeWidth sz / 2
    if i < half then (x.vget va).elem (sizeWidth sz) (2 * i) else (x.vget vb).elem (sizeWidth sz) (2 * (i - half))

/-- R149: rotated down by s[rs] mod n elements. -/
def execVrot (g : BitVec 4) (sz : BitVec 3) (vd va rs : BitVec 5) : State → Out :=
  moveWord g sz [.v va, .s rs] vd 3 fun x i =>
    let n := 4096 / sizeWidth sz
    (x.vget va).elem (sizeWidth sz) ((i + (x.sdata rs).toNat % n) % n)

/-- The low w bits of a scalar with its tail (R149). -/
def Context.lowElem (x : Context) (rs : BitVec 5) (w : Nat) : Elem :=
  ⟨(x.sdata rs).toNat % 2 ^ w, (x.sget rs).tail.toNat⟩

/-- R149: the low bits of a scalar, with its tail, to every enabled element. -/
def execVbcast (g : BitVec 4) (sz : BitVec 3) (vd rs : BitVec 5) : State → Out :=
  moveWord g sz [.s rs] vd 3 fun x _ => x.lowElem rs (sizeWidth sz)

/-- R149: element s[rs] mod n, with its tail, to scalar vd; unchanged when that element is masked off. -/
def execVext (g : BitVec 4) (sz : BitVec 3) (vd va rs : BitVec 5) : State → Out :=
  runWord ⟨.lanes g, [.v va, .s rs], [(.s vd, 3)]⟩ noCheck fun _ x s =>
    let j := (x.sdata rs).toNat % (4096 / sizeWidth sz)
    if enOf (x.guard g) (sizeWidth sz) j then s.sresult 3 vd (floatVal ((x.vget va).elem (sizeWidth sz) j)) 0 else s

/-- R149: the low bits of scalar va, with its tail, into element s[rs] mod n. -/
def execVins (g : BitVec 4) (sz : BitVec 3) (vd va rs : BitVec 5) : State → Out :=
  vectorWord g [.s va, .s rs] vd 3 fun x =>
    let w := sizeWidth sz
    let j := (x.sdata rs).toNat % (4096 / w)
    (buildV w ((List.range (4096 / w)).map fun i =>
      if i = j && enOf (x.guard g) w i then some (x.lowElem va w) else none), 0)

/-- R146: each enabled element copied with its tail. -/
def execVmov (g : BitVec 4) (sz : BitVec 3) (vd va : BitVec 5) : State → Out :=
  moveWord g sz [.v va] vd 2 fun x i => (x.vget va).elem (sizeWidth sz) i

/-! ### Widening (R140, R150, R151) -/

/-- The writes of a group of m registers at vd: source element i goes to element i div m of register vd + i mod m
(R140). `r` gives the result of each source element that is written. -/
def groupWrites (x : Context) (vd : BitVec 5) (m wd : Nat) (r : Nat → Option Elem) : List RegWrite :=
  (List.range m).map fun j =>
    let b := buildV wd ((List.range (4096 / wd)).map fun e => r (e * m + j))
    .v (x.vPhys (vd + BitVec.ofNat 5 j)) b.1 b.2

/-- Widening integer sum or product (R150). A destination pair that shares a pair with a source holds, in each written
element, its result or its old value, which the spec leaves open (log entry 6). -/
def widenWord (g : BitVec 4) (ty : BitVec 3) (vd va vb : BitVec 5) (lat : Nat) (f : Int → Int → Int) : State → Out :=
  runWord ⟨.lanes g, [.v va, .v vb], [(.v vd, lat), (.v (vd + 1), lat)]⟩ noCheck fun _ x s =>
    let w := intWidth ty
    let clash := vd.toNat / 2 == va.toNat / 2 || vd.toNat / 2 == vb.toNat / 2
    let r (i : Nat) : Option Elem :=
      if !enOf (x.guard g) w i || (clash && Config.freeChoice (s.free * 1024 + i)) then none
      else some ⟨ofSigned (2 * w) (f (x.vint ty va i) (x.vint ty vb i)), 0⟩
    (if clash then s.draw else s).result lat (groupWrites x vd 2 (2 * w) r) 0

/-- R150: the exact sum in 2w bits. -/
def execVwadd (g : BitVec 4) (ty : BitVec 3) (vd va vb : BitVec 5) : State → Out :=
  widenWord g ty vd va vb 2 fun a b => a + b

/-- R150: the exact product in 2w bits. -/
def execVwmul (g : BitVec 4) (ty : BitVec 3) (vd va vb : BitVec 5) : State → Out :=
  widenWord g ty vd va vb 4 fun a b => a * b

/-- R151: accumulator pair of f32 plus the product, one rounding. -/
def execVfwma (g : BitVec 4) (ty : BitVec 3) (vd va vb : BitVec 5) : State → Out :=
  runWord ⟨.lanes g, [.v vd, .v (vd + 1), .v va, .v vb], [(.v vd, 4), (.v (vd + 1), 4)]⟩ noCheck fun _ x s =>
    let r (i : Nat) : Elem × Flags :=
      carryOp .f32 ((x.velem .f32 (vd + BitVec.ofNat 5 (i % 2)) (i / 2)).fma
        (x.velem (floatFmt ty) va i) (x.velem (floatFmt ty) vb i))
    let rs := (List.range 256).map fun i => if enOf (x.guard g) 16 i then some (r i) else none
    s.result 4 (groupWrites x vd 2 32 fun i => (rs.getD i none).map (·.1)) (orFlags (rs.filterMap fun e => e.map (·.2)))

end Sys2Proof.Machine
end

