-- ==== Sys2Proof/Machine/FClass.lean ====
section
/-! DEFINITION. The F words (R88): conversions (R153, R154), the quantise idiom (R159-R162), division and special functions
(R157, R158), rounding and scaling (R155, R156). -/
namespace Sys2Proof.Machine

/-! ### Conversions -/

/-- The float format of a unified code (R79), if it names one. -/
def unifiedFloat (c : BitVec 5) : Option FFmt :=
  match c.toNat with
  | 0 => some .f32 | 1 => some .f16 | 2 => some .bf16 | 3 => some .e4m3 | 4 => some .e5m2 | 5 => some .e2m1
  | _ => none

/-- Whether a unified code names a signed integer (R79). -/
def unifiedSigned (c : BitVec 5) : Bool := 8 ≤ c.toNat && c.toNat ≤ 12

/-- The exact value of a source element of a unified type (R154). -/
def sourceValue (sty : BitVec 5) (e : Elem) : FVal :=
  match unifiedFloat sty with
  | some f => carried f e
  | none =>
    let w := unifiedWidth sty
    FVal.ofInt (if unifiedSigned sty then toSigned w e.code else (e.code % 2 ^ w : Nat))

/-- A conversion of elements of width `ws` at va into elements of width `wd` at vd (R140, R153). -/
def convertWord (g : BitVec 4) (vd va : BitVec 5) (wd ws : Nat) (own : State → Core → Context → Check)
    (f : Context → Elem → Elem × Flags) : State → Out :=
  if ws ≤ wd then
    let m := wd / ws
    runWord ⟨.lanes g, [.v va], (List.range m).map fun j => (.v (vd + BitVec.ofNat 5 j), 3)⟩ own fun _ x s =>
      let rs := (List.range (4096 / ws)).map fun i =>
        if enOf (x.guard g) ws i then some (f x ((x.vget va).elem ws i)) else none
      s.result 3 (groupWrites x vd m wd fun i => (rs.getD i none).map (·.1)) (orFlags (rs.filterMap fun e => e.map (·.2)))
  else
    let m := ws / wd
    runWord ⟨.lanes g, (List.range m).map fun j => .v (va + BitVec.ofNat 5 j), [(.v vd, 3)]⟩ own fun _ x s =>
      let r := mapElems (x.guard g) wd fun i => f x ((x.vget (va + BitVec.ofNat 5 (i % m))).elem ws (i / m))
      s.result 3 [.v (x.vPhys vd) r.1.1 r.1.2] r.2

/-- R153, R154: to a floating destination by carry. -/
def execVcvtFloat (g : BitVec 4) (fmt : BitVec 3) (vd va sty : BitVec 5) : State → Out :=
  convertWord g vd va (floatFmt fmt).width (unifiedWidth sty) noCheck fun _ e =>
    (carry (floatFmt fmt) (sourceValue sty e), 0)

/-- R153, R154: to an integer destination, rounding with RMODE (R59). -/
def execVcvtInt (g : BitVec 4) (fmt : BitVec 3) (vd va sty : BitVec 5) : State → Out :=
  convertWord g vd va (intWidth fmt) (unifiedWidth sty) (fun _ _ x => modeCheck x) fun x e =>
    let r := toIntClamp (storeMode x) (intRange fmt).1 (intRange fmt).2 (sourceValue sty e)
    (⟨ofSigned (intWidth fmt) r.1, 0⟩, r.2)

/-! ### The quantise idiom (R159-R161) -/

/-- The 32 carried FP32 values of block b (R160). -/
def Context.block (x : Context) (va : BitVec 5) (b : Nat) : List FVal :=
  (List.range 32).map fun j => x.velem .f32 va (32 * b + j)

/-- Whether the guard lets a word process block b (R160). -/
def blockOn (p : PData) (b : Nat) : Bool := laneOn p (128 * b)

/-- The latch entry of a block's header part (R159, R160). -/
def latchOf (h : QHead) : Latch :=
  ⟨BitVec.ofNat 24 (h.sexp * 2 ^ 16 + h.sfrac), BitVec.ofNat 8 h.xv, BitVec.ofNat 5 h.oidx, h.nanb⟩

/-- R160: measures four blocks and sets the quantise latches, exactly 3 bc later. -/
def execQmax (g : BitVec 4) (va : BitVec 5) : State → Out :=
  runWord ⟨.lanes g, [.v va], [(.latch, 3)]⟩ noCheck fun _ x s =>
    let p := x.guard g
    let hs := (List.range 4).map fun b => if blockOn p b then some (quantHead (x.block va b)) else none
    s.result 3 [.latches (hs.map fun h => h.map latchOf)] (orFlags (hs.filterMap fun h => h.map (·.flags)))

/-- The 20-byte image of a processed block from its latch entry, with the flags (R161). -/
def blockImage (m : RMode) (l : Latch) (vs : List FVal) : List Byte × Flags :=
  let sexp := l.scale.toNat / 2 ^ 16
  let sfrac := l.scale.toNat % 2 ^ 16
  if l.nanb then (List.replicate 16 0 ++ leBytes 4 (packHeader 255 0 0).toNat, 0)
  else if sexp = 0 then (List.replicate 20 0, 0)
  else
    let cs := quantCodes m (scaleVal sexp sfrac) l.xv.toNat l.oidx.toNat 0 (.fin false 0 0) vs
    (leBytes 16 (packNibbles (cs.map (·.1))) ++ leBytes 4 (packHeader sexp sfrac l.xv.toNat).toNat,
      orFlags (cs.map (·.2)))

/-- R161: codes and headers of four blocks from the latches; bytes 80 to 511 and every tail become 0. -/
def execQcvt (g : BitVec 4) (vd va : BitVec 5) : State → Out :=
  runWord ⟨.lanes g, [.v va, .latch], [(.v vd, 3)]⟩ (fun _ _ x => modeCheck x) fun _ x s =>
    let p := x.guard g
    let is := (List.finRange 4).map fun b =>
      if blockOn p b.val then some (blockImage (storeMode x) x.latches[b] (x.block va b.val)) else none
    let data := is.flatMap fun r => match r with | some v => v.1 | none => List.replicate 20 0
    let mask := (is.flatMap fun r => List.replicate 20 (if r.isSome then (255 : Byte) else 0)) ++ List.replicate 432 255
    s.result 3 [.v (x.vPhys vd) ⟨BitVec.ofNat 4096 (leNat data), 0⟩
        ⟨BitVec.ofNat 4096 (leNat mask), BitVec.allOnes 2048⟩]
      (orFlags (is.filterMap fun r => r.map (·.2)))

/-! ### Division and special functions (R157, R158) -/

/-- R157: 1/x. -/
def execVrcp (g : BitVec 4) (fmt : BitVec 3) (vd va : BitVec 5) : State → Out :=
  floatWord g fmt vd [va] 8 fun x i => specialElem .rcp (floatFmt fmt) ((x.vget va).elem (floatFmt fmt).width i)

/-- R157: 1/√x. -/
def execVrsqrt (g : BitVec 4) (fmt : BitVec 3) (vd va : BitVec 5) : State → Out :=
  floatWord g fmt vd [va] 8 fun x i => specialElem .rsqrt (floatFmt fmt) ((x.vget va).elem (floatFmt fmt).width i)

/-- R157: √x. -/
def execVsqrt (g : BitVec 4) (fmt : BitVec 3) (vd va : BitVec 5) : State → Out :=
  floatWord g fmt vd [va] 8 fun x i => specialElem .sqrt (floatFmt fmt) ((x.vget va).elem (floatFmt fmt).width i)

/-- R157: 2^x. -/
def execVexp2 (g : BitVec 4) (fmt : BitVec 3) (vd va : BitVec 5) : State → Out :=
  floatWord g fmt vd [va] 8 fun x i => specialElem .exp2 (floatFmt fmt) ((x.vget va).elem (floatFmt fmt).width i)

/-- R157: log₂ x. -/
def execVlog2 (g : BitVec 4) (fmt : BitVec 3) (vd va : BitVec 5) : State → Out :=
  floatWord g fmt vd [va] 8 fun x i => specialElem .log2 (floatFmt fmt) ((x.vget va).elem (floatFmt fmt).width i)

/-- R157: e^x. -/
def execVexp (g : BitVec 4) (fmt : BitVec 3) (vd va : BitVec 5) : State → Out :=
  floatWord g fmt vd [va] 8 fun x i => specialElem .exp (floatFmt fmt) ((x.vget va).elem (floatFmt fmt).width i)

/-- R157: ln x. -/
def execVlog (g : BitVec 4) (fmt : BitVec 3) (vd va : BitVec 5) : State → Out :=
  floatWord g fmt vd [va] 8 fun x i => specialElem .log (floatFmt fmt) ((x.vget va).elem (floatFmt fmt).width i)

/-- R157: sin x, radians. -/
def execVsin (g : BitVec 4) (fmt : BitVec 3) (vd va : BitVec 5) : State → Out :=
  floatWord g fmt vd [va] 8 fun x i => specialElem .sin (floatFmt fmt) ((x.vget va).elem (floatFmt fmt).width i)

/-- R157: cos x, radians. -/
def execVcos (g : BitVec 4) (fmt : BitVec 3) (vd va : BitVec 5) : State → Out :=
  floatWord g fmt vd [va] 8 fun x i => specialElem .cos (floatFmt fmt) ((x.vget va).elem (floatFmt fmt).width i)

/-- R157: tanh x. -/
def execVtanh (g : BitVec 4) (fmt : BitVec 3) (vd va : BitVec 5) : State → Out :=
  floatWord g fmt vd [va] 8 fun x i => specialElem .tanh (floatFmt fmt) ((x.vget va).elem (floatFmt fmt).width i)

/-- R157: 1/(1 + e^−x). -/
def execVsigm (g : BitVec 4) (fmt : BitVec 3) (vd va : BitVec 5) : State → Out :=
  floatWord g fmt vd [va] 8 fun x i => specialElem .sigm (floatFmt fmt) ((x.vget va).elem (floatFmt fmt).width i)

/-- R157: erf x. -/
def execVerf (g : BitVec 4) (fmt : BitVec 3) (vd va : BitVec 5) : State → Out :=
  floatWord g fmt vd [va] 8 fun x i => specialElem .erf (floatFmt fmt) ((x.vget va).elem (floatFmt fmt).width i)

/-- R157: x / y, under the special cases of `fdiv` (R118). -/
def execVdiv (g : BitVec 4) (fmt : BitVec 3) (vd va vb : BitVec 5) : State → Out :=
  floatWord g fmt vd [va, vb] 8 fun x i =>
    fdivElem (floatFmt fmt) (x.velem (floatFmt fmt) va i) (x.velem (floatFmt fmt) vb i)

/-! ### vrint and vscl (R155, R156) -/

/-- A carried value rounded to an integral value, with the sign of the source, and NX when it differs (R155). -/
def roundIntegral (f : FFmt) (m : RMode) : FVal → Elem × Flags
  | .fin neg mag exp =>
    let r := roundInt m.single neg mag exp
    (carry f (.fin neg r.1.natAbs 0), if r.2 then 0 else flagNX)
  | v => (carry f v, 0)

/-- R155: rounds each element to an integral value with RMODE. -/
def execVrint (g : BitVec 4) (fmt : BitVec 3) (vd va : BitVec 5) : State → Out :=
  runWord ⟨.lanes g, [.v va], [(.v vd, 3)]⟩ (fun _ _ x => modeCheck x) fun _ x s =>
    let r := mapElems (x.guard g) (floatFmt fmt).width fun i =>
      roundIntegral (floatFmt fmt) (storeMode x) (x.velem (floatFmt fmt) va i)
    s.result 3 [.v (x.vPhys vd) r.1.1 r.1.2] r.2

/-- A value times a power of two (R156). -/
def FVal.scaleBy (v : FVal) (c : Int) : FVal :=
  match v with
  | .fin neg mag exp => .fin neg mag (exp + c)
  | r => r

/-- carry of a value times 2^c; a far exponent saturates before any number is formed (R156). -/
def scaleElem (f : FFmt) (v : FVal) (c : Int) : Elem := carry f (v.scaleBy (max (-1000) (min 1000 c)))

/-- R156: va × 2^c, c an i32 element of vb for f32 and an i16 element for f16 and bf16. -/
def execVscl (g : BitVec 4) (fmt : BitVec 3) (vd va vb : BitVec 5) : State → Out :=
  floatWord g fmt vd [va, vb] 3 fun x i =>
    let w := (floatFmt fmt).width
    (scaleElem (floatFmt fmt) (x.velem (floatFmt fmt) va i) (toSigned w ((x.vget vb).elem w i).code), 0)

end Sys2Proof.Machine
end

