-- ==== Sys2Proof/Machine/VecMem.lean ====
section
/-! DEFINITION. The vector memory words of the A and B slots (R90, R163-R166): loads and stores of vectors, predicates and
register images between the registers and the issuing core's granary. -/
namespace Sys2Proof.Machine

/-- The address of a memory word: s[sb] + sext(offset8) × 16, modulo 2^64 (R163). -/
def memAddr (x : Context) (base : BitVec 5) (off : BitVec 8) : Word := x.sdata base + sext64 off * 16

/-- A word guarded by the name p1 checks nothing and does nothing (R163, R165). -/
def neverGuard (g : BitVec 4) : Bool := g == 1

/-- The checks of a memory word over L bytes, with TVAL the address (R163). -/
def memAccess (k : Core) (a : Word) (len : Nat) : Check :=
  ((trapIf (decide (granaryBytes - len < a.toNat)) causeRange a).andThen
    (trapIf (a.toNat % 16 != 0) causeMisaligned a)).andThen
      (trapIf ((k.tile (tileOf a.toNat)).owner != bankOwner k.bank ||
        (k.tile (tileOf (a.toNat + len - 1))).owner != bankOwner k.bank) causeModel a)

/-- The shared form of a memory word: `first` is the check that comes before those of R163. -/
def memWord (g : BitVec 4) (base : BitVec 5) (off : BitVec 8) (len : Nat) (reads : List Name)
    (dests : List (Name × Nat)) (first : Context → Check) (act : Context → Nat → State → State) : State → Out :=
  if neverGuard g then runWord ⟨.lanes g, [], []⟩ noCheck fun _ _ s => s
  else runWord ⟨.lanes g, .s base :: reads, dests⟩
    (fun _ k x => (first x).andThen (memAccess k (memAddr x base off) len))
    fun _ x s => act x (memAddr x base off).toNat s

/-- R164: 512 bytes into the enabled byte lanes of vd. -/
def execLdV (_slot : Bool) (g : BitVec 4) (reg base : BitVec 5) (off : BitVec 8) : State → Out :=
  memWord g base off 512 [] [(.v reg, 6)] (fun _ => .ok) fun x a s =>
    s.load 6 a 512 (.vec (x.vPhys reg) (x.guard g)) (.v (x.vPhys reg))

/-- The cells of the enabled byte lanes of some bytes at an address (R164). -/
def laneCells (p : PData) (a : Nat) (bs : List Byte) : List Host.Cell :=
  ((List.range bs.length).zipWith (fun j b => (laneOn p j, a + j, b)) bs).filterMap fun r =>
    if r.1 then some r.2 else none

/-- R164: the enabled bytes of va, no rounding. -/
def execStV (_slot : Bool) (g : BitVec 4) (reg base : BitVec 5) (off : BitVec 8) : State → Out :=
  memWord g base off 512 [.v reg] [] (fun _ => .ok) fun x a s =>
    s.storeCells a 512 (laneCells (x.guard g) a (bvBytes (x.vget reg).data 512)) 0

/-- A typed vector store (R164, R165): each enabled element stored as final(carried, T, RMODE), the whole word one block
of error feedback (R53). A NaN with tail 00 is stored as the canonical one (R50, log entry 82). -/
def typedStore (f : FFmt) (g : BitVec 4) (reg base : BitVec 5) (off : BitVec 8) : State → Out :=
  memWord g base off 512 [.v reg] [] modeCheck fun x a s =>
    let p := x.guard g
    let rs := roundBlock f f (storeMode x) ((List.range (4096 / f.width)).map fun i =>
      if enOf p f.width i then some (x.velem f reg i) else none)
    let cells := ((List.range rs.length).zipWith (fun i r => (i, r)) rs).flatMap fun e =>
      match e.2 with
      | some c => cellsAt (a + e.1 * (f.width / 8)) (leBytes (f.width / 8) c.1)
      | none => []
    s.storeCells a 512 cells (orFlags (rs.filterMap fun r => r.map (·.2)))

/-- R164, R165: typed store as f32. -/
def execStVF32 (_slot : Bool) (g : BitVec 4) (reg base : BitVec 5) (off : BitVec 8) : State → Out :=
  typedStore .f32 g reg base off

/-- R164, R165: typed store as f16. -/
def execStVF16 (_slot : Bool) (g : BitVec 4) (reg base : BitVec 5) (off : BitVec 8) : State → Out :=
  typedStore .f16 g reg base off

/-- R164, R165: typed store as bf16. -/
def execStVBf16 (_slot : Bool) (g : BitVec 4) (reg base : BitVec 5) (off : BitVec 8) : State → Out :=
  typedStore .bf16 g reg base off

/-- R164, R165: typed store as e4m3. -/
def execStVE4m3 (_slot : Bool) (g : BitVec 4) (reg base : BitVec 5) (off : BitVec 8) : State → Out :=
  typedStore .e4m3 g reg base off

/-- R164, R165: typed store as e5m2. -/
def execStVE5m2 (_slot : Bool) (g : BitVec 4) (reg base : BitVec 5) (off : BitVec 8) : State → Out :=
  typedStore .e5m2 g reg base off

/-- R164: 64 bytes into the enabled lanes of a predicate pair. -/
def execLdP (_slot : Bool) (g : BitVec 4) (reg base : BitVec 5) (off : BitVec 8) : State → Out :=
  memWord g base off 64 [] [(.p reg.toNat, 6)] (fun _ => .ok) fun x a s =>
    s.load 6 a 64 (.pred (x.pairOf reg) (x.guard g)) (.p (x.pairOf reg))

/-- R164: the enabled bits of one predicate; a byte of which some bits are off keeps those bits. -/
def execStP (_slot : Bool) (g : BitVec 4) (reg base : BitVec 5) (off : BitVec 8) : State → Out :=
  memWord g base off 64 [.p reg.toNat] [] (fun _ => .ok) fun x a s =>
    s.storeBits a (x.pget reg.toNat) (x.guard g)

/-- R164: the 768-byte image, when guard lane 0 is 1. -/
def execVspill (_slot : Bool) (g : BitVec 4) (reg base : BitVec 5) (off : BitVec 8) : State → Out :=
  memWord g base off 768 [.v reg] [] (fun _ => .ok) fun x a s =>
    s.storeCells a 768 (if laneOn (x.guard g) 0 then cellsAt a (x.vget reg).image else []) 0

/-- R164: the 768-byte image into vd, when guard lane 0 is 1. -/
def execVfill (_slot : Bool) (g : BitVec 4) (reg base : BitVec 5) (off : BitVec 8) : State → Out :=
  memWord g base off 768 [] [(.v reg, 6)] (fun _ => .ok) fun x a s =>
    s.load 6 a 768 (.fill (x.vPhys reg) (laneOn (x.guard g) 0)) (.v (x.vPhys reg))

/-- R164: 16 bytes repeated into the enabled lanes of every 16-byte group. -/
def execLdVb (_slot : Bool) (g : BitVec 4) (reg base : BitVec 5) (off : BitVec 8) : State → Out :=
  memWord g base off 16 [] [(.v reg, 6)] (fun _ => .ok) fun x a s =>
    s.load 6 a 16 (.bcast (x.vPhys reg) (x.guard g)) (.v (x.vPhys reg))

end Sys2Proof.Machine
end

