-- ==== Sys2Proof/Machine/Matrix.lean ====
section
/-! DEFINITION. The matrix engine (spec/06): the commands' issue checks (R181, R182), the order in which they run (R186), the
product step (R62, R63, R189-R192), loads, stores and register access (R193-R197), and completion (R183, R184). -/
namespace Sys2Proof.Machine

/-! ### Fields of the staging registers (R173-R178) -/

/-- KLEN of ms0. -/
def MCmd.klen (c : MCmd) : Nat := wbits c.ms[0] 27 9
/-- OFMT of ms0. -/
def MCmd.ofmt (c : MCmd) : Nat := wbits c.ms[0] 22 5
/-- AFMT of ms0. -/
def MCmd.afmt (c : MCmd) : Nat := wbits c.ms[0] 17 5
/-- WFMT of ms0. -/
def MCmd.wfmt (c : MCmd) : Nat := wbits c.ms[0] 12 5
/-- LIVEEN of ms0. -/
def MCmd.liveen (c : MCmd) : Bool := c.ms[0].getLsbD 1
/-- RET of ms0. -/
def MCmd.ret (c : MCmd) : Bool := c.ms[0].getLsbD 0
/-- ROWS of ms1. -/
def MCmd.rows (c : MCmd) : Nat := wbits c.ms[1] 10 11
/-- ACC0 of ms1. -/
def MCmd.acc0 (c : MCmd) : Nat := wbits c.ms[1] 0 10
/-- WSLOT of ms2. -/
def MCmd.wslot (c : MCmd) : Nat := wbits c.ms[2] 7 7
/-- ASLOT of ms2. -/
def MCmd.aslot (c : MCmd) : Nat := wbits c.ms[2] 0 7
/-- OPITCH of ms3. -/
def MCmd.opitch (c : MCmd) : Nat := wbits c.ms[3] 11 11
/-- OOFF of ms3. -/
def MCmd.ooff (c : MCmd) : Nat := wbits c.ms[3] 0 11
/-- ASC0 of ms4. -/
def MCmd.asc0 (c : MCmd) : Nat := wbits c.ms[4] 11 10
/-- SOFF of ms4. -/
def MCmd.soff (c : MCmd) : Nat := wbits c.ms[4] 0 11
/-- LBASE of ms5. -/
def MCmd.lbase (c : MCmd) : Nat := wbits c.ms[5] 0 16

/-- The first byte of the command's tile. -/
def MCmd.base (c : MCmd) : Nat := 24576 * c.tile

/-- A row that LIVECNT makes dead (R192). -/
def MCmd.dead (c : MCmd) (r : Nat) : Bool := c.liveen && decide (c.livecnt.toNat ≤ c.lbase + r)

/-- A column lane of the guard (R180). -/
def MCmd.col (c : MCmd) (n : Nat) : Bool := laneOn c.guard (192 + n)

/-! ### Formats (R187, R196) -/

/-- The floating formats of the unified codes 0 to 5 (R79). -/
def matrixFloat (c : Nat) : FFmt := floatFmt (BitVec.ofNat 3 c)

/-- The kind of a weight or activation format: 1 FP8, 2 INT8, 3 E2M1, 4 FP16 or BF16, 0 none (R187). -/
def matrixKind (f : Nat) : Nat :=
  if f = 3 ∨ f = 4 then 1 else if f = 9 ∨ f = 13 then 2 else if f = 5 then 3 else if f = 1 ∨ f = 2 then 4 else 0

/-- Element width of a kind (R187). -/
def kindWidth (kind : Nat) : Nat := if kind = 3 then 4 else if kind = 4 then 16 else 8

/-- Bytes of an `mstore` row image (R196); the spec gives an OFMT that is not accepted no image, and the model takes 0
bytes, so its span decides between the codes 3 and 4 of R182 by its other fields alone (log entry 68). -/
def imageBytes (ofmt : Nat) : Nat :=
  if ofmt = 31 then 272 else if ofmt = 11 then 256 else if ofmt < 5 then 64 * (matrixFloat ofmt).width / 8 else 0

/-- The tags of the active and the shadow plane once every queued command has run (R187). -/
def Matrix.tags (m : Matrix) : Option (BitVec 5) × Option (BitVec 5) :=
  m.queue.foldl (fun t c =>
    match c.op with
    | .mload => (t.1, some (BitVec.ofNat 5 c.wfmt))
    | .mswap => if laneOn c.guard 0 then (t.2, t.1) else t
    | _ => t) (m.active.tag, m.shadow.tag)

/-! ### Spans and checks (R180-R182) -/

/-- Whether a command streams. -/
def MCmd.streams (c : MCmd) : Bool := c.op == .mstream || c.op == .mstreamz

/-- The granary spans that a command touches (R180). -/
def MCmd.spans (c : MCmd) : List (Nat × Nat) :=
  match c.op with
  | .mload => [(c.base + 192 * c.wslot, 192 * 64)]
  | .mstream | .mstreamz => [(c.base + 192 * c.aslot, 192 * c.rows)]
  | .mstore => (List.range c.rows).map fun r => (c.base + 16 * c.ooff + 16 * c.opitch * r, imageBytes c.ofmt)
  | .mscaleW => [(c.base + 16 * c.soff, 3072)]
  | .mscaleA => [(c.base + 16 * c.soff, 48 * c.rows)]
  | _ => []

/-- Whether a command reads ROWS. -/
def MCmd.usesRows (c : MCmd) : Bool := c.streams || c.op == .mstore || c.op == .mzero || c.op == .mscaleA

/-- Whether a command reads RET. -/
def MCmd.usesRet (c : MCmd) : Bool :=
  c.op == .mload || c.streams || c.op == .mstore || c.op == .mscaleW || c.op == .mscaleA

/-- The conditions of R182 on the staging fields. -/
def MCmd.conds (c : MCmd) : List (Nat × Bool) :=
  let kind := matrixKind c.afmt
  [(1, c.usesRows && (c.rows = 0 || 1024 < c.rows)), (1, c.op == .mstore && c.opitch = 0),
   (2, (c.streams || c.op == .mstore || c.op == .mzero) && 1024 < c.acc0 + c.rows),
   (2, (c.op == .mread || c.op == .mwrite) && 1022 < c.acc0),
   (2, (c.op == .mscaleA || (c.streams && c.afmt = 5)) && 1024 < c.asc0 + c.rows),
   (3, c.spans.any fun p => granaryBytes < p.1 + p.2),
   (4, c.op == .mload && matrixKind c.wfmt = 0), (4, c.op == .mstore && imageBytes c.ofmt = 0),
   (4, c.streams && (kind = 0 || (match c.planeTag with | some t => matrixKind t.toNat != kind | none => false))),
   (7, (c.op == .mstore && 1535 < c.ooff) || ((c.op == .mscaleW || c.op == .mscaleA) && 1535 < c.soff))]

/-- The checks of a matrix command in their order (R181). -/
def matrixCheck (k : Core) (x : Context) (c : MCmd) : Check :=
  ((((trapIf (k.matrix.holder != some k.bank) causeMatrix 6).andThen
    (trapIf (decide (16 ≤ k.matrix.queue.length)) causeMatrix 5)).andThen
      (codeCheck causeMatrix c.conds)).andThen
        (if c.op == .mstore && c.ofmt < 5 then modeCheck x else .ok)).andThen
          (tileCheck (tilesOf c.spans) fun t =>
            (k.tile t).owner == 3 && !(k.matrix.queue.any fun q => q.usesRet && q.ret && (tilesOf q.spans).contains t))

/-- A command with what it reads at issue (R180, R181). -/
def mkMCmd (op : MOp) (g : BitVec 4) (token : BitVec 5) (tile : Nat) (reg : BitVec 5) (data : VVal) (k : Core)
    (x : Context) : MCmd :=
  { op := op, bank := k.bank, issue := k.bc, token := token, tile := tile, ms := x.ms, guard := x.guard g,
    rmode := x.rmode, livecnt := x.livecnt, reg := reg, data := data, planeTag := k.matrix.tags.1, started := false,
    checked := x.chkmode }

/-- The meaning of an M word: its checks, then the command enters the queue (R181). -/
def matrixWord (op : MOp) (g : BitVec 4) (token : BitVec 5) (tile : BitVec 6) (reads : List Name)
    (reg : Context → BitVec 5) (data : Context → VVal) : State → Out :=
  let cmd := fun (k : Core) (x : Context) => mkMCmd op g token tile.toNat (reg x) (data x) k x
  runWord ⟨.lanes g, reads, []⟩ (fun _ k x => matrixCheck k x (cmd k x))
    fun k x s => s.modCore fun k' => { k' with matrix := { k'.matrix with queue := k'.matrix.queue ++ [cmd k x] } }

/-- No register image. -/
def noImage : Context → VVal := fun _ => ⟨0, 0⟩

/-- R193: weight slots into the shadow plane. -/
def execMload (g : BitVec 4) (k : BitVec 5) (tile : BitVec 6) : State → Out :=
  matrixWord .mload g k tile [] (fun _ => 0) noImage

/-- R195: the active and shadow planes change places. -/
def execMswap (g : BitVec 4) (k : BitVec 5) : State → Out := matrixWord .mswap g k 0 [] (fun _ => 0) noImage

/-- R192: products added to the accumulator rows. -/
def execMstream (g : BitVec 4) (k : BitVec 5) (tile : BitVec 6) : State → Out :=
  matrixWord .mstream g k tile [] (fun _ => 0) noImage

/-- R192: products with the sums starting from +0. -/
def execMstreamz (g : BitVec 4) (k : BitVec 5) (tile : BitVec 6) : State → Out :=
  matrixWord .mstreamz g k tile [] (fun _ => 0) noImage

/-- R196: accumulator rows into a tile. -/
def execMstore (g : BitVec 4) (k : BitVec 5) (tile : BitVec 6) : State → Out :=
  matrixWord .mstore g k tile [] (fun _ => 0) noImage

/-- R197: accumulator rows become +0. -/
def execMzero (g : BitVec 4) (k : BitVec 5) : State → Out := matrixWord .mzero g k 0 [] (fun _ => 0) noImage

/-- R193: the shadow weight-scale plane. -/
def execMscaleW (g : BitVec 4) (k : BitVec 5) (tile : BitVec 6) : State → Out :=
  matrixWord .mscaleW g k tile [] (fun _ => 0) noImage

/-- R194: entries of the activation-scale buffer. -/
def execMscaleA (g : BitVec 4) (k : BitVec 5) (tile : BitVec 6) : State → Out :=
  matrixWord .mscaleA g k tile [] (fun _ => 0) noImage

/-- R197: two accumulator rows into vd, mapped at issue. -/
def execMread (g : BitVec 4) (k vd : BitVec 5) : State → Out :=
  matrixWord .mread g k 0 [] (fun x => x.vPhys vd) noImage

/-- R197: va, read at issue with its tails, into two accumulator rows. -/
def execMwrite (g : BitVec 4) (k va : BitVec 5) : State → Out :=
  matrixWord .mwrite g k 0 [.v va] (fun _ => 0) fun x => x.vget va

/-- R197: posts once every earlier matrix command has completed. -/
def execMdrain (g : BitVec 4) (k : BitVec 5) : State → Out := matrixWord .mdrain g k 0 [] (fun _ => 0) noImage

/-! ### The product step (R62, R63, R188-R190) -/

/-- Rounding to odd at 34 significand bits (R62). -/
def round34 : FVal → FVal
  | .fin n m e =>
    let d := m.log2 + 1 - 34
    if m.log2 + 1 ≤ 34 then .fin n m e
    else .fin n (m / 2 ^ d ||| (if m % 2 ^ d = 0 then 0 else 1)) (e + d)
  | x => x

/-- An element of a slot (R188). -/
def slotElem (x : BitVec 1536) (w k : Nat) : Nat := bitsOf x.toNat (w * k) w

/-- A block's header in a 384-bit entry (R170). -/
def entryHeader (e : BitVec 384) (j : Nat) : Header := e.extractLsb' (32 * j) 32

/-- The value of an operand before scaling (R190). -/
def operandVal (fmt code : Nat) (h : Header) : FVal :=
  if fmt = 5 then (if h.sexp = 0 then .fin false 0 0 else blockElem h code) else valueOf (matrixFloat fmt) code

/-- An exact sum with NV where an operand is NaN, 0 meets ∞, or infinities of both signs meet (R62). -/
def nanSum (a b : FVal × Flags) : FVal × Flags :=
  let r := a.1.add b.1
  (r.1, a.2 ||| b.2 ||| r.2)

/-- An exact product with NV for a NaN operand (R62). -/
def nanMul (a b : FVal) : FVal × Flags :=
  let r := a.mul b
  (r.1, r.2 ||| (if a.isNan || b.isNan then flagNV else 0))

/-- One block of a product step: the exact sum over its live positions, times the two scales (R62). -/
def blockSum (ks : List Nat) (a b : Nat → FVal) (sa sb : FVal) : FVal × Flags :=
  let s := ks.foldl (fun acc k => nanSum acc (nanMul (a k) (b k))) (.fin false 0 0, 0)
  let t := nanMul s.1 sa
  let u := nanMul t.1 sb
  (u.1, s.2 ||| (if sa.isNan || sb.isNan then flagNV else 0))

/-- The operands of one product step: the activation row, the weight column, their formats and headers. -/
structure Operands where
  a : BitVec 1536
  b : BitVec 1536
  afmt : Nat
  wfmt : Nat
  ah : BitVec 384
  bh : BitVec 384
  deriving DecidableEq, Repr

/-- msum of R62 for one column: the accumulator element and NV. -/
def msum (acc : Elem) (o : Operands) (w : Nat) (live : Nat → Bool) : Elem × Flags :=
  let K := 1536 / w
  let L := if o.afmt = 5 then 32 else K
  let step (j : Nat) (s : FVal × Flags) : FVal × Flags :=
    let ks := ((List.range L).map fun i => L * j + i).filter live
    if ks.isEmpty then s
    else
      let ah := entryHeader o.ah j
      let bh := entryHeader o.bh j
      let one : FVal := .fin false 1 0
      let r := blockSum ks (fun k => operandVal o.afmt (slotElem o.a w k) ah)
        (fun k => operandVal o.wfmt (slotElem o.b w k) bh)
        (if o.afmt = 5 then scaleVal ah.sexp ah.sfrac else one) (if o.afmt = 5 then scaleVal bh.sexp bh.sfrac else one)
      let t := nanSum s r
      (round34 t.1, t.2)
  let s := (List.range (K / L)).foldl (fun acc j => step j acc) (.fin false 0 0, 0)
  let sv : FVal := if s.1.isZero then .fin false 0 0 else s.1
  let r := (carried .f32 acc).add sv
  (if s.1.isNan then ⟨FFmt.f32.nanCode, 0⟩ else carry .f32 r.1, s.2 ||| r.2)

/-- The integer sum of R63 for one column. -/
def isum (acc : Nat) (o : Operands) (live : Nat → Bool) : Nat :=
  let val (fmt code : Nat) : Int := if fmt = 9 then toSigned 8 code else code
  let s : Int := ((List.range 192).filter live).foldl
    (fun t k => t + val o.afmt (slotElem o.a 8 k) * val o.wfmt (slotElem o.b 8 k)) 0
  ofSigned 32 ((acc : Int) + s)

/-! ### The accumulator store (R170-R172) -/

/-- A row of the accumulator store. -/
def Matrix.row (m : Matrix) (n : Nat) : AccRow := ((m.acc.find? fun r => r.1 == n).map fun r => r.2).getD ⟨0, 0⟩

/-- An element of a row. -/
def AccRow.elem (r : AccRow) (n : Nat) : Elem := ⟨bitsOf r.data.toNat (32 * n) 32, bitsOf r.tail.toNat (2 * n) 2⟩

/-- A row from optional new elements; the others keep their data and tail. -/
def AccRow.update (r : AccRow) (es : List (Option Elem)) : AccRow :=
  let all := (List.range 64).map fun n => ((es.getD n none).getD (r.elem n))
  ⟨BitVec.ofNat 2048 (all.foldr (fun e acc => acc * 2 ^ 32 + e.code % 2 ^ 32) 0),
   BitVec.ofNat 128 (all.foldr (fun e acc => acc * 4 + e.tail % 4) 0)⟩

/-- Writes a row and marks it dirty, unless no element is written (log entry 79). A row that is written whole is in error no longer (log
entry 60). -/
def Matrix.setRow (m : Matrix) (n : Nat) (es : List (Option Elem)) : Matrix :=
  if es.all fun e => e.isNone then m
  else { m with acc := (n, (m.row n).update es) :: m.acc.filter (fun r => r.1 != n),
                accBad := if es.all Option.isSome then m.accBad.filter (fun r => r != n) else m.accBad }

/-- An entry of the activation-scale buffer: scale 1.0 with X = 0 until it is loaded (R172). -/
def Matrix.actEntry (m : Matrix) (n : Nat) : BitVec 384 :=
  ((m.actScale.find? fun r => r.1 == n).map fun r => r.2).getD ScalePlane.reset[0]

/-! ### What a command does (R192-R197) -/

/-- The result of a command: the core, the flags, whether it failed (R184), and the register writes of its post. -/
structure EngineResult where
  core : Core
  flags : Flags
  failed : Bool
  writes : List RegWrite
  deriving DecidableEq, Repr

/-- A slot's bytes as bits. -/
def slotBits (bs : List Byte) : BitVec 1536 := BitVec.ofNat 1536 (leNat bs)

/-- `mload` (R193): a column whose slot is in error keeps its bytes and is marked (R184). The spec does not say for how long
the mark stands: it goes with its plane through `mswap` and a save until a later `mload` loads that column well (DESIGN
CHOICE, log entry 70). -/
def runMload (k : Core) (c : MCmd) : EngineResult :=
  let step (acc : Plane × Bool) (n : Fin 64) : Plane × Bool :=
    if c.col n.val then
      match k.readBytes matrixOwns (c.base + 192 * (c.wslot + n.val)) 192 with
      | some bs => ({ acc.1 with cols := acc.1.cols.set n (slotBits bs), bad := acc.1.bad.filter fun b => b != n.val }, acc.2)
      | none => ({ acc.1 with bad := n.val :: acc.1.bad.filter fun b => b != n.val }, true)
    else acc
  let r := (List.finRange 64).foldl step (k.matrix.shadow, false)
  ⟨{ k with matrix := { k.matrix with shadow := { r.1 with tag := some (BitVec.ofNat 5 c.wfmt) } } }, 0, r.2, []⟩

/-- The three granary words of an entry of twelve headers: a word that cannot be read leaves its four headers unchanged
(R184). The entry, and whether a word failed. -/
def readHeaders (k : Core) (a : Nat) (old : BitVec 384) : BitVec 384 × Bool :=
  let ws := (List.range 3).map fun j => (j, k.readBytes matrixOwns (a + 16 * j) 16)
  (ws.foldl (fun e w => match w.2 with
      | some bs => mergeBits e (BitVec.ofNat 384 (leNat bs * 2 ^ (128 * w.1))) (BitVec.ofNat 384 ((2 ^ 128 - 1) * 2 ^ (128 * w.1)))
      | none => e) old,
   ws.any fun w => w.2.isNone)

/-- `mscale.w` (R193). -/
def runMscaleW (k : Core) (c : MCmd) : EngineResult :=
  let step (acc : ScalePlane × Bool) (n : Fin 64) : ScalePlane × Bool :=
    if c.col n.val then
      let e := readHeaders k (c.base + 16 * c.soff + 48 * n.val) acc.1[n]
      (acc.1.set n e.1, acc.2 || e.2)
    else acc
  let r := (List.finRange 64).foldl step (k.matrix.shadowScale, false)
  ⟨{ k with matrix := { k.matrix with shadowScale := r.1 } }, 0, r.2, []⟩

/-- `mscale.a` (R194). -/
def runMscaleA (k : Core) (c : MCmd) : EngineResult :=
  let step (acc : List (Nat × BitVec 384) × Bool) (r : Nat) : List (Nat × BitVec 384) × Bool :=
    let e := readHeaders k (c.base + 16 * c.soff + 48 * r) (k.matrix.actEntry (c.asc0 + r))
    ((c.asc0 + r, e.1) :: acc.1.filter fun e => e.1 != c.asc0 + r, acc.2 || e.2)
  let r := if laneOn c.guard 0 then (List.range c.rows).foldl step (k.matrix.actScale, false) else (k.matrix.actScale, false)
  ⟨{ k with matrix := { k.matrix with actScale := r.1 } }, 0, r.2, []⟩

/-- `mswap` (R195): planes, tags and weight-scale planes change places when guard lane 0 is 1. -/
def runMswap (k : Core) (c : MCmd) : EngineResult :=
  let m := k.matrix
  let m' := if laneOn c.guard 0 then
      { m with active := m.shadow, shadow := m.active, activeScale := m.shadowScale, shadowScale := m.activeScale }
    else m
  ⟨{ k with matrix := m' }, 0, false, []⟩

/-- The mask of R189. -/
def MCmd.live (c : MCmd) (w : Nat) (n : Nat) : Bool := decide (n < c.klen) && laneOn c.guard (if w = 4 then n / 2 else n * w / 8)

/-- One row of a stream (R192). -/
def streamRow (c : MCmd) (m : Matrix) (r : Nat) (slot : BitVec 1536) : Matrix × Flags :=
  let w := kindWidth (matrixKind c.afmt)
  let wfmt := match m.active.tag with | some t => t.toNat | none => c.afmt
  let old := m.row (c.acc0 + r)
  let res := (List.finRange 64).map fun n =>
    if c.col n.val && !m.active.bad.contains n.val then
      let base : Elem := if c.op = .mstreamz then ⟨0, 0⟩ else old.elem n.val
      let o : Operands := ⟨slot, m.active.cols[n], c.afmt, wfmt, m.actEntry (c.asc0 + r), m.activeScale[n]⟩
      if matrixKind c.afmt = 2 then some ((⟨isum base.code o (c.live w), 0⟩ : Elem), (0 : Flags))
      else some (msum base o w (c.live w))
    else none
  (m.setRow (c.acc0 + r) (res.map fun e => e.map fun x => x.1),
   res.foldl (fun acc e => match e with | some x => acc ||| x.2 | none => acc) 0)

/-- `mstream` and `mstreamz` (R192): rows in ascending order; dead rows read and change nothing; a row whose slot is in
error, or whose old sums `mstream` cannot read, is left unchanged (R184). -/
def runStream (k : Core) (c : MCmd) : EngineResult :=
  let step (acc : Matrix × Flags × Bool) (r : Nat) : Matrix × Flags × Bool :=
    if c.dead r then acc
    else
      match k.readBytes matrixOwns (c.base + 192 * (c.aslot + r)) 192 with
      | some bs =>
        if c.op == .mstream && acc.1.accBad.contains (c.acc0 + r) then (acc.1, acc.2.1, true) else
        let t := streamRow c acc.1 r (slotBits bs)
        (t.1, acc.2.1 ||| t.2, acc.2.2)
      | none => (acc.1, acc.2.1, true)
  let r := (List.range c.rows).foldl step (k.matrix, 0, false)
  ⟨{ k with matrix := r.1 }, r.2.1, r.2.2, []⟩

/-- The bytes of a stored row, and its flags (R196). -/
def storeImage (c : MCmd) (row : AccRow) (a : Nat) : List Host.Cell × Flags :=
  if c.ofmt = 31 then (cellsAt a (bvBytes row.data 256 ++ bvBytes row.tail 16), 0)
  else
    let cols := List.range 64
    if c.ofmt = 11 then
      ((cols.filter c.col).flatMap fun n => cellsAt (a + 4 * n) (leBytes 4 (row.elem n).code), 0)
    else
      let f := matrixFloat c.ofmt
      let rs := roundBlock f .f32 ((RMode.ofBits c.rmode).getD .rne)
        (cols.map fun n => if c.col n then some (carried .f32 (row.elem n)) else none)
      (((List.range 64).zipWith (fun n r => (n, r)) rs).flatMap fun e =>
          match e.2 with | some x => cellsAt (a + f.width / 8 * e.1) (leBytes (f.width / 8) x.1) | none => [],
       rs.foldl (fun acc r => match r with | some x => acc ||| x.2 | none => acc) 0)

/-- `mstore` (R196): a row whose accumulator read failed is not stored (R184). -/
def runMstore (k : Core) (c : MCmd) : EngineResult :=
  let step (acc : Core × Flags × Bool) (r : Nat) : Core × Flags × Bool :=
    if c.dead r then acc
    else if k.matrix.accBad.contains (c.acc0 + r) then (acc.1, acc.2.1, true)
    else
      let t := storeImage c (k.matrix.row (c.acc0 + r)) (c.base + 16 * c.ooff + 16 * c.opitch * r)
      let u := acc.1.writeEngine matrixOwns t.1
      (u.1, acc.2.1 ||| t.2, acc.2.2 || u.2)
  let r := (List.range c.rows).foldl step (k, 0, false)
  ⟨r.1, r.2.1, r.2.2, []⟩

/-- `mzero` (R197). -/
def runMzero (k : Core) (c : MCmd) : EngineResult :=
  let es := (List.range 64).map fun n => if c.col n then some (⟨0, 0⟩ : Elem) else none
  ⟨{ k with matrix := (List.range c.rows).foldl (fun m r => m.setRow (c.acc0 + r) es) k.matrix }, 0, false, []⟩

/-- `mread` (R197): the enabled elements of two rows, landing whole at the post; those of a row that cannot be read stay as
they are (R184). -/
def runMread (k : Core) (c : MCmd) : EngineResult :=
  let bad := fun n => k.matrix.accBad.contains (c.acc0 + n / 64)
  let es := (List.range 128).map fun n =>
    if laneOn c.guard (4 * n) && !bad n then some ((k.matrix.row (c.acc0 + n / 64)).elem (n % 64)) else none
  let v := buildV 32 es
  ⟨k, 0, (List.range 128).any fun n => laneOn c.guard (4 * n) && bad n, [.v c.reg v.1 v.2]⟩

/-- `mwrite` (R197). -/
def runMwrite (k : Core) (c : MCmd) : EngineResult :=
  let es (h : Nat) := (List.range 64).map fun n =>
    if laneOn c.guard (4 * (64 * h + n)) then some (c.data.elem 32 (64 * h + n)) else none
  ⟨{ k with matrix := (k.matrix.setRow c.acc0 (es 0)).setRow (c.acc0 + 1) (es 1) }, 0, false, []⟩

/-- Whether a guard lane that governs the command is on (R180): of a stream the K lanes and the column lanes, of `mstore` with OFMT
11111, whose image takes no lane, every command (R196, log entry 80). `mload` sets its tag, and `mdrain` posts, whatever
the guard (R193, R197). -/
def MCmd.someLane (c : MCmd) : Bool :=
  match c.op with
  | .mstream | .mstreamz => (List.range 256).any fun n => laneOn c.guard n
  | .mstore => c.ofmt = 31 || (List.range 64).any c.col
  | _ => true

/-- All the effects of a command on the granary and the engine, with what its post carries: none where every lane of it is off
(R180). -/
def runMatrix (k : Core) (c : MCmd) : EngineResult :=
  if !c.someLane then ⟨k, 0, false, []⟩
  else match c.op with
  | .mload => runMload k c
  | .mswap => runMswap k c
  | .mstream => runStream k c
  | .mstreamz => runStream k c
  | .mstore => runMstore k c
  | .mzero => runMzero k c
  | .mscaleW => runMscaleW k c
  | .mscaleA => runMscaleA k c
  | .mread => runMread k c
  | .mwrite => runMwrite k c
  | .mdrain => ⟨k, 0, false, []⟩

/-! ### The two lanes (R186) -/

/-- Whether a command runs on the load lane. -/
def MCmd.load (c : MCmd) : Bool := c.op == .mload || c.op == .mscaleW

/-- Whether a command waits for every earlier load, and every later load for it. -/
def MCmd.barrier (c : MCmd) : Bool := c.op == .mswap || c.op == .mstore

/-- Whether the order rules let a command start behind the earlier ones still in the queue (R186), its tiles' first access
no sooner than the owner flip allows (R203); a cancelled bank's command does not start any more (R327). -/
def MCmd.mayStart (c : MCmd) (earlier : List MCmd) (k : Core) : Bool :=
  !c.started && k.engineMay c.bank c.issue && !k.cancelled c.bank && k.awake (tilesOf c.spans) &&
    !(earlier.any fun e => e.load == c.load) &&
    !(c.load && earlier.any fun e => e.barrier) && !(c.barrier && earlier.any fun e => e.load)

/-- A matrix command starts on its lane (R186). -/
def Core.startMatrix (k : Core) (n : Nat) : Core :=
  match k.matrix.queue[n]? with
  | some c =>
    if c.mayStart (k.matrix.queue.take n) k then
      { k with matrix := { k.matrix with queue := updAt (fun q => { q with started := true }) n k.matrix.queue } }
    else k
  | none => k

/-- The end of a command (R183): its effects in place, its tiles return by RET, its flags are set and its token posts. -/
def Core.finishMatrix (k : Core) (c : MCmd) (now : Nat) : Core :=
  let r := runMatrix k c
  let k1 := if c.usesRet && c.ret then r.core.giveTiles (tilesOf c.spans) (bankOwner c.bank) c.bank now else r.core
  k1.modCtx c.bank fun x => x.post c.token (if r.failed then 1 else 0) r.flags r.writes

/-- A started command completes; `mdrain` only once it is the oldest (R186). -/
def Core.completeMatrix (k : Core) (n now : Nat) : Core :=
  match k.matrix.queue[n]? with
  | some c =>
    if c.started && (c.op != .mdrain || n = 0) then
      { k with matrix := { k.matrix with queue := k.matrix.queue.eraseIdx n } }.finishMatrix c now
    else k
  | none => k

/-- R186: the command at a place of the queue starts, if the order rules allow. -/
def execMatrixCommandStart (core : Fin 256) (n : Nat) : State → Out :=
  runEvent fun s => s.updCore core fun k => k.startMatrix n

/-- R183: the command at a place of the queue completes. -/
def execMatrixCommandComplete (core : Fin 256) (n : Nat) : State → Out :=
  runEvent fun s => s.updCore core fun k => k.completeMatrix n s.now

end Sys2Proof.Machine
end

