-- ==== Sys2Proof/Machine/Wain.lean ====
section
/-! DEFINITION. The Wain (spec/07): its commands' issue checks (R221), their items (R223-R229) with translation, faults and
failures, the format conversions of R225 and R226, pushes to a gate window (R380), and completion (R207, R222). -/
namespace Sys2Proof.Machine

/-! ### Fields of the staging registers (R213-R218) -/

/-- VA of ws0. -/
def WCmd.va (c : WCmd) : Nat := wbits c.ws[0] 0 52
/-- META of ws6. -/
def WCmd.meta (c : WCmd) : Nat := wbits c.ws[6] 0 52
/-- GADDR of ws1. -/
def WCmd.gaddr (c : WCmd) : Nat := wbits c.ws[1] 0 21
/-- GPITCH of ws2. -/
def WCmd.gpitch (c : WCmd) : Nat := wbits c.ws[2] 24 12
/-- NROWS of ws2. -/
def WCmd.nrows (c : WCmd) : Nat := wbits c.ws[2] 12 12
/-- RLEN of ws2. -/
def WCmd.rlen (c : WCmd) : Nat := wbits c.ws[2] 0 12
/-- VSTRIDE of ws3. -/
def WCmd.vstride (c : WCmd) : Int := c.ws[3].toInt
/-- GFMT of ws4. -/
def WCmd.gfmt (c : WCmd) : Nat := wbits c.ws[4] 0 5
/-- DIR of ws5. -/
def WCmd.dir (c : WCmd) : Bool := c.ws[5].getLsbD 2
/-- HAND of ws5. -/
def WCmd.hand (c : WCmd) : Nat := wbits c.ws[5] 0 2

/-- Whether a command touches granary rows, and so uses GADDR, NROWS, RLEN and HAND (R220). -/
def WCmd.rows (c : WCmd) : Bool :=
  match c.op with | .copy | .gather | .scatter | .decode | .encode | .expand => true | _ => false

/-- The distance between granary rows in 16-byte units (R218): a copy is one run. -/
def WCmd.pitch (c : WCmd) : Nat := if c.op == .copy || c.gpitch = 0 then c.rlen else c.gpitch

/-- The granary spans that a command touches (R220). -/
def WCmd.spans (c : WCmd) : List (Nat × Nat) :=
  if c.rows then (List.range c.nrows).map fun r => (c.gaddr + 16 * c.pitch * r, 16 * c.rlen) else []

/-- The formats that `wn.expand` accepts (R226). -/
def expandOk (f : Nat) : Bool := f = 1 || f = 2 || f = 3 || f = 4 || f = 9 || f = 10 || f = 13 || f = 14

/-- The conditions of R221 on the fields. -/
def WCmd.conds (c : WCmd) (holder : Bool) : List (Nat × Bool) :=
  [(1, (c.rows || c.op == .flush) && (c.nrows = 0 || c.rlen = 0)), (1, c.op == .expand && c.rlen % 2 = 1),
   (2, c.op != .far && c.va % 16 != 0), (2, c.op == .far && c.va % 8 != 0), (2, c.rows && c.gaddr % 16 != 0),
   (2, (c.op == .gather || c.op == .scatter || c.op == .expand) && c.vstride % 16 != 0),
   (3, c.spans.any fun p => granaryBytes < p.1 + p.2),
   (4, (c.op == .decode || c.op == .encode) && 4 < c.gfmt), (4, c.op == .expand && !expandOk c.gfmt),
   (7, c.rows && (c.hand = 3 || (c.hand = 1 && !holder)))]

/-- The checks of a Wain command in their order (R221). -/
def wainCheck (k : Core) (x : Context) (c : WCmd) : Check :=
  (((trapIf (decide (16 ≤ x.wain.length)) causeWain 5).andThen
    (codeCheck causeWain (c.conds (k.matrix.holder == some k.bank)))).andThen
      (if c.op == .decode || c.op == .encode then modeCheck x else .ok)).andThen
        (tileCheck (tilesOf c.spans) fun t =>
          (k.tile t).owner == 4 && (k.tile t).giver == k.bank &&
            !(x.wain.any fun q => q.rows && q.hand != 2 && (tilesOf q.spans).contains t))

/-- A command with what it reads at issue (R219-R221). -/
def mkWCmd (op : WOp) (g : BitVec 4) (token : BitVec 5) (regs : List (BitVec 5)) (images : List VVal) (k : Core)
    (x : Context) : WCmd :=
  { op := op, issue := k.bc, token := token, ws := x.ws, rmode := x.rmode, enabled := laneOn (x.guard g) 0, regs := regs,
    images := images, checked := x.chkmode, started := false, done := false, item := 0, held := none, ecode := 0,
    flags := 0, writes := [], fmt := none, res := none, gate := [], gateDie := none, push := false }

/-- The meaning of a Wain word: the hold of an acquire, its checks, then the command enters the bank's queue (R221). -/
def wainWord (op : WOp) (g : BitVec 4) (token : BitVec 5) (reads : List Name) (regs : Context → List (BitVec 5))
    (images : Context → List VVal) : State → Out :=
  let cmd := fun (k : Core) (x : Context) => mkWCmd op g token (regs x) (images x) k x
  runWord ⟨.lanes g, reads, []⟩ (fun _ k x => (acquireHold x).andThen (wainCheck k x (cmd k x)))
    fun k x s => s.modCtx fun y => { y with wain := y.wain ++ [cmd k x] }

/-- R224: a raw copy. -/
def execWnCopy (g : BitVec 4) (k : BitVec 5) : State → Out := wainWord .copy g k [] (fun _ => []) fun _ => []

/-- R224: strided rows into the granary. -/
def execWnGather (g : BitVec 4) (k : BitVec 5) : State → Out := wainWord .gather g k [] (fun _ => []) fun _ => []

/-- R224: granary rows to strided memory. -/
def execWnScatter (g : BitVec 4) (k : BitVec 5) : State → Out := wainWord .scatter g k [] (fun _ => []) fun _ => []

/-- R225: a converting read. -/
def execWnDecode (g : BitVec 4) (k : BitVec 5) : State → Out := wainWord .decode g k [] (fun _ => []) fun _ => []

/-- R225: a converting write. -/
def execWnEncode (g : BitVec 4) (k : BitVec 5) : State → Out := wainWord .encode g k [] (fun _ => []) fun _ => []

/-- R226: 2:4 sparse data into dense rows. -/
def execWnExpand (g : BitVec 4) (k : BitVec 5) : State → Out := wainWord .expand g k [] (fun _ => []) fun _ => []

/-- R227: Barn lines of host-side pages written back and dropped. -/
def execWnFlush (g : BitVec 4) (k : BitVec 5) : State → Out := wainWord .flush g k [] (fun _ => []) fun _ => []

/-- R228: 8 bytes into s[sd] at the post. -/
def execWnFar (g : BitVec 4) (k sd : BitVec 5) : State → Out := wainWord .far g k [] (fun _ => [sd]) fun _ => []

/-- The names of a run of vector registers (R229). -/
def regRun (vfirst vlast : BitVec 5) : List (BitVec 5) :=
  (List.range (vlast.toNat + 1 - vfirst.toNat)).map fun j => BitVec.ofNat 5 (vfirst.toNat + j)

/-- R229: images read at issue, written to memory. -/
def execVspillM (g : BitVec 4) (k vfirst vlast : BitVec 5) : State → Out :=
  wainWord .spillM g k ((regRun vfirst vlast).map .v) (fun x => (regRun vfirst vlast).map x.vPhys)
    fun x => (regRun vfirst vlast).map x.vget

/-- R229: images read from memory, landing whole at the post. -/
def execVfillM (g : BitVec 4) (k vfirst vlast : BitVec 5) : State → Out :=
  wainWord .fillM g k [] (fun x => (regRun vfirst vlast).map x.vPhys) fun _ => []

/-! ### Memory accesses of items (R223, R340, R346) -/

/-- How the translation of an item ends: the pieces of physical memory with their leaves, a fault to be held on, or a
failure for good with its ECODE. -/
inductive Resolved where
  | pieces (ps : List (Nat × Nat × Word))
  | held (va cause : Nat)
  | fail (ecode : BitVec 4)
  deriving DecidableEq, Repr

/-- The parts of a span by 64 KiB page. -/
def pageParts : Nat → Nat → Nat → List (Nat × Nat)
  | 0, _, _ => []
  | fuel + 1, va, len =>
    if len = 0 then []
    else
      let n := min len (65536 - va % 65536)
      (va, n) :: pageParts fuel (va + n) (len - n)

/-- Translates the memory side of an item (R340): wholly in one extent, or page by page through the tables. A page of an
aperture fails with ECODE 3 (R346), and so does an address beyond 2^52 − 1 (R224); memory or a table that is out of reach
fails with ECODE 2 (R402, R404). -/
def State.resolve (s : State) (d : Fin 2) (part : BitVec 4) (xs : List Extent) (va len : Nat) (acc : Access) : Resolved :=
  if 2 ^ 52 < va + len then .fail 3
  else
    let reachable (r : Resolved) : Resolved :=
      match r with
      | .pieces ps => if ps.any fun p => s.severed d p.1 p.2.1 then .fail 2 else .pieces ps
      | other => other
    let step (t : Trans) (p : Nat × Nat) (done : List (Nat × Nat × Word)) : Resolved :=
      match t with
      | .phys pa leaf => .pieces (done ++ [(pa, p.2, leaf)])
      | .aper _ _ => .fail 3
      | .fail => .fail 3
      | .fault c => .held p.1 c
      | .lost => .fail 2
    if (findExtent xs va len).isSome then reachable (step (s.translate d part xs va len acc) (va, len) [])
    else
      reachable <| (pageParts 20 va len).foldl (fun r p =>
        match r with
        | .pieces done =>
          step (match s.currentLeaf d part p.1 with | .leaf e level => leafAccess e level p.1 acc | .fault c => .fault c | .lost => .lost) p done
        | other => other) (.pieces [])

/-- Remembers the translations that an item used (R352). -/
def State.cachePages (s : State) (d : Fin 2) (part : BitVec 4) (va len : Nat) : State :=
  (pageParts 20 va len).foldl (fun acc p => acc.cacheLeaf d part p.1) s

/-- The bytes of some pieces of memory, or none where one is in uncorrectable error (R355). -/
def State.readPieces (s : State) (ps : List (Nat × Nat × Word)) : Option (List Byte) :=
  if ps.any fun p => s.memBad p.1 p.2.1 then none else some (ps.flatMap fun p => s.devRead p.1 p.2.1)

/-- What reading some pieces does beside it (R354, R407). -/
def State.fillPieces (s : State) (ps : List (Nat × Nat × Word)) : State :=
  ps.foldl (fun acc p => acc.touch p.1 p.2.1) s

/-- Writes bytes to some pieces of memory. -/
def State.writePieces (s : State) (ps : List (Nat × Nat × Word)) (bs : List Byte) : State :=
  (ps.foldl (fun acc p => (acc.1.devWrite p.1 (acc.2.take p.2.1), acc.2.drop p.2.1)) (s, bs)).1

/-- The gate window of an address, if it lies in one (R379). -/
def gateDieOf (a : Nat) : Option (Fin 2) := match physKind a with | .gate d => some d | _ => none

/-- Whether some bytes touch a gate window, and whose (R379): with their first byte or with their last. -/
def gateOf (ps : List (Nat × Nat × Word)) : Option (Fin 2) :=
  ps.findSome? fun p => (gateDieOf p.1).or (gateDieOf (p.1 + p.2.1 - 1))

/-- Whether some bytes lie wholly in one gate window (R380). -/
def inGate (d : Fin 2) (ps : List (Nat × Nat × Word)) : Bool :=
  ps.all fun p => gateDieOf p.1 == some d && gateDieOf (p.1 + p.2.1 - 1) == some d

/-! ### Items -/

/-- How many items a command has (R223). -/
def WCmd.items (c : WCmd) : Nat :=
  match c.op with
  | .flush => (c.va + 16 * c.nrows * c.rlen - 1) / 128 + 1 - c.va / 128
  | .far => 1
  | .spillM | .fillM => c.regs.length
  | _ => c.nrows * c.rlen

/-- The granary address of an item. -/
def WCmd.itemAddr (c : WCmd) (n : Nat) : Nat := c.gaddr + 16 * c.pitch * (n / c.rlen) + 16 * (n % c.rlen)

/-- The command goes on with the next items; a new row starts without a residual (R53, R225). -/
def WCmd.next (c : WCmd) (n : Nat) : WCmd :=
  { c with item := c.item + n, res := if (c.item + n) % c.rlen = 0 then none else c.res }

/-- Items fail: the first failure's ECODE stays (R206, R223). -/
def WCmd.failItem (c : WCmd) (ecode : BitVec 4) (n : Nat) : WCmd :=
  { c.next n with ecode := if c.ecode = 0 then ecode else c.ecode }

/-- How many items the access is for that a command is held on: a block of `wn.encode` is written for all of its items
(R223, R225). -/
def WCmd.heldItems (c : WCmd) : Nat :=
  if c.op == .encode && (match c.fmt with | some f => f.1 == 5 | none => false) then
    32 / (128 / unifiedWidth (BitVec.ofNat 5 c.gfmt))
  else 1

/-- The running item of a bank: the state and its command. -/
structure Run where
  s : State
  c : WCmd
  deriving DecidableEq, Repr

/-- Resolves the memory side of `n` items: a fault holds the command and opens or joins a request (R223, R246); a failure
fails the items; else the pieces are used. -/
def withMemory (core : Fin 256) (x : Context) (va len : Nat) (acc : Access) (n : Nat) (r : Run)
    (use : List (Nat × Nat × Word) → Run → Run) : Run :=
  let d := coreDie core
  match r.s.resolve d x.partId x.extents va len acc with
  | .held at_ cause =>
    ⟨r.s.postFault d x.partId at_ acc cause, { r.c with held := some ⟨at_, BitVec.ofNat 2 (acc.kind - 1)⟩ }⟩
  | .fail e => ⟨r.s, r.c.failItem e n⟩
  | .pieces ps =>
    if ps.any fun p => r.s.unlinked p.1 then ⟨r.s, r.c.failItem 2 n⟩
    else use ps { r with s := r.s.cachePages d x.partId va len }

/-- Reads memory for `n` items: an uncorrectable line fails them with ECODE 2 (R206). -/
def readMemory (core : Fin 256) (x : Context) (va len n : Nat) (r : Run) (use : List Byte → Run → Run) : Run :=
  withMemory core x va len .read n r fun ps r =>
    match r.s.readPieces ps with
    | some bs => use bs { r with s := r.s.fillPieces ps }
    | none => ⟨r.s, r.c.failItem 2 n⟩

/-- One granary word of an item is written (R458); where it is, the command goes on as `done`. -/
def putWordAs (core : Fin 256) (a : Nat) (bs : List Byte) (r : Run) (done : WCmd) : Run :=
  let k := r.s.cores[core].writeEngine wainOwns (cellsAt a bs)
  let s := r.s.updCore core fun _ => k.1
  if k.2 then ⟨s, r.c.failItem 1 1⟩ else ⟨s, done.next 1⟩

/-- One granary word of an item is written (R458). -/
def putWord (core : Fin 256) (a : Nat) (bs : List Byte) (r : Run) : Run := putWordAs core a bs r r.c

/-- Writes memory from `n` items: a gate window takes only the bytes of a push (R380), and a line in uncorrectable error takes
none (R355). -/
def writeMemory (core : Fin 256) (x : Context) (va : Nat) (bs : List Byte) (n : Nat) (r : Run) : Run :=
  withMemory core x va bs.length .write n r fun ps r =>
    match gateOf ps with
    | some d =>
      if r.c.op == .copy && inGate d ps && (match r.c.gateDie with | some e => e == d | none => r.c.item = 0) then
        ⟨r.s, { r.c.next n with gate := r.c.gate ++ bs, gateDie := some d }⟩
      else ⟨r.s, r.c.failItem 4 n⟩
    | none => if ps.any fun p => r.s.memBad p.1 p.2.1 then ⟨r.s, r.c.failItem 2 n⟩ else ⟨r.s.writePieces ps bs, if r.c.gateDie.isSome then r.c.failItem 4 n else r.c.next n⟩

/-- The bytes of a granary word, with ECODE 1 where it is in error (R199). -/
def withWord (core : Fin 256) (a len n : Nat) (r : Run) (use : List Byte → Run → Run) : Run :=
  match r.s.cores[core].readBytes wainOwns a len with
  | some bs => use bs r
  | none => ⟨r.s, r.c.failItem 1 n⟩

/-- The memory address of row `r` plus an offset, none beyond 2^52 − 1 (R224): a negative address is beyond it too. -/
def rowVa (base : Nat) (stride : Int) (r off : Nat) : Nat :=
  let a : Int := base + r * stride + off
  if a < 0 then 2 ^ 52 else a.toNat

/-! ### Streams of elements (R225, R345) -/

/-- The bits of `n` elements of width `w`, from some bytes. -/
def unpack (w n : Nat) (bs : List Byte) : List Nat := (List.range n).map fun i => bitsOf (leNat bs) (w * i) w

/-- Elements of width `w` packed into bytes. -/
def pack (w : Nat) (es : List Nat) : List Byte := leBytes (w * es.length / 8) (es.foldr (fun e acc => acc * 2 ^ w + e % 2 ^ w) 0)

/-- The block at which an e2m1 stream begins, if VA names one (R345). -/
def streamBlock (va geom : Nat) : Option Nat :=
  let o := va % 65536
  let size := if geom = 0 then 20 else 16
  if o % size = 0 && o / size < 3276 then some (o / size) else none

/-- The addresses of a block's codes and header, counted from the stream's first block (R345). -/
def blockPlace (va geom block : Nat) : Nat × Nat :=
  let base := va / 65536 * 65536 + block / 3276 * 65536
  let j := block % 3276
  if geom = 0 then (base + 20 * j, base + 20 * j + 16) else (base + 16 * j, base + 52416 + 4 * j)

/-- The residual of one rounded element (R53). -/
def residual (f : FFmt) (m : RMode) (c : FVal) (y : Nat × Flags) : Option FVal :=
  if m != .rneEf then none
  else
    let v := valueOf f y.1
    some (if !v.isNan && !v.isInf && (y.2 &&& flagOF) == 0 then (c.sub v).1 else .fin false 0 0)

/-- A run of elements rounded to `f`, taking up the residual that the row has carried so far in FP32 (R53, R225); a residual of zero
adds nothing (log entry 83). -/
def roundStream (f : FFmt) (m : RMode) : Option FVal → List FVal → List (Nat × Flags) × Option FVal
  | res, [] => ([], res)
  | res, x :: xs =>
    let c := match res with | some e => if e.isZero then x else carried .f32 (carry .f32 (x.add e).1) | none => x
    let y := final f m c
    let t := roundStream f m (residual f m c y) xs
    (y :: t.1, t.2)

/-- Rounds elements and keeps the residual and the flags in the command. -/
def WCmd.round (c : WCmd) (f : FFmt) (xs : List FVal) : List Nat × WCmd :=
  let m := (RMode.ofBits c.rmode).getD .rne
  let t := roundStream f m c.res xs
  (t.1.map (·.1), { c with res := t.2, flags := t.1.foldl (fun acc y => acc ||| y.2) c.flags })

/-- The format and geometry of the stream, read from the page that holds VA (R225): held or failed like an item. Where that
page fails for good the rule gives the stream no format: each item asks again and fails with ECODE 3 itself (DESIGN
CHOICE, log entry 71). -/
def withFormat (core : Fin 256) (x : Context) (acc : Access) (n : Nat) (r : Run) (use : Nat × Nat → Run → Run) : Run :=
  match r.c.fmt with
  | some f => use f r
  | none =>
    withMemory core x r.c.va 1 acc n r fun ps r =>
      match ps with
      | (_, _, leaf) :: _ =>
        let f := ((Leaf.ofWord leaf).fmt, (Leaf.ofWord leaf).geom)
        use f { r with c := { r.c with fmt := some f } }
      | [] => r

/-- Whether every piece's page has the stream's format and geometry (R225). -/
def sameFormat (f : Nat × Nat) (ps : List (Nat × Nat × Word)) : Bool :=
  ps.all fun p => (Leaf.ofWord p.2.2).fmt == f.1 && (Leaf.ofWord p.2.2).geom == f.2

/-- Elements of GFMT in a granary word. -/
def WCmd.perWord (c : WCmd) : Nat := 128 / (unifiedWidth (BitVec.ofNat 5 c.gfmt))

/-- A decoded granary word is written (R225). -/
def putDecoded (core : Fin 256) (vs : List FVal) (r : Run) : Run :=
  let g := matrixFloat r.c.gfmt
  let t := r.c.round g vs
  putWordAs core (r.c.itemAddr r.c.item) (pack g.width t.1) r t.2

/-- One item of `wn.decode` (R225). -/
def decodeItem (core : Fin 256) (x : Context) (r : Run) : Run :=
  withFormat core x .read 1 r fun f r =>
    let n := r.c.perWord
    let first := r.c.item * n
    if f.1 = 5 then
      match streamBlock r.c.va f.2 with
      | none => ⟨r.s, r.c.failItem 4 1⟩
      | some b =>
        let p := blockPlace r.c.va f.2 (b + first / 32)
        let check (ps : List (Nat × Nat × Word)) (use : List Byte → Run → Run) (r : Run) : Run :=
          if !sameFormat f ps then ⟨r.s, r.c.failItem 4 1⟩
          else match r.s.readPieces ps with
            | some bs => use bs { r with s := r.s.fillPieces ps }
            | none => ⟨r.s, r.c.failItem 2 1⟩
        withMemory core x (p.1 + first % 32 / 2) (n / 2) .read 1 r fun ps r =>
          check ps (fun codes r =>
            withMemory core x p.2 4 .read 1 r fun hs r =>
              check hs (fun head r =>
                let h : Header := BitVec.ofNat 32 (leNat head)
                putDecoded core ((unpack 4 n codes).map (blockDecode h)) r) r) r
    else if 5 < f.1 then ⟨r.s, r.c.failItem 4 1⟩
    else
      let w := (matrixFloat f.1).width
      withMemory core x (r.c.va + first * w / 8) (n * w / 8) .read 1 r fun ps r =>
        if !sameFormat f ps then ⟨r.s, r.c.failItem 4 1⟩
        else match r.s.readPieces ps with
          | some bs => putDecoded core ((unpack w n bs).map (valueOf (matrixFloat f.1))) { r with s := r.s.fillPieces ps }
          | none => ⟨r.s, r.c.failItem 2 1⟩

/-- The items of one e2m1 block of `wn.encode` (R225): 32 granary elements quantised, codes and header written. A granary
word in error leaves the block's header and codes without a value, and every item of the block fails with ECODE 1 (DESIGN
CHOICE, log entry 71). -/
def encodeBlock (core : Fin 256) (x : Context) (f : Nat × Nat) (b : Nat) (r : Run) : Run :=
  let n := 32 / r.c.perWord
  let g := matrixFloat r.c.gfmt
  let words := (List.range n).map fun j => r.s.cores[core].readBytes wainOwns (r.c.itemAddr (r.c.item + j)) 16
  if words.any fun w => w.isNone then ⟨r.s, r.c.failItem 1 n⟩
  else
    let bytes := words.flatMap fun w => w.getD []
    let q := quantise ((RMode.ofBits r.c.rmode).getD .rne) ((unpack g.width 32 bytes).map (valueOf g))
    let p := blockPlace r.c.va f.2 (b + r.c.item * r.c.perWord / 32)
    withMemory core x p.1 16 .write n r fun ps r =>
      withMemory core x p.2 4 .write n r fun hs r =>
        if !sameFormat f (ps ++ hs) || (gateOf (ps ++ hs)).isSome then ⟨r.s, r.c.failItem 4 n⟩
        else if (ps ++ hs).any fun p => r.s.memBad p.1 p.2.1 then ⟨r.s, r.c.failItem 2 n⟩
        else
          ⟨(r.s.writePieces ps (pack 4 q.1)).writePieces hs (leBytes 4 q.2.1.toNat),
           { r.c.next n with flags := r.c.flags ||| q.2.2 }⟩

/-- One item, or one e2m1 block, of `wn.encode` (R225). A block whose first items have failed for want of a format fails whole, so
that the blocks behind it keep their places (log entry 71). -/
def encodeItem (core : Fin 256) (x : Context) (r : Run) : Run :=
  withFormat core x .write 1 r fun f r =>
    let n := r.c.perWord
    if f.1 = 5 then
      if r.c.rlen * n % 32 != 0 then ⟨r.s, r.c.failItem 4 1⟩
      else match streamBlock r.c.va f.2 with
        | none => ⟨r.s, r.c.failItem 4 1⟩
        | some b =>
          let j := r.c.item % (32 / n)
          if j = 0 then encodeBlock core x f b r else ⟨r.s, r.c.failItem 3 (32 / n - j)⟩
    else if 5 < f.1 then ⟨r.s, r.c.failItem 4 1⟩
    else
      withWord core (r.c.itemAddr r.c.item) 16 1 r fun bs r =>
        let g := matrixFloat r.c.gfmt
        let d := matrixFloat f.1
        let t := if f.1 = r.c.gfmt then (bs, r.c)
          else
            let u := r.c.round d ((unpack g.width n bs).map (valueOf g))
            (pack d.width u.1, u.2)
        withMemory core x (r.c.va + r.c.item * n * d.width / 8) (n * d.width / 8) .write 1 r fun ps r =>
          if !sameFormat f ps || (gateOf ps).isSome then ⟨r.s, r.c.failItem 4 1⟩
          else if ps.any fun p => r.s.memBad p.1 p.2.1 then ⟨r.s, r.c.failItem 2 1⟩
          else ⟨r.s.writePieces ps t.1, { r.c with res := t.2.res, flags := t.2.flags }.next 1⟩

/-- The dense elements of one group of `wn.expand`, and whether its nibble is malformed (R226). -/
def expandGroup (nibble a b : Nat) : List Nat × Bool :=
  let f := nibble % 4
  let s := nibble / 4 % 4
  if f < s then ((List.range 4).map fun j => if j = f then a else if j = s then b else 0, false)
  else (List.replicate 4 0, true)

/-- One item of `wn.expand` (R226): the kept values and the nibbles of its groups. -/
def expandItem (core : Fin 256) (x : Context) (r : Run) : Run :=
  let w := unifiedWidth (BitVec.ofNat 5 r.c.gfmt)
  let n := 128 / w
  let row := r.c.item / r.c.rlen
  let first := r.c.item % r.c.rlen * n
  let groups := r.c.rlen * n / 4
  let g0 := first / 4
  readMemory core x (rowVa r.c.va r.c.vstride row (first / 2 * w / 8)) 8 1 r fun kept r =>
    let nib := n / 4
    readMemory core x (r.c.meta + row * (groups / 2) + g0 / 2) (nib / 2) 1 r fun ns r =>
      let ks := unpack w (n / 2) kept
      let gs := (List.range nib).map fun g =>
        expandGroup (bitsOf (leNat ns) (4 * g) 4) (ks.getD (2 * g) 0) (ks.getD (2 * g + 1) 0)
      let t := putWord core (r.c.itemAddr r.c.item) (pack w (gs.flatMap (·.1))) r
      if gs.any (·.2) then { t with c := t.c.failItem 4 0 } else t

/-- One line of `wn.flush` (R227); a line in uncorrectable error fails its item (R355). -/
def flushItem (core : Fin 256) (x : Context) (r : Run) : Run :=
  let line := r.c.va / 128 + r.c.item
  let va := max r.c.va (128 * line)
  withMemory core x va 1 .read 1 r fun ps r =>
    match ps with
    | (pa, _, _) :: _ =>
      if r.s.memBad pa 1 then ⟨r.s, r.c.failItem 2 1⟩ else
      match physKind pa with
      | .host d => ⟨r.s.barnDrop d fun l => l.line == lineOf pa, r.c.next 1⟩
      | _ => ⟨r.s, r.c.next 1⟩
    | [] => ⟨r.s, r.c.next 1⟩

/-- One item of a command (R223-R229). -/
def wainItem (core : Fin 256) (x : Context) (r : Run) : Run :=
  let c := r.c
  let row := c.item / c.rlen
  let off := 16 * (c.item % c.rlen)
  match c.op with
  | .copy =>
    if c.dir then withWord core (c.itemAddr c.item) 16 1 r fun bs r => writeMemory core x (c.va + 16 * c.item) bs 1 r
    else readMemory core x (c.va + 16 * c.item) 16 1 r (putWord core (c.itemAddr c.item))
  | .gather => readMemory core x (rowVa c.va c.vstride row off) 16 1 r (putWord core (c.itemAddr c.item))
  | .scatter =>
    withWord core (c.itemAddr c.item) 16 1 r fun bs r => writeMemory core x (rowVa c.va c.vstride row off) bs 1 r
  | .decode => decodeItem core x r
  | .encode => encodeItem core x r
  | .expand => expandItem core x r
  | .flush => flushItem core x r
  | .far => readMemory core x c.va 8 1 r fun bs r =>
      ⟨r.s, { r.c.next 1 with writes := [.s (c.regs.getD 0 0) (intVal (word (leNat bs)))] }⟩
  | .spillM => writeMemory core x (c.va + 768 * c.item) (c.images.getD c.item ⟨0, 0⟩).image 1 r
  | .fillM => readMemory core x (c.va + 768 * c.item) 768 1 r fun bs r =>
      ⟨r.s, { r.c.next 1 with writes := r.c.writes ++ [.v (c.regs.getD c.item 0) (VVal.ofImage bs) fullMask] }⟩

/-- The next item of a command, if one is left and none is held (R212, R223). -/
def nextItem (core : Fin 256) (x : Context) (r : Run) : Run :=
  if r.c.items ≤ r.c.item || r.c.held.isSome then r else wainItem core x r

/-- A command whose items have all run is done, unless it is a push that still has to enter the gate queue (R380): a copy
that lay only in part in a window has failed with ECODE 4. -/
def WCmd.settle (c : WCmd) : WCmd :=
  if c.items ≤ c.item && c.held.isNone then
    if c.gateDie.isSome && c.ecode = 0 then { c with push := true } else { c with done := true }
  else c

/-- The registers of a fill that stopped on a fault land below the faulting image (R229). -/
def Context.landHeld (x : Context) (c : WCmd) : Context × WCmd :=
  if c.held.isSome && c.op == .fillM then (x.writes c.writes, { c with writes := [] }) else (x, c)

/-! ### Pushes (R380, R382) -/

/-- A layer's descriptor on a die, if it is enabled. -/
def layerOf (ls : List Layer) (n : Nat) : Option Layer := ls.find? fun l => l.index == n && l.mode != 0

/-- The first gate entry of some bytes, and the bytes behind it; none where it is malformed or cut off (R382). -/
def gateEntry (ls : List Layer) (bs : List Byte) : Option (GateEntry × List Byte) :=
  let num (off n : Nat) : Nat := leNat ((bs.drop off).take n)
  match layerOf ls (num 4 1) with
  | none => none
  | some l =>
    let closes := (num 5 1).testBit 0
    let size := 16 + if closes || l.mode = 2 then 0 else 4 * l.nexp
    if bs.length < size || 63 < num 4 1 || 1 < num 5 1 || num 8 8 != 0 then none
    else
      some (⟨BitVec.ofNat 32 (num 0 4), num 4 1, closes, BitVec.ofNat 16 (num 6 2),
        (List.range ((size - 16) / 4)).map fun j => BitVec.ofNat 32 (num (16 + 4 * j) 4)⟩, bs.drop size)

/-- The gate entries that some bytes are made of, none where they do not end at an entry's boundary (R380). -/
def gateEntries (ls : List Layer) : Nat → List Byte → Option (List GateEntry)
  | _, [] => some []
  | 0, _ => none
  | fuel + 1, bs => (gateEntry ls bs).bind fun e => (gateEntries ls fuel e.2).map fun es => e.1 :: es

/-- A push whose items have all been accepted: split into entries with the layer table of now; in the format cases no entry
enters and the command has failed with ECODE 4 (R380). -/
def State.splitPush (s : State) (c : WCmd) : WCmd × List GateEntry :=
  match c.push, c.gateDie with
  | true, some d =>
    match gateEntries (s.dies[d]).thresher.layers 2048 c.gate with
    | some es => (c, es)
    | none => ({ c with push := false, done := true, ecode := 4 }, [])
  | _, _ => (c, [])

/-- Runs one item of the command at the head of a bank's queue and puts it back. -/
def State.runWain (s : State) (core : Fin 256) (bank : Bool) (c : WCmd) (x : Context) : State :=
  let r := if c.enabled then nextItem core x ⟨s, c⟩ else ⟨s, { c with done := true }⟩
  let sp := r.s.splitPush (if c.enabled then r.c.settle else r.c)
  let c' := sp.1
  let s1 := r.s.updCore core fun k => k.modCtx bank fun y =>
    let t := y.landHeld c'
    { t.1 with wain := t.2 :: y.wain.drop 1 }
  match c'.push, c'.gateDie with
  | true, some d => s1.updDie d fun e => { e with thresher := { e.thresher with pushes := e.thresher.pushes ++ [⟨core, bank, sp.2⟩] } }
  | _, _ => s1

/-- Whether a bank's oldest command can go on with an item: it has started, items are left, and none is held (R223). -/
def WCmd.runs (c : WCmd) : Bool := c.started && !c.done && !c.push && c.held.isNone

/-- A bank's oldest command starts once the one before it has posted, its tiles' first access no sooner than the owner flip
allows and their quarters awake (R203, R205, R212), unless its task has been cancelled (R327). Each turn runs one item, so
the two banks' commands may interleave item by item (R212). -/
def State.startWain (s : State) (core : Fin 256) (bank : Bool) : State :=
  let k := s.cores[core]
  match k.ctx? bank with
  | some x =>
    match x.wain with
    | c :: _ =>
      if c.runs then s.runWain core bank c x
      else if !c.started && k.engineMay bank c.issue && !k.cancelled bank && k.awake (tilesOf c.spans) then
        s.runWain core bank { c with started := true } x
      else s
    | [] => s
  | none => s

/-- The end of a command (R222): tiles go where HAND says, flags are set, the token posts. -/
def Core.finishWain (k : Core) (bank : Bool) (c : WCmd) (now : Nat) : Core :=
  let k1 := k.modCtx bank fun x => { x with wain := x.wain.drop 1 }
  let tiles := tilesOf c.spans
  let k2 := if c.hand = 0 then k1.giveTiles tiles (bankOwner bank) bank now
    else if c.hand = 1 then k1.giveTiles tiles 3 bank now else k1
  k2.modCtx bank fun x => x.post c.token c.ecode c.flags c.writes

/-- A bank's oldest command completes once its items have all run (R222). -/
def Core.completeWain (k : Core) (bank : Bool) (now : Nat) : Core :=
  match k.ctx? bank with
  | some x => match x.wain with | c :: _ => if c.done then k.finishWain bank c now else k | [] => k
  | none => k

/-- R212: the bank's next command starts, and its items run, one a turn. -/
def execWainCommandStart (core : Fin 256) (bank : Bool) : State → Out := runEvent fun s => s.startWain core bank

/-- R222: the bank's oldest command hands its tiles, sets its flags and posts. -/
def execWainCommandComplete (core : Fin 256) (bank : Bool) : State → Out :=
  runEvent fun s => s.updCore core fun k => k.completeWain bank s.now

end Sys2Proof.Machine
end

