-- ==== Sys2Proof/Machine/Cribs.lean ====
section
/-! DEFINITION. Cribs and barrier contexts as the other units see them (spec/11): descriptors by place (R295, R296), the end
of a crib (R298, R302), the barrier of a gang (R306, R307). -/
namespace Sys2Proof.Machine

/-- The cluster of a core. -/
def clusterOf (c : Fin 256) : Fin 16 := ⟨c.val / 16, by omega⟩

/-- The die of a cluster. -/
def clusterDie (c : Fin 16) : Fin 2 := dieOf (decide (8 ≤ c.val))

/-- A core of a cluster. -/
def coreOf (c : Fin 16) (n : Fin 16) : Fin 256 := ⟨16 * c.val + n.val, by omega⟩

/-- Changes one cluster. -/
def State.updCluster (s : State) (c : Fin 16) (f : Cluster → Cluster) : State :=
  { s with clusters := s.clusters.set c (f s.clusters[c]) }

/-- The descriptor of a crib that nothing has written (R296). -/
def Crib.idle : Crib := ⟨0, 0, 0, false, 0, false, 0, 0, 0, 0, 0, none, [], false⟩

/-- The crib at a place: 64 × core + tile (R295). -/
def Cluster.crib (k : Cluster) (place : Nat) : Crib :=
  match k.cribs.find? fun c => c.place == place with | some c => c.crib | none => .idle

/-- Changes the crib at a place. -/
def Cluster.setCrib (k : Cluster) (place : Nat) (c : Crib) : Cluster :=
  { k with cribs := ⟨place, c⟩ :: k.cribs.filter fun d => d.place != place }

/-- The place of a tile of a core in its cluster's crib table (R295). -/
def cribPlace (c : Fin 256) (tile : Nat) : Nat := 64 * (c.val % 16) + tile

/-- A crib that has become IDLE: COUNT, SAT and FLG are 0 and nothing is pending (R298, R302). -/
def Crib.freed (c : Crib) : Crib :=
  { c with state := 0, count := 0, sat := false, flg := 0, cmd := none, disarm := [], disarming := false }

/-- A crib that has become ARMING: COUNT, SAT and FLG are 0 (R297). -/
def Crib.arming (c : Crib) : Crib :=
  { c with state := 1, count := 0, sat := false, flg := 0, disarm := [], disarming := false }

/-- The crib that triggered a launch is no longer the launch's: its task has given the tile away (R302). -/
def Launch.loseCrib (l : Launch) (cluster : Nat) (place : Nat) : Launch :=
  { l with crib := l.crib.filter fun r => !(r.cluster.val == cluster && r.place == place) }

/-- A CLOSED crib whose task gives the tile to no one goes to IDLE, and the task's end does not concern it any more (R302). -/
def State.freeCrib (s : State) (c : Fin 256) (tile : Nat) : State :=
  let k := s.clusters[clusterOf c]
  if (k.crib (cribPlace c tile)).state = 3 then
    (s.updCluster (clusterOf c) fun k => k.setCrib (cribPlace c tile) (k.crib (cribPlace c tile)).freed).updDie (coreDie c) fun x =>
      { x with granger := { x.granger with launches := x.granger.launches.map fun l => l.loseCrib (c.val / 16 % 8) (cribPlace c tile) } }
  else s

/-- The barrier context of a task (R306). -/
def State.barrier? (s : State) (c : Fin 256) (x : Context) : Option Barrier :=
  x.barrier.bind fun n => (s.clusters[clusterOf c]).barriers[n]

/-- A task's arrival bit is set (R307). -/
def Barrier.arrive (b : Barrier) (task : Nat) : Barrier :=
  if b.arrived.contains task then b else { b with arrived := b.arrived ++ [task] }

/-- Every member has arrived (R307). -/
def Barrier.full (b : Barrier) : Bool := b.members.all fun m => b.arrived.contains m

/-- The generation is complete: every arrival bit is 0 and GEN rises by 1 (R307). -/
def Barrier.complete (b : Barrier) : Barrier := { b with gen := b.gen + 1, arrived := [] }

/-- A member leaves the member set, and its arrival bit is cleared (R306). -/
def Barrier.leave (b : Barrier) (task : Nat) : Barrier :=
  { b with members := b.members.filter fun m => m != task, arrived := b.arrived.filter fun m => m != task }

/-- Changes a barrier context. -/
def Cluster.modBarrier (k : Cluster) (n : Fin 4) (f : Barrier → Barrier) : Cluster :=
  { k with barriers := k.barriers.set n ((k.barriers[n]).map f) }

end Sys2Proof.Machine
end

