-- ==== Sys2Proof/Machine/FabricCmd.lean ====
section
/-! DEFINITION. Fabric commands (spec/17): their staging fields (R444), issue checks (R446) and words (R445, R448-R453), and
which of a bank's commands can send an item or complete next (R434, R447, R450, R453). -/
namespace Sys2Proof.Machine

/-! ### Fields (R444) -/

/-- GADDR of fs0. -/
def FCmd.gaddr (c : FCmd) : Nat := wbits c.fs[0] 0 21
/-- LEN of fs1. -/
def FCmd.lenField (c : FCmd) : Nat := wbits c.fs[1] 0 13
/-- KIND of fs2. -/
def FCmd.kind (c : FCmd) : Nat := wbits c.fs[2] 62 2
/-- ADDR of fs2 as a virtual address. -/
def FCmd.va (c : FCmd) : Nat := wbits c.fs[2] 0 52
/-- CIRCID of fs3. -/
def FCmd.circid (c : FCmd) : Nat := wbits c.fs[3] 24 8
/-- CIRC of fs3. -/
def FCmd.circ (c : FCmd) : Bool := c.fs[3].getLsbD 23
/-- CLS of fs3. -/
def FCmd.cls (c : FCmd) : Nat := wbits c.fs[3] 20 3
/-- SREG of fs3. -/
def FCmd.sreg (c : FCmd) : BitVec 5 := BitVec.ofNat 5 (wbits c.fs[3] 10 5)
/-- RDEST of fs3. -/
def FCmd.rdest (c : FCmd) : Nat := wbits c.fs[3] 8 2
/-- RET of fs3. -/
def FCmd.ret (c : FCmd) : Bool := c.fs[3].getLsbD 7
/-- ORD of fs3. -/
def FCmd.ord (c : FCmd) : Nat := wbits c.fs[3] 0 2

/-- The size of an atomic's location (R449). -/
def atomicSize (ty : BitVec 5) : Nat := if unifiedWidth ty = 64 then 8 else 4

/-- Whether a command reads or writes the granary at GADDR (R448). -/
def FCmd.usesGranary (c : FCmd) : Bool := c.op == .st || (c.op == .ld && c.rdest = 0)

/-- Whether a command uses LEN (R448, R451). -/
def FCmd.usesLen (c : FCmd) : Bool := c.usesGranary || c.op == .flush

/-- The bytes of memory that a command covers. -/
def FCmd.bytes (c : FCmd) : Nat :=
  if c.usesLen then c.lenField
  else match c.op with | .ld | .sdec => 8 | .fence => 0 | _ => atomicSize c.ty

/-- What the address must be a multiple of (R446 code 2). -/
def FCmd.align (c : FCmd) : Nat :=
  if c.usesLen then 16 else match c.op with | .ld | .sdec => 8 | .fence => 1 | _ => atomicSize c.ty

/-- The granary span of a command. -/
def FCmd.spans (c : FCmd) : List (Nat × Nat) := if c.usesGranary then [(c.gaddr, c.lenField)] else []

/-- The tiles of a load into the granary. -/
def FCmd.loadTiles (c : FCmd) : List Nat := if c.op == .ld then tilesOf c.spans else []

/-! ### Issue (R445, R446) -/

/-- The conditions of R446 on the fields: KIND and ORD are judged for every command, a fence included. -/
def FCmd.conds (c : FCmd) : List (Nat × Bool) :=
  [(1, c.usesLen && (c.lenField < 16 || 4080 < c.lenField || c.lenField % 16 != 0)),
   (2, (c.usesGranary && c.gaddr % 16 != 0) || (c.kind = 0 && c.va % c.align != 0)),
   (3, c.usesGranary && decide (granaryBytes < c.gaddr + c.lenField)),
   (4, c.kind = 1 || c.kind = 3 || (c.kind = 2 && c.op != .st)),
   (6, (c.op == .ld || c.op.atomic) && 2 ≤ c.rdest), (6, !c.op.atomic && c.op != .sdec && c.ord != 0),
   (6, c.circ && c.kind = 2)]

/-- The checks of a fabric command in their order (R446). -/
def fabricCheck (k : Core) (x : Context) (c : FCmd) : Check :=
  (((trapIf (decide (32 ≤ x.fabric.length)) causeFabric 5).andThen (codeCheck causeFabric c.conds)).andThen
    (if c.op.atomic && c.ty = 0 then modeCheck x else .ok)).andThen
      (tileCheck (tilesOf c.spans) fun t =>
        if c.op == .st then (k.tile t).owner == bankOwner k.bank
        else (k.tile t).owner == 6 && (k.tile t).giver == k.bank && !x.fabric.any fun q => q.ret && q.loadTiles.contains t)

/-- The model-routing entry of an index on a die, if it is written. -/
def Die.entry? (d : Die) (index : Nat) : Option REntry := d.thresher.routes.find? fun e => e.index == index

/-- V of a control word (R393). -/
def REntry.valid (e : REntry) : Bool := e.ctrl.getLsbD 63

/-- PART of a control word (R393). -/
def REntry.part (e : REntry) : BitVec 4 := BitVec.ofNat 4 (wbits e.ctrl 56 4)

/-- PEER of a destination word (R393). -/
def destPeer (w : Word) : BitVec 12 := BitVec.ofNat 12 (wbits w 52 12)

/-- The destination of an expert send, read at issue (R395). -/
def FCmd.destination (c : FCmd) (d : Die) (part : BitVec 4) : Option Word :=
  match d.entry? (wbits c.fs[2] 0 16) with
  | some e => if e.valid && e.part == part then some e.dest else none
  | none => none

/-- The items of a command as it issues: one that crosses a page is cut when it is sent (R447); an expert send without a
valid entry has failed with ECODE 3 (R395). -/
def FCmd.start (c : FCmd) : List FItem :=
  if !c.enabled || c.op == .fence then []
  else if c.kind = 2 then
    match c.dest with
    | some w => [⟨0, c.bytes, .waiting, 0, some (destPeer w), []⟩]
    | none => [⟨0, c.bytes, .failed 3, 0, none, []⟩]
  else [⟨0, c.bytes, .waiting, 0, none, []⟩]

/-- A command with what it reads at issue (R444, R445, R449, R453). -/
def mkFCmd (op : FOp) (g : BitVec 4) (token ty : BitVec 5) (reg : BitVec 5) (scope : BitVec 3) (d : Die) (k : Core)
    (x : Context) : FCmd :=
  let c : FCmd :=
    { op := op, issue := k.bc, token := token, ty := ty, fs := x.fs, rmode := x.rmode, enabled := laneOn (x.guard g) 0, reg := reg,
      scope := scope, items := [], data := none, dest := none, flags := 0, checked := x.chkmode, hact := x.hact }
  let c1 := { c with dest := if op == FOp.st && c.kind = 2 then c.destination d x.partId else none }
  { c1 with items := c1.start }

/-- The meaning of a fabric word: the hold of an acquire, its checks, then the command enters the bank's queue (R446,
R450). -/
def fabricWord (op : FOp) (g : BitVec 4) (token ty : BitVec 5) (reg : Context → BitVec 5) (scope : BitVec 3) : State → Out :=
  let cmd := fun (s : State) (k : Core) (x : Context) => mkFCmd op g token ty (reg x) scope s.dies[coreDie s.cur] k x
  runWord ⟨.lanes g, [], []⟩ (fun s k x => (acquireHold x).andThen (fabricCheck k x (cmd s k x)))
    fun k x s => s.modCtx fun y => { y with fabric := y.fabric ++ [cmd s k x] }

/-- R448: memory into the granary or a scalar register. -/
def execFxLd (g : BitVec 4) (k : BitVec 5) : State → Out := fabricWord .ld g k 0 (fun _ => 0) 0

/-- R448, R395: granary bytes to memory or to an expert. -/
def execFxSt (g : BitVec 4) (k : BitVec 5) : State → Out := fabricWord .st g k 0 (fun _ => 0) 0

/-- R449: an atomic addition. -/
def execFxAdd (g : BitVec 4) (k ty : BitVec 5) : State → Out := fabricWord .add g k ty (fun _ => 0) 0

/-- R449: an atomic minimum. -/
def execFxMin (g : BitVec 4) (k ty : BitVec 5) : State → Out := fabricWord .min g k ty (fun _ => 0) 0

/-- R449: an atomic maximum. -/
def execFxMax (g : BitVec 4) (k ty : BitVec 5) : State → Out := fabricWord .max g k ty (fun _ => 0) 0

/-- R449: an atomic exchange. -/
def execFxSwap (g : BitVec 4) (k ty : BitVec 5) : State → Out := fabricWord .swap g k ty (fun _ => 0) 0

/-- R449: an atomic compare and swap. -/
def execFxCas (g : BitVec 4) (k ty : BitVec 5) : State → Out := fabricWord .cas g k ty (fun _ => 0) 0

/-- R449: an atomic AND. -/
def execFxAnd (g : BitVec 4) (k ty : BitVec 5) : State → Out := fabricWord .and g k ty (fun _ => 0) 0

/-- R449: an atomic OR. -/
def execFxOr (g : BitVec 4) (k ty : BitVec 5) : State → Out := fabricWord .or g k ty (fun _ => 0) 0

/-- R451: Barn lines of host-side pages written back and dropped at the pages' module. -/
def execFxFlush (g : BitVec 4) (k : BitVec 5) : State → Out := fabricWord .flush g k 0 (fun _ => 0) 0

/-- R453: the peer-failure set into v[vd] once earlier fabric commands have completed. -/
def execFxFence (g : BitVec 4) (k vd : BitVec 5) (scope : BitVec 3) : State → Out :=
  fabricWord .fence g k 0 (fun x => x.vPhys vd) scope

/-- R452: the decrement of a signal. -/
def execFxSdec (g : BitVec 4) (k : BitVec 5) : State → Out := fabricWord .sdec g k 0 (fun _ => 0) 0

/-! ### What a bank's commands can do next -/

/-- An item is over. -/
def FItem.over (i : FItem) : Bool := match i.state with | .done | .failed _ => true | _ => false

/-- An item waits to be sent. -/
def FItem.waits (i : FItem) : Bool := i.state == .waiting

/-- An item is held on an unanswered fault. -/
def FItem.isHeld (i : FItem) : Bool := match i.state with | .held _ => true | _ => false

/-- An item is in flight. -/
def FItem.inFlight (i : FItem) : Bool := match i.state with | .sent _ => true | _ => false

/-- A command sends its items only once every earlier Wain and fabric command of the bank has completed (R450, R452). -/
def FCmd.releases (c : FCmd) : Bool := c.op == .sdec || (c.op.atomic && c.fs[3].getLsbD 1)

/-- A command has items that have not been sent. -/
def FCmd.unstarted (c : FCmd) : Bool := c.items.any FItem.waits

/-- The lines of 128 bytes that the items of a command still to be sent touch, for commands whose order on a line counts
(R434): best-effort ones by address. -/
def FCmd.pendingLines (c : FCmd) : List Nat :=
  if c.circ || c.kind = 2 then []
  else
    (c.items.filter fun i => i.waits || i.isHeld).flatMap fun i =>
      (List.range ((c.va + i.off + i.len - 1) / 128 + 1 - (c.va + i.off) / 128)).map fun j => (c.va + i.off) / 128 + j

/-- Whether the item that a command would send next shares a line with an item of an earlier command that is still to be
sent (R434). -/
def FCmd.lineWaits (c : FCmd) (earlier : List FCmd) : Bool :=
  let ls := c.pendingLines
  earlier.any fun e => e.pendingLines.any fun l => ls.contains l

/-- A command is stuck behind a fault: an item of it is held, or its next item must wait for a stuck earlier command, or for a Wain
queue whose front is held, by R434 or R450. -/
def FCmd.stuck (c : FCmd) (earlier : List FCmd) (wain : List WCmd) : Bool :=
  c.items.any FItem.isHeld ||
    c.unstarted && (c.lineWaits earlier ||
      c.releases && (!earlier.isEmpty || (wain.any fun w => w.held.isSome) && wain.any fun w => w.issue ≤ c.issue))

/-- The commands among some that are stuck, and whether one that is not has not been sent: commands start in issue order, but none
waits for one that is held, or stands behind such a one (R447, R455). -/
def startsBefore (wain : List WCmd) (fs : List FCmd) : List FCmd × Bool :=
  fs.foldl (fun acc c => if c.stuck acc.1 wain then (acc.1 ++ [c], acc.2) else (acc.1, acc.2 || c.unstarted)) ([], false)

/-- The command at a place of a bank's queue is at its next item: its translation can begin (R447, R448, R450, R455). -/
def Context.canAim (x : Context) (n : Nat) : Bool :=
  match x.fabric[n]? with
  | none => false
  | some c =>
    let earlier := x.fabric.take n
    c.unstarted && !c.items.any FItem.isHeld && !c.reading && !(startsBefore x.wain earlier).2 &&
      (!c.releases || (earlier.isEmpty && !x.wain.any fun w => w.issue ≤ c.issue))

/-- The command at a place of a bank's queue can send its next item (R434, R447). -/
def Context.canSend (x : Context) (n : Nat) : Bool :=
  match x.fabric[n]? with
  | none => false
  | some c =>
    x.canAim n && !c.lineWaits (x.fabric.take n) && decide (((x.fabric.flatMap fun f => f.items).filter FItem.inFlight).length < 512)

/-- Whether a command may have this module as a target: one whose target is not known yet may (R453). -/
def FCmd.mayTarget (c : FCmd) (self : BitVec 12) : Bool :=
  c.items.any fun i => match i.peer with | some p => p == self | none => true

/-- The command at a place of a bank's queue can complete (R447); a fence waits for every earlier command of its scope, at
scope domain or system for every earlier one, fences included (R453). -/
def Context.canFinish (x : Context) (self : BitVec 12) (n : Nat) : Bool :=
  match x.fabric[n]? with
  | none => false
  | some c =>
    if c.op == .fence then
      !c.enabled || !(x.fabric.take n).any fun e => decide (4 ≤ c.scope.toNat) || e.mayTarget self
    else !c.reading && c.items.all FItem.over

/-- A bank's fabric queue stands still: no source is left to read, nothing is in flight, can be sent or can complete, so what is
left waits behind a held item (R249, R455). -/
def Context.fabricStill (x : Context) (self : BitVec 12) : Bool :=
  !(x.fabric.any fun c => c.reading || c.items.any FItem.inFlight) &&
    (List.range x.fabric.length).all fun n => !x.canSend n && !x.canFinish self n

/-- SELF of a die's FABCFG (R422). -/
def Die.self (d : Die) : BitVec 12 := BitVec.ofNat 12 (wbits d.fabcfg 0 12)

/-- The ECODE of a command's first failed item (R447). -/
def FCmd.ecode (c : FCmd) : BitVec 4 :=
  (c.items.findSome? fun i => match i.state with | .failed e => some e | _ => none).getD 0

/-- The bits of PFS that a command sets at its post: the target peers of its failed items, or of every item where the granary writes
of the whole command failed (R443). -/
def FCmd.failedPeers (c : FCmd) (whole : Bool) : BitVec 4096 :=
  c.items.foldl (fun acc i =>
    match i.peer with
    | some p => if whole || (match i.state with | .failed _ => true | _ => false) then acc ||| (1 <<< p.toNat) else acc
    | none => acc) 0

/-- The register write of a command at its post (R448, R449, R453): the signed old value of an i32 atomic is extended. -/
def FCmd.registerWrites (c : FCmd) (pfs : BitVec 4096) : List RegWrite :=
  match c.register with
  | some (.v n) => [.v n ⟨pfs, 0⟩ fullMask]
  | some (.s n) =>
    match c.items with
    | i :: _ =>
      if i.state == .done then
        let v := leNat (i.data.take c.bytes)
        [.s n (intVal (if c.ty = 11 then BitVec.ofInt 64 (toSigned 32 v) else word v))]
      else []
    | [] => []
  | _ => []

/-- The bytes that a load into the granary brings, by address (R448). -/
def FCmd.granaryCells (c : FCmd) : List Host.Cell :=
  if c.op == .ld && c.rdest = 0 then
    c.items.flatMap fun i => if i.state == .done then cellsAt (c.gaddr + i.off) (i.data.take i.len) else []
  else []

/-- A command's end (R207, R443, R453): register and granary writes — into tiles that fabric inbound still has from the bank
(R201) —, tile returns, flags, PFS and the post. -/
def Core.finishFabric (k : Core) (bank : Bool) (n : Nat) (c : FCmd) (now : Nat) : Core :=
  let fence := c.op == .fence && c.enabled
  let w := k.writeEngine (fabricOwns bank) c.granaryCells
  let k1 := w.1.modCtx bank fun x => { x with fabric := x.fabric.eraseIdx n }
  let k2 := if c.ret then k1.giveTiles c.loadTiles (bankOwner bank) bank now else k1
  k2.modCtx bank fun x =>
    let y := x.post c.token (if w.2 && c.ecode = 0 then 1 else c.ecode) c.flags (c.registerWrites x.pfs)
    { y with pfs := if fence then 0 else y.pfs ||| c.failedPeers w.2 }

/-- The command at a place of a bank's queue completes if it can, with its tiles' quarters awake and no sooner than the owner
flip of its tiles allows (R203, R205, R447). -/
def Core.completeFabric (k : Core) (self : BitVec 12) (bank : Bool) (n : Nat) (now : Nat) : Core :=
  match k.ctx? bank with
  | some x =>
    match x.fabric[n]? with
    | some c => if x.canFinish self n && k.awake c.loadTiles && (if c.loadTiles.isEmpty then decide (c.issue < k.bc) else k.engineMay bank c.issue) then k.finishFabric bank n c now else k
    | none => k
  | none => k

/-- R447: a fabric command whose items have all finished completes. -/
def execFabricCommandComplete (core : Fin 256) (bank : Bool) (n : Nat) : State → Out :=
  runEvent fun s => s.updCore core fun k => k.completeFabric (s.dies[coreDie core]).self bank n s.now

end Sys2Proof.Machine
end

