-- ==== Sys2Proof/Machine/Image.lean ====
section
/-! DEFINITION. The save image (R250-R254): its sections as bytes, the coding of 16-byte words, and the decoder whose output
alone defines the image. The places that R253 leaves open (the fields of the header, the layout of continuations) are the
model's (log entry 11). -/
namespace Sys2Proof.Machine

/-! ### The coding of 16-byte words (R254) -/

/-- The 16-byte words of a section. -/
def toWords (bs : List Byte) : List (List Byte) := (List.range (bs.length / 16)).map fun i => (bs.drop (16 * i)).take 16

/-- A word of zeros. -/
def zeroWord (w : List Byte) : Bool := w.all (· == 0)

/-- A coding of some words (R254): runs of zero words, and literal words, at most 64 a record. Any coding that decodes to the
words would do (log entry 11). -/
def codeWords : Nat → List (List Byte) → List Byte
  | 0, _ => [0xC0]
  | _, [] => [0xC0]
  | fuel + 1, w :: ws =>
    if zeroWord w then
      let n := min 63 (ws.takeWhile zeroWord).length
      byte (64 + n) :: codeWords fuel (ws.drop n)
    else
      let n := min 63 (ws.takeWhile fun v => !zeroWord v).length
      byte n :: ((w :: ws.take n).flatten ++ codeWords fuel (ws.drop n))

/-- A section's coding. -/
def codeSection (bs : List Byte) : List Byte := codeWords ((toWords bs).length + 1) (toWords bs)

/-- The words of a coded section up to its end record, with the bytes behind it (R254): none where a record is cut off, where
a copy is the first record, or where an end record is not 0xC0. `last` is the word decoded last. -/
def decodeWords : Nat → Option (List Byte) → List Byte → Option (List (List Byte) × List Byte)
  | 0, _, _ => none
  | _, _, [] => none
  | fuel + 1, last, h :: bs =>
    let n := h.toNat % 64 + 1
    let go (ws : List (List Byte)) (rest : List Byte) : Option (List (List Byte) × List Byte) :=
      (decodeWords fuel (ws.getLast?.or last) rest).map fun r => (ws ++ r.1, r.2)
    match h.toNat / 64 with
    | 0 => if bs.length < 16 * n then none else go (toWords (bs.take (16 * n))) (bs.drop (16 * n))
    | 1 => go (List.replicate n (List.replicate 16 0)) bs
    | 2 => match last with | some w => go (List.replicate n w) bs | none => none
    | _ => if h = 0xC0 then some ([], bs) else none

/-- The bytes of a coded section that must decode to a number of bytes. -/
def decodeSection (n : Nat) (bs : List Byte) : Option (List Byte × List Byte) :=
  match decodeWords (bs.length + 1) none bs with
  | some (ws, rest) => if ws.flatten.length = n then some (ws.flatten, rest) else none
  | none => none

/-! ### Reading fields -/

/-- The number in `n` bytes of some bytes. -/
def numAt (bs : List Byte) (off n : Nat) : Nat := leNat ((bs.drop off).take n)

/-- The first `n` bytes and the others, none where there are fewer. -/
def splitBytes (n : Nat) (bs : List Byte) : Option (List Byte × List Byte) := if bs.length < n then none else some (bs.take n, bs.drop n)

/-- Reads a number of records one behind the other. -/
def readMany {α : Type} (f : List Byte → Option (α × List Byte)) : Nat → List Byte → Option (List α × List Byte)
  | 0, bs => some ([], bs)
  | n + 1, bs => (f bs).bind fun r => (readMany f n r.2).map fun q => (r.1 :: q.1, q.2)

/-- A bit for each listed number below 8 × n, in n bytes. -/
def bitmap (n : Nat) (ns : List Nat) : List Byte := leBytes n (ns.eraseDups.foldl (fun acc j => if j < 8 * n then acc + 2 ^ j else acc) 0)

/-- The numbers whose bits are set in some bytes. -/
def bitsSet (bs : List Byte) : List Nat := (List.range (8 * bs.length)).filter fun j => (leNat bs).testBit j

/-- The code of a value by its place in a list of all, and the value of a code. -/
def codeIn {α : Type} [BEq α] (xs : List α) (a : α) : Nat := xs.idxOf a

/-! ### The context section (R253, R443) -/

/-- Scalars, vectors and predicates. -/
def Context.fileBytes (x : Context) : List Byte :=
  (x.s.toList.flatMap fun r => leBytes 8 r.data.toNat ++ leBytes 8 r.tail.toNat) ++ (x.v.toList.flatMap VVal.image) ++
    x.p.toList.flatMap fun p => bvBytes p 64

/-- A quantise latch in 8 bytes (R159, R250). -/
def Latch.bytes (l : Latch) : List Byte := leBytes 3 l.scale.toNat ++ [l.xv, byte l.oidx.toNat, byte l.nanb.toNat, 0, 0]

/-- The latch of 8 bytes. -/
def Latch.ofBytes (bs : List Byte) : Latch :=
  ⟨BitVec.ofNat 24 (numAt bs 0 3), BitVec.ofNat 8 (numAt bs 3 1), BitVec.ofNat 5 (numAt bs 4 1), numAt bs 5 1 = 1⟩

/-- A token in 4 bytes. -/
def Token.bytes (k : Token) : List Byte := leBytes 2 k.count.toNat ++ [byte k.err.toNat, byte k.ecode.toNat]

/-- The control registers of scope context, 8 bytes each, VBASE and PBASE apart (R26). -/
def Context.controls (x : Context) : List Nat :=
  [x.rmode.toNat, x.fflags.toNat, x.chkmode.toNat, x.livecnt.toNat, x.tvec.toNat, x.tepc.toNat, x.tcause.toNat, x.tval.toNat,
    x.tscratch.toNat, x.partId.toNat, x.tindex.toNat, 0]

/-- The context section (R253): registers, VBASE and PBASE, tokens, staging registers and PFS, control registers, latches and
locked rows. -/
def Context.sectionBytes (x : Context) : List Byte :=
  x.fileBytes ++ ([byte x.vbase.val, byte (2 * x.pbase.val)] ++ List.replicate 14 0) ++ (x.k.toList.flatMap Token.bytes) ++
    ((x.ms.toList ++ x.ws.toList ++ x.fs.toList).flatMap fun w => leBytes 8 w.toNat) ++ bvBytes x.pfs 512 ++
    (x.controls.flatMap fun c => leBytes 8 c) ++ (x.latches.toList.flatMap Latch.bytes) ++
    x.locks.flatMap fun a => leBytes 16 a

/-- The size of the context section without its locks. -/
def contextBytes : Nat := 27088

/-- The context of a section, for a task whose name, partition and index the Granger gives. -/
def Context.ofSection (base : Context) (nlock : Nat) (bs : List Byte) : Context :=
  let w (off n : Nat) : Word := word (numAt bs (off + 8 * n) 8)
  let c (n : Nat) : Word := w 26960 n
  { base with
    s := Vector.ofFn fun n => ⟨w (16 * n.val) 0, BitVec.ofNat 2 (numAt bs (16 * n.val + 8) 1)⟩,
    v := Vector.ofFn fun n => .ofImage ((bs.drop (512 + 768 * n.val)).take 768),
    p := Vector.ofFn fun n => BitVec.ofNat 512 (numAt bs (25088 + 64 * n.val) 64),
    vbase := ⟨numAt bs 26112 1 % 24, Nat.mod_lt _ (by decide)⟩, pbase := ⟨numAt bs 26113 1 / 2 % 4, Nat.mod_lt _ (by decide)⟩,
    k := Vector.ofFn fun n => ⟨BitVec.ofNat 16 (numAt bs (26128 + 4 * n.val) 2), numAt bs (26130 + 4 * n.val) 1 = 1, BitVec.ofNat 4 (numAt bs (26131 + 4 * n.val) 1)⟩,
    ms := Vector.ofFn fun n => w 26256 n.val, ws := Vector.ofFn fun n => w 26320 n.val, fs := Vector.ofFn fun n => w 26384 n.val,
    pfs := BitVec.ofNat 4096 (numAt bs 26448 512), rmode := (c 0).setWidth 3, fflags := (c 1).setWidth 5, chkmode := (c 2).getLsbD 0,
    livecnt := (c 3).setWidth 16, tvec := c 4 &&& 0xFFFFFFFFFFFFC, tepc := c 5, tcause := c 6 &&& 0x1FFF, tval := c 7, tscratch := c 8,
    latches := Vector.ofFn fun n => .ofBytes ((bs.drop (27056 + 8 * n.val)).take 8),
    locks := (List.range nlock).map fun n => numAt bs (contextBytes + 16 * n) 16 }

/-! ### Latch entries (R250, R251) -/

/-- The byte lanes of which a vector write touches a bit: the 512-bit lane mask (R250). -/
def lanesOf (m : VVal) : PData :=
  BitVec.ofNat 512 ((List.range 512).foldr (fun i acc => 2 * acc +
    (if bitsOf m.data.toNat (8 * i) 8 != 0 || bitsOf m.tail.toNat (4 * i) 4 != 0 then 1 else 0)) 0)

/-- What a member of an entry holds: its payload and lane mask; parts of a lane that it does not write hold what the register
holds now (log entry 11). -/
def Context.member (x : Context) : RegWrite → List Byte × PData
  | .s _ val => (leBytes 8 val.data.toNat ++ leBytes 8 val.tail.toNat, 0)
  | .v n val mask => ((x.v[n.toFin].merge val mask).image, lanesOf mask)
  | .p _ val mask => (bvBytes val 64, mask)
  | .stage _ _ _ => ([], 0)
  | .latches ls => (ls.flatMap fun l => match l with | some l => l.bytes | none => List.replicate 8 0,
      BitVec.ofNat 512 (ls.foldr (fun l acc => 2 * acc + l.isSome.toNat) 0))

/-- The physical register of a member's 16-byte record (R250). -/
def memberReg (w : RegWrite) : Nat := match w with | .v n _ _ => n.toNat | _ => 0

/-- How many byte lanes of a member one bit of an entry's mask stands for: the elements of a pair or a quad are two or four times
as wide as those that the word's guard lanes select (R250, log entry 11). -/
def laneBytes (kind : Nat) : Nat := if kind = 2 then 2 else if kind = 3 then 4 else 1

/-- The mask of 512 lanes of an entry, from the byte lanes of its members in their order (R250). -/
def entryMask (kind : Nat) (ms : List PData) : PData :=
  let b := laneBytes kind
  BitVec.ofNat 512 ((List.range 512).foldr (fun u acc => 2 * acc +
    (if (List.range b).any fun j => laneOn (ms.getD (u * b / 512) 0) (u * b % 512 + j) then 1 else 0)) 0)

/-- The byte lanes of member `m` in an entry's mask. -/
def memberLanes (kind m : Nat) (mask : PData) : PData :=
  let b := laneBytes kind
  if b = 1 then mask
  else BitVec.ofNat 512 ((List.range 512).foldr (fun i acc => 2 * acc + (if laneOn mask ((512 * m + i) / b) then 1 else 0)) 0)

/-- An entry: header, payload and one lane mask (R250). -/
def LatchEntry.bytes (x : Context) (e : LatchEntry) : List Byte :=
  let ms := e.writes.map fun w => (memberReg w, x.member w)
  leBytes 4 (e.reg.toNat * 2 ^ 27 + e.kind.toNat * 2 ^ 24 + e.off.toNat * 2 ^ 19 + e.slot.toNat * 2 ^ 16 + e.age.toNat) ++
    (ms.flatMap fun m => (if e.kind == 2 || e.kind == 3 then leBytes 16 m.1 else []) ++ m.2.1) ++
    (if e.kind == 0 then [] else bvBytes (entryMask e.kind.toNat (ms.map fun m => m.2.2)) 64)

/-- How many members an entry of a KIND has, and the bytes of each with its record; none for an unused KIND (R250). -/
def memberSize (kind : Nat) : Option (Nat × Nat) :=
  match kind with
  | 0 => some (1, 16) | 1 => some (1, 768) | 2 => some (2, 784) | 3 => some (4, 784) | 4 => some (1, 64) | 5 => some (1, 32)
  | _ => none

/-- The write of a member. -/
def memberWrite (kind reg : Nat) (bs : List Byte) (lanes : PData) : RegWrite :=
  match kind with
  | 0 => .s (BitVec.ofNat 5 reg) ⟨word (numAt bs 0 8), BitVec.ofNat 2 (numAt bs 8 1)⟩
  | 1 => .v (BitVec.ofNat 5 reg) (.ofImage bs) (laneMask lanes)
  | 2 | 3 => .v (BitVec.ofNat 5 (numAt bs 0 1)) (.ofImage (bs.drop 16)) (laneMask lanes)
  | 4 => .p (BitVec.ofNat 3 (reg / 2)) (BitVec.ofNat 512 (leNat bs)) lanes
  | _ => .latches ((List.range 4).map fun n => if laneOn lanes n then some (.ofBytes ((bs.drop (8 * n)).take 8)) else none)

/-- Reads an entry (R250). -/
def readEntry (bs : List Byte) : Option (LatchEntry × List Byte) := do
  let (hb, r1) ← splitBytes 4 bs
  let h := leNat hb
  let kind := bitsOf h 24 3
  let (n, size) ← memberSize kind
  let (ms, r2) ← readMany (splitBytes size) n r1
  let (l, r3) ← if kind = 0 then some ([], r2) else splitBytes 64 r2
  let writes := ms.zipIdx.map fun p => memberWrite kind (bitsOf h 27 5) p.1 (memberLanes kind p.2 (BitVec.ofNat 512 (leNat l)))
  some (⟨BitVec.ofNat 5 (bitsOf h 27 5), BitVec.ofNat 3 kind, BitVec.ofNat 5 (bitsOf h 19 5), BitVec.ofNat 3 (bitsOf h 16 3),
    BitVec.ofNat 16 (bitsOf h 0 16), writes, false⟩, r3)

/-! ### Continuations (R252, R455) -/

/-- The operations of Wain commands in the order of their codes. -/
def wainOps : List WOp := [.copy, .gather, .scatter, .decode, .encode, .expand, .flush, .far, .spillM, .fillM]

/-- The operations of fabric commands in the order of their codes. -/
def fabricOps : List FOp := [.ld, .st, .add, .min, .max, .swap, .cas, .and, .or, .flush, .fence, .sdec]

/-- A residual, or none. -/
def residualBytes : Option FVal → List Byte
  | none => List.replicate 74 0
  | some .nan => 1 :: List.replicate 73 0
  | some (.inf neg) => [2, byte neg.toNat] ++ List.replicate 72 0
  | some (.fin neg mag exp) => [3, byte neg.toNat] ++ leBytes 8 (BitVec.ofInt 64 exp).toNat ++ leBytes 64 mag

/-- The residual of 74 bytes. -/
def residualOf (bs : List Byte) : Option FVal :=
  match numAt bs 0 1 with
  | 0 => none
  | 1 => some .nan
  | 2 => some (.inf (numAt bs 1 1 = 1))
  | _ => some (.fin (numAt bs 1 1 = 1) (numAt bs 10 64) (word (numAt bs 2 8)).toInt)

/-- A Wain continuation (R252): staging fields, RMODE, token, HAND and the index of the faulting item, then how far the
command has come (log entry 11). -/
def WCmd.bytes (c : WCmd) : List Byte :=
  (c.ws.toList.flatMap fun w => leBytes 8 w.toNat) ++
    [byte c.rmode.toNat, byte c.token.toNat, byte c.hand, byte (codeIn wainOps c.op)] ++ leBytes 4 c.item ++
    [byte (c.enabled.toNat + 2 * c.checked.toNat), byte c.ecode.toNat, byte c.flags.toNat,
      (match c.fmt with | some f => byte (128 + f.1) | none => 0), (match c.fmt with | some f => byte f.2 | none => 0),
      (match c.gateDie with | some d => byte (1 + d.val) | none => 0), byte c.regs.length, byte c.images.length] ++
    residualBytes c.res ++ leBytes 4 c.gate.length ++ c.gate ++ (c.regs.map fun r => byte r.toNat) ++ c.images.flatMap VVal.image

/-- Reads a Wain continuation. -/
def readWain (bs : List Byte) : Option (WCmd × List Byte) := do
  let (h, r1) ← splitBytes 158 bs
  let op ← wainOps[numAt h 67 1]?
  let (gate, r2) ← splitBytes (numAt h 154 4) r1
  let (regs, r3) ← splitBytes (numAt h 78 1) r2
  let (images, r4) ← readMany (splitBytes 768) (numAt h 79 1) r3
  let c : WCmd :=
    { op := op, issue := 0, token := BitVec.ofNat 5 (numAt h 65 1), ws := Vector.ofFn fun n => word (numAt h (8 * n.val) 8),
      rmode := BitVec.ofNat 3 (numAt h 64 1), enabled := (numAt h 72 1).testBit 0, regs := regs.map fun b => b.setWidth 5,
      images := images.map VVal.ofImage, checked := (numAt h 72 1).testBit 1, started := false, done := false,
      item := numAt h 68 4, held := none, ecode := BitVec.ofNat 4 (numAt h 73 1), flags := BitVec.ofNat 5 (numAt h 74 1),
      writes := [], fmt := if 128 ≤ numAt h 75 1 then some (numAt h 75 1 - 128, numAt h 76 1) else none,
      res := residualOf ((h.drop 80).take 74), gate := gate,
      gateDie := match numAt h 77 1 with | 1 => some 0 | 2 => some 1 | _ => none, push := false }
  some (c, r4)

/-- An item of a fabric continuation. -/
def FItem.bytes (i : FItem) : List Byte :=
  leBytes 2 i.off ++ leBytes 2 i.len ++
    (match i.state with | .done => [1, 0] | .failed e => [2, byte e.toNat] | _ => [0, 0]) ++
    leBytes 2 (match i.peer with | some p => p.toNat | none => 0xFFFF) ++ leBytes 2 i.data.length ++ i.data

/-- Reads an item of a fabric continuation: one that was held or not sent waits. -/
def readItem (bs : List Byte) : Option (FItem × List Byte) := do
  let (h, r1) ← splitBytes 10 bs
  let (data, r2) ← splitBytes (numAt h 8 2) r1
  let peer := numAt h 6 2
  some (⟨numAt h 0 2, numAt h 2 2,
    (match numAt h 4 1 with | 1 => .done | 2 => .failed (BitVec.ofNat 4 (numAt h 5 1)) | _ => .waiting), 0,
    (if peer < 4096 then some (BitVec.ofNat 12 peer) else none), data⟩, r2)

/-- A fabric continuation (R455): fs fields, RMODE, token, and its items with how each stands (log entry 11). -/
def FCmd.contBytes (c : FCmd) : List Byte :=
  (c.fs.toList.flatMap fun w => leBytes 8 w.toNat) ++
    [byte c.rmode.toNat, byte c.token.toNat, byte (codeIn fabricOps c.op), byte c.ty.toNat, byte c.reg.toNat, byte c.scope.toNat,
      byte (c.enabled.toNat + 2 * c.checked.toNat + 4 * c.hact.toNat + 8 * c.data.isSome.toNat + 16 * c.dest.isSome.toNat),
      byte c.flags.toNat] ++
    leBytes 8 (c.dest.getD 0).toNat ++ leBytes 2 (c.data.getD []).length ++ leBytes 2 c.items.length ++ (c.data.getD []) ++
    c.items.flatMap FItem.bytes

/-- Reads a fabric continuation. -/
def readFabric (bs : List Byte) : Option (FCmd × List Byte) := do
  let (h, r1) ← splitBytes 84 bs
  let op ← fabricOps[numAt h 66 1]?
  let (data, r2) ← splitBytes (numAt h 80 2) r1
  let (items, r3) ← readMany readItem (numAt h 82 2) r2
  let on (n : Nat) : Bool := (numAt h 70 1).testBit n
  let c : FCmd :=
    { op := op, issue := 0, token := BitVec.ofNat 5 (numAt h 65 1), ty := BitVec.ofNat 5 (numAt h 67 1),
      fs := Vector.ofFn fun n => word (numAt h (8 * n.val) 8), rmode := BitVec.ofNat 3 (numAt h 64 1), enabled := on 0,
      reg := BitVec.ofNat 5 (numAt h 68 1), scope := BitVec.ofNat 3 (numAt h 69 1), items := items,
      data := if on 3 then some data else none, dest := if on 4 then some (word (numAt h 72 8)) else none,
      flags := BitVec.ofNat 5 (numAt h 71 1), checked := on 1, hact := on 2 }
  some (c, r3)

/-! ### The granary and accumulator sections (R253) -/

/-- The granary section (R253): a bitmap of the 2,048 rows of 768 bytes, then the coded dirty rows in ascending order. -/
def granarySection (dirty : List Nat) (m : List Host.Cell) : List Byte :=
  let rows := (List.range 2048).filter fun r => dirty.contains r
  bitmap 256 rows ++ codeSection (rows.flatMap fun r => readCells m (768 * r) 768)

/-- Reads the granary section: the dirty rows, and their bytes that are not 0. -/
def readGranary (bs : List Byte) : Option ((List Nat × List Host.Cell) × List Byte) := do
  let (map, r1) ← splitBytes 256 bs
  let rows := bitsSet map
  let (data, r2) ← decodeSection (768 * rows.length) r1
  some ((rows, (rows.zipIdx.flatMap fun p => cellsAt (768 * p.1) ((data.drop (768 * p.2)).take 768)).filter fun c => c.2 != 0), r2)

/-- A weight plane with its tag and the columns that failed (R170, R184). -/
def Plane.bytes (p : Plane) : List Byte :=
  (p.cols.toList.flatMap fun c => bvBytes c 192) ++ [match p.tag with | some t => byte t.toNat | none => 255] ++
    List.replicate 7 0 ++ bitmap 8 p.bad

/-- The weight plane of 12,304 bytes. -/
def Plane.ofBytes (bs : List Byte) : Plane :=
  ⟨Vector.ofFn fun n => BitVec.ofNat 1536 (numAt bs (192 * n.val) 192),
    if numAt bs 12288 1 = 255 then none else some (BitVec.ofNat 5 (numAt bs 12288 1)), bitsSet ((bs.drop 12296).take 8)⟩

/-- A plane of block headers. -/
def scaleBytes (p : ScalePlane) : List Byte := p.toList.flatMap fun e => bvBytes e 48

/-- The plane of block headers of 3,072 bytes. -/
def scaleOf (bs : List Byte) : ScalePlane := Vector.ofFn fun n => BitVec.ofNat 384 (numAt bs (48 * n.val) 48)

/-- Twelve headers that have not been written (R172). -/
def scaleEmpty : BitVec 384 := BitVec.ofNat 384 (0x7F000000 * ((2 ^ 384 - 1) / (2 ^ 32 - 1)))

/-- An accumulator row's 272-byte carried image (R196). -/
def AccRow.bytes (r : AccRow) : List Byte := bvBytes r.data 256 ++ bvBytes r.tail 16

/-- What a holder's section holds behind its rows: both weight planes, both weight-scale planes, the activation-scale buffer,
and the rows in error. -/
def Matrix.planes (m : Matrix) : List Byte :=
  m.active.bytes ++ m.shadow.bytes ++ scaleBytes m.activeScale ++ scaleBytes m.shadowScale ++
    ((List.range 1024).flatMap fun n => bvBytes ((m.actScale.lookup n).getD scaleEmpty) 48) ++ bitmap 128 m.accBad

/-- The accumulator section (R253): a bitmap of the 1,024 rows, then the coded dirty rows, planes and buffer. -/
def Matrix.sectionBytes (m : Matrix) : List Byte :=
  let rows := (List.range 1024).filter fun r => m.acc.any fun e => e.1 == r
  bitmap 128 rows ++ codeSection ((rows.flatMap fun r => match m.acc.lookup r with | some e => e.bytes | none => []) ++ m.planes)

/-- Reads the accumulator section. -/
def readMatrix (bank : Bool) (bs : List Byte) : Option (Matrix × List Byte) := do
  let (map, r1) ← splitBytes 128 bs
  let rows := bitsSet map
  let (data, r2) ← decodeSection (272 * rows.length + 80032) r1
  let at_ (off n : Nat) : List Byte := (data.drop (272 * rows.length + off)).take n
  let row (j : Nat) : AccRow := ⟨BitVec.ofNat 2048 (numAt data (272 * j) 256), BitVec.ofNat 128 (numAt data (272 * j + 256) 16)⟩
  let scales := (List.range 1024).filterMap fun n =>
    let e := BitVec.ofNat 384 (leNat (at_ (30752 + 48 * n) 48))
    if e = scaleEmpty then none else some (n, e)
  some ({ holder := some bank, queue := [], active := .ofBytes (at_ 0 12304), shadow := .ofBytes (at_ 12304 12304),
          activeScale := scaleOf (at_ 24608 3072), shadowScale := scaleOf (at_ 27680 3072), actScale := scales,
          acc := rows.zipIdx.map fun p => (p.1, row p.2), accBad := bitsSet (at_ 79904 128) }, r2)

/-! ### The image (R253) -/

/-- What an image says. -/
structure Image where
  ctx : Context
  snap : Snapshot
  owners : List (Nat × BitVec 3)
  granary : List Host.Cell
  /-- The dirty rows of its tiles (R253). -/
  dirty : List Nat
  matrix : Option Matrix
  deriving DecidableEq, Repr

/-- The header's account of a bank's status (R253): its three bits (fault-waiting, suspended, refused), a cause, KIND with
the word's position, an address and a threshold. -/
def BankStatus.header : BankStatus → Nat × Nat × Nat × Word × Word
  | .faultWaiting cause addr kind pos => (2, cause.toNat, kind.toNat + 16 * pos.toNat, addr, 0)
  | .heldWaiting => (2, 0, 0, 0, 0)
  | .suspended a t => (4, 0, 0, a, t)
  | .refused cause addr pos => (64, cause.toNat, 16 * pos.toNat, addr, 0)
  | _ => (0, 0, 0, 0, 0)

/-- The status with which a restored bank goes on (R133, R243, R247): a suspended task is placed again because its signal is
satisfied, a fault-waiting bank evaluates its bundle again, a refused access raises its trap. -/
def resumedStatus (flags cause kind : Nat) (addr : Word) : BankStatus :=
  if flags.testBit 6 then .refused (BitVec.ofNat 8 cause) addr (BitVec.ofNat 4 (kind / 16)) else .running

/-- The header of an image (R253) of a length. -/
def Image.header (m : Image) (length : Nat) : List Byte :=
  let x := m.ctx
  let st := x.status.header
  leBytes 4 length ++ leBytes 2 m.snap.entries.length ++ [byte x.wain.length, byte x.fabric.length] ++ leBytes 8 x.pc.toNat ++
    [byte x.dly, byte (x.hact.toNat + st.1 + 8 * m.matrix.isSome.toNat + 16 * x.granaryErr.isSome.toNat +
      32 * ((x.granaryErr.map (·.2)).getD false).toNat + 128 * x.arrived.isSome.toNat), byte st.2.1, byte st.2.2.1] ++
    leBytes 2 x.locks.length ++ [0, 0] ++ leBytes 8 st.2.2.2.1.toNat ++ leBytes 8 st.2.2.2.2.toNat ++
    leBytes 8 ((x.granaryErr.map (·.1)).getD 0) ++ leBytes 8 (leNat (bitmap 8 ((m.snap.entries.zipIdx.filter fun e => e.1.checked).map (·.2)))) ++
    leBytes 4 (x.arrived.getD 0) ++ List.replicate 4 0

/-- The sections behind the header (R253). -/
def Image.sections (m : Image) : List Byte :=
  codeSection m.ctx.sectionBytes ++
    ((List.range 64).map fun t => match m.owners.lookup t with | some o => byte o.toNat | none => 255) ++
    (m.snap.entries.flatMap fun e => e.bytes m.ctx) ++ (m.snap.flags.toList.map fun f => byte f.toNat) ++
    (m.ctx.wain.flatMap WCmd.bytes) ++ (m.ctx.fabric.flatMap FCmd.contBytes) ++ granarySection m.dirty m.granary ++
    (match m.matrix with | some x => x.sectionBytes | none => [])

/-- The bytes of an image (R253). -/
def Image.bytes (m : Image) : List Byte := m.header (64 + m.sections.length) ++ m.sections

/-- The decoder (R253, R254) of an image for a task whose first context the Granger knows and for the bank it left; none
where it cannot be decoded or its length does not match. -/
def decodeImage (base : Context) (bank : Bool) (bs : List Byte) : Option Image := do
  let (h, r0) ← splitBytes 64 bs
  let flags := numAt h 17 1
  let nlock := numAt h 20 2
  let (cs, r1) ← decodeSection (contextBytes + 16 * nlock) r0
  let (os, r2) ← splitBytes 64 r1
  let (es, r3) ← readMany readEntry (numAt h 4 2) r2
  let (fl, r4) ← splitBytes 15 r3
  let (wain, r5) ← readMany readWain (numAt h 6 1) r4
  let (fabric, r6) ← readMany readFabric (numAt h 7 1) r5
  let (granary, r7) ← readGranary r6
  let (matrix, r8) ← if flags.testBit 3 then (readMatrix bank r7).map fun r => (some r.1, r.2) else some (none, r7)
  if bs.length != numAt h 0 4 || !r8.isEmpty || 32 < nlock then none
  else
    let x := { Context.ofSection base nlock cs with
      pc := word (numAt h 8 8), dly := numAt h 16 1, hact := flags.testBit 0,
      status := resumedStatus flags (numAt h 18 1) (numAt h 19 1) (word (numAt h 24 8)),
      granaryErr := if flags.testBit 4 then some (numAt h 40 8, flags.testBit 5) else none,
      arrived := if flags.testBit 7 then some (numAt h 56 4) else none, wain := wain, fabric := fabric }
    some { ctx := x, snap := ⟨es.zipIdx.map fun e => { e.1 with checked := (numAt h 48 8).testBit e.2 }, Vector.ofFn fun n => BitVec.ofNat 5 (numAt fl n.val 1)⟩,
           owners := (List.range 64).filterMap fun t => if numAt os t 1 = 255 then none else some (t, BitVec.ofNat 3 (numAt os t 1)),
           granary := granary.2, dirty := granary.1, matrix := matrix }

end Sys2Proof.Machine
end

