-- ==== Sys2Proof/Machine/Hash.lean ====
section
/-! DEFINITION. The checksums of the device: the CRC-32C of R276 and R460, and the frame check sequence's CRC-32 (R262). -/
namespace Sys2Proof.Machine

/-- One bit of a reflected CRC. -/
def crcBit (poly r : BitVec 32) : BitVec 32 := if r.getLsbD 0 then (r >>> 1) ^^^ poly else r >>> 1

/-- One byte of a reflected CRC, least significant bit first (R460). -/
def crcByte (poly r : BitVec 32) (b : Byte) : BitVec 32 :=
  (List.range 8).foldl (fun acc _ => crcBit poly acc) (r ^^^ b.zeroExtend 32)

/-- The CRC-32C of some bytes from an initial value (R460). -/
def crc32c (init : BitVec 32) (bs : List Byte) : BitVec 32 := ~~~(bs.foldl (crcByte 0x82F63B78) init)

/-- The CRC-32 of a frame check sequence, of IEEE 802.3 (R262, log entry 18). -/
def frameCheck (bs : List Byte) : BitVec 32 := ~~~(bs.foldl (crcByte 0xEDB88320) 0xFFFFFFFF)

end Sys2Proof.Machine
end

