-- ==== Sys2Proof/Machine/System.lean ====
section
/-! DEFINITION. The branch/system words that are no branches but `tret` (spec/04, 07, 08, 11, 12, 13): waits and tokens, `dly`,
traps and their return, `end`, fences and barriers, signals, launches from the device, instruction-store locks and tile
owners. -/
namespace Sys2Proof.Machine

/-! ### Tokens (R208-R210) and `dly` (R101) -/

/-- Whether a token has reached a threshold (R208). -/
def Token.reached (t : Token) (thr : BitVec 16) : Bool := decide ((t.count - thr).toNat < 2 ^ 15)

/-- TVAL of a token error (R209). -/
def tokenTval (k : BitVec 5) (t : Token) : Word := word (k.toNat + t.ecode.toNat * 256 + t.count.toNat * 65536)

/-- The condition of `wait` and `waitr` (R208, R209). -/
def tokenCheck (k : BitVec 5) (t : Token) (thr : BitVec 16) : Check :=
  if t.reached thr then trapIf t.err causeToken (tokenTval k t) else .hold

/-- R208: issue is held until token k has reached a threshold of 12 bits. -/
def execWait (g : BitVec 4) (k : BitVec 5) (thr : BitVec 12) : State → Out :=
  runWord ⟨.scalar g, [], []⟩ (fun _ _ x => tokenCheck k x.k[k.toFin] (thr.zeroExtend 16)) fun _ _ s => s

/-- R208: issue is held until token k has reached the threshold s[rs][15:0]. -/
def execWaitr (g : BitVec 4) (k rs : BitVec 5) : State → Out :=
  runWord ⟨.scalar g, [.s rs], []⟩ (fun _ _ x => tokenCheck k x.k[k.toFin] ((x.sdata rs).setWidth 16)) fun _ _ s => s

/-- R210: COUNT := imm12, ERR := 0, ECODE := 0, from the next bundle. -/
def execTkset (g : BitVec 4) (k : BitVec 5) (imm : BitVec 12) : State → Out :=
  runWord ⟨.scalar g, [], []⟩ noCheck fun _ _ s => s.defer (.tokenSet k imm)

/-- R101: empty bundle cycles after this bundle. -/
def execDly (g : BitVec 4) (num : BitVec 8) : State → Out :=
  runWord ⟨.scalar g, [], []⟩ noCheck fun _ _ s => s.modCtx fun x => { x with dly := num.toNat }

/-! ### Traps and the end of a task (R130, R241, R242) -/

/-- R241: the software trap, with TVAL the code. -/
def execTrap (g : BitVec 4) (code : BitVec 12) : State → Out :=
  runWord ⟨.scalar g, [], []⟩ (fun _ _ _ => .trap causeSoftware (zext64 code)) fun _ _ s => s

/-- The checks of `tret` (R242): a handler is active, and TEPC is a code address. -/
def tretCheck (x : Context) : Check := (trapIf (!x.hact) causeTransfer x.tepc).andThen (transferCheck x.tepc)

/-- R242: to TEPC after the delay bundle, with HACT 0 from the target on. -/
def execTret (g : BitVec 4) : State → Out :=
  runWord ⟨.scalar g, [], []⟩ (fun _ _ x => tretCheck x) fun _ x s =>
    s.modCtx fun y => { y with delay := some ⟨true, x.tepc, true⟩ }

/-- R130: no later bundle of the task issues; it retires once it has drained and its engines are done. -/
def execEndTask (g : BitVec 4) : State → Out :=
  runWord ⟨.scalar g, [], []⟩ noCheck fun _ x s =>
    s.modCtx fun y => { y with status := .ending x.pc (word s.issue.pos) 0 0 }

/-! ### Fences and barriers (R307, R357) -/

/-- Every Wain and fabric command that the task issued has completed and posted (R132, R357). -/
def Context.released (x : Context) : Bool := x.wain.isEmpty && x.fabric.isEmpty

/-- The hold of a release (R132, R333, R357). -/
def releaseHold (x : Context) : Check := if x.released then .ok else .hold

/-- R357: held until every earlier Wain and fabric command has posted; the scope tells whom it synchronises with, and in
this model's memory every earlier write is already visible to every agent. -/
def execFence (g : BitVec 4) (_scope : BitVec 3) : State → Out :=
  runWord ⟨.scalar g, [], []⟩ (fun _ _ x => releaseHold x) fun _ _ s => s

/-- A `bar` waits for the task's Wain commands, then, in a gang, until the generation in which it has arrived is
complete (R307). -/
def barCheck (s : State) (x : Context) : Check :=
  if !x.wain.isEmpty then .hold
  else
    match s.barrier? s.cur x, x.arrived with
    | none, _ => .ok
    | some b, some n => if n < b.gen then .ok else .hold
    | some _, none => .hold

/-- A gang member whose Wain commands have completed arrives at the `bar` (R307). -/
def State.barArrive (s : State) (x : Context) : State :=
  match x.barrier, s.barrier? s.cur x with
  | some n, some b =>
    if x.wain.isEmpty && x.arrived.isNone && s.issue.phase != .sched then
      (s.updCluster (clusterOf s.cur) fun k => k.modBarrier n fun b => b.arrive x.task).modCtx fun y => { y with arrived := some b.gen }
    else s
  | _, _ => s

/-- R307: the barrier of a gang. -/
def execBar (g : BitVec 4) (s : State) : Out :=
  let u : Use := ⟨.scalar g, [], []⟩
  let arrive := match s.ctx? with
    | some x => if u.on x && wordCheck u .ok s.core x == .ok then s.barArrive x else s
    | none => s
  runWord u (fun s _ x => barCheck s x) (fun _ _ s => s.modCtx fun y => { y with arrived := none }) arrive

/-! ### Signals (R131-R133) -/

/-- The address of a signal access: aligned, and mapped to this package's memory or to host memory (R131); one that is out of
reach fails as a refused fault does (R402, R404, log entry 77). -/
def signalCheck (s : State) (x : Context) (a : Word) (acc : Access) : Check :=
  if a.toNat % 8 != 0 then .trap causeMisaligned a
  else
    match s.signalAccess (coreDie s.cur) x.partId x.extents a.toNat acc with
    | .phys _ _ => .ok
    | .aper _ _ => .trap causeModel a
    | .fail | .lost => .trap causeDataFault a
    | .fault _ => .pageFault causeDataFault a (BitVec.ofNat 3 acc.kind)

/-- The physical address of a signal access that has passed its checks. -/
def State.signalPhys (s : State) (x : Context) (a : Word) (acc : Access) : Option Nat :=
  match s.signalAccess (coreDie s.cur) x.partId x.extents a.toNat acc with | .phys pa _ => some pa | _ => none

/-- A 64-bit read of memory: where a line of it is in uncorrectable error the value is free (log entry 5). -/
def State.signalRead (s : State) (pa : Nat) : Word := if s.memBad pa 8 then Config.freeBits 64 s.free else word (s.devNat pa 8)

/-- The atomic decrement of a signal (R132); the Granger then reads again the signals that tasks wait for (R133). -/
def State.signalDec (s : State) (pa : Nat) (amount : Word) : State :=
  { (s.draw.barnFill pa).devWrite pa (leBytes 8 (s.signalRead pa - amount).toNat) with reread := true }

/-- The decrement of a signal by a unit of a die that reports no failure: memory out of its reach stays as it is (R402, R404, log
entry 17). -/
def State.decrement (s : State) (d : Fin 2) (pa : Nat) (amount : Word) : State :=
  if s.severed d pa 8 then s else s.signalDec pa amount

/-- R132: held until the task's earlier Wain and fabric operations have completed, then mem64[s[rs]] falls by s[rt]. -/
def execSigDec (g : BitVec 4) (rs rt : BitVec 5) : State → Out :=
  runWord ⟨.scalar g, [.s rs, .s rt], []⟩
    (fun s _ x => (signalCheck s x (x.sdata rs) .atomic).andThen (releaseHold x))
    fun _ x s =>
      match s.signalPhys x (x.sdata rs) .atomic with
      | some pa => (s.signalDec pa (x.sdata rt)).cacheLeaf (coreDie s.cur) x.partId (x.sdata rs).toNat
      | none => s

/-- Whether a signal satisfies a threshold (R133). -/
def satisfied (sig thr : Word) : Bool := sig.sle thr

/-- Whether the signal at a checked address is satisfied. -/
def State.signalMet (s : State) (x : Context) (a thr : Word) : Bool :=
  match s.signalPhys x a .read with | some pa => satisfied (s.signalRead pa) thr | none => false

/-- The Barn line of the signal that `sig.wait` reads (R354). -/
def State.signalFill (s : State) (x : Context) (a : Word) : State :=
  match s.signalPhys x a .read with | some pa => s.touch pa 8 | none => s

/-- The checks of `sig.wait`, and the hold of a gang member whose signal is not satisfied (R131, R133). -/
def sigWaitCheck (rs rt : BitVec 5) (s : State) (x : Context) : Check :=
  (signalCheck s x (x.sdata rs) .read).andThen
    (if x.barrier.isSome && !s.signalMet x (x.sdata rs) (x.sdata rt) then .hold else .ok)

/-- R133: goes on when mem64[s[rs]] ≤ s[rt]; else a gang member holds, and any other task suspends (R326). A bundle that holds has
read the signal through the Barn all the same (R354). -/
def execSigWait (g : BitVec 4) (rs rt : BitVec 5) (s : State) : Out :=
  let u : Use := ⟨.scalar g, [.s rs, .s rt], []⟩
  let check := fun s _ x => sigWaitCheck rs rt s x
  let read := match s.ctx? with
    | some x => if wordVerdict u check s x == .hold then s.signalFill x (x.sdata rs) else s
    | none => s
  runWord u check (fun _ x s =>
    let t := (s.signalFill x (x.sdata rs)).cacheLeaf (coreDie s.cur) x.partId (x.sdata rs).toNat
    if s.signalMet x (x.sdata rs) (x.sdata rt) then t
    else t.modCtx fun y => { y with status := .draining (.suspend (x.sdata rs) (x.sdata rt)) }) read

/-! ### Launches from the device (R333) -/

/-- The slots of a ring (R313). -/
def ringSize (size : BitVec 4) : Nat := 2 ^ (size.toNat + 4)

/-- The queue that `sys.launch` names. -/
def launchQueue (v : Word) : Fin 64 := ⟨wbits v 52 6 % 64, Nat.mod_lt _ (by decide)⟩

/-- The checks of `sys.launch` (R333). -/
def launchCheck (q : Queue) (part : BitVec 4) (v : Word) : Check :=
  ((trapIf (!(q.kind && q.en && q.part == part && q.size.toNat ≤ 12)) causeLaunch 1).andThen
    (trapIf (wbits v 58 6 != 0 || wbits v 0 6 != 0) causeLaunch 2)).andThen
      (trapIf (decide (ringSize q.size ≤ q.qtail - q.qhead)) causeLaunch 3)

/-- Bytes written at a virtual address of a partition by an agent of the die; a page that is not mapped takes nothing
(log entry 17). -/
def State.virtWrite (s : State) (d : Fin 2) (part : BitVec 4) (va : Nat) (bs : List Byte) : State :=
  match s.resolve d part [] va bs.length .write with | .pieces ps => (s.cachePages d part va bs.length).writePieces ps bs | _ => s

/-- A LAUNCH packet (R316). -/
def launchPacket (record : Nat) : List Byte := [1, 0, 0, 0, 0, 0, 0, 0] ++ leBytes 8 record ++ List.replicate 48 0

/-- Changes one queue of a die's Granger. -/
def State.updQueue (s : State) (d : Fin 2) (q : Fin 64) (f : Queue → Queue) : State :=
  s.updDie d fun x => { x with granger := { x.granger with queues := x.granger.queues.set q (f x.granger.queues[q]) } }

/-- A packet is written at QTAIL of a device queue, and QTAIL rises by 1 (R313, R333, R392). -/
def State.enqueue (s : State) (d : Fin 2) (q : Fin 64) (packet : List Byte) : State :=
  let u := (s.dies[d]).granger.queues[q]
  (s.virtWrite d u.part (wbits u.qbase 6 46 * 64 + 64 * (u.qtail % ringSize u.size)) packet).updQueue d q fun u =>
    { u with qtail := (u.qtail + 1) % 2 ^ 64 }

/-- R333: checked at issue, held as a release, then a LAUNCH packet enters a device queue. -/
def execSysLaunch (g : BitVec 4) (rs : BitVec 5) : State → Out :=
  runWord ⟨.scalar g, [.s rs], []⟩
    (fun s _ x =>
      (launchCheck (s.dies[coreDie s.cur]).granger.queues[launchQueue (x.sdata rs)] x.partId (x.sdata rs)).andThen (releaseHold x))
    fun _ x s => s.enqueue (coreDie s.cur) (launchQueue (x.sdata rs)) (launchPacket (wbits (x.sdata rs) 0 52))

/-! ### Instruction-store locks (R231, R232) -/

/-- Whether a bank locks a row. -/
def IRow.lockedBy (r : IRow) (bank : Bool) : Bool := if bank then r.lockB else r.lockA

/-- Sets a bank's lock of a row. -/
def IRow.setLock (r : IRow) (bank on : Bool) : IRow := if bank then { r with lockB := on } else { r with lockA := on }

/-- The rows of a core that are locked: a row locked by both contexts counts once (R231). -/
def Core.lockedRows (k : Core) : Nat := (k.istore.filter fun r => r.lockA || r.lockB).length

/-- The row that `ilock` needs is filled if it is absent, with a freeze of unstated length (R231, log entry 5); a row that
cannot be fetched leaves the core alone. -/
def State.lockFill (s : State) (x : Context) (a : Nat) : State :=
  match s.core.row x.partId a with
  | some _ => s
  | none =>
    match s.syncAccess (coreDie s.cur) x.partId x.extents (rowAddr a) 2048 .fetch with
    | .phys pa _ =>
      if s.memBad pa 2048 then s
      else
        let t := (s.cacheLeaf (coreDie s.cur) x.partId a).touch pa 2048
        t.modCore fun k =>
          { k.insertRow ⟨rowAddr a, x.partId, BitVec.ofNat 16384 (t.devNat pa 2048), false, false, k.bc, [x.kernel]⟩ with freeze := k.freeze + (Config.freeBits 8 s.free).toNat }
    | _ => s

/-- The status of `ilock` once its row has been looked for (R231). -/
def lockStatus (k : Core) (x : Context) (a : Nat) : Nat :=
  match k.row x.partId a with
  | none => 3
  | some r =>
    if r.lockedBy k.bank then 1
    else if !(r.lockA || r.lockB) && 32 ≤ k.lockedRows then 2
    else 0

/-- The issuing bank's lock of the row of an address. -/
def State.setLock (s : State) (x : Context) (a : Nat) (on : Bool) : State :=
  s.modCore fun k =>
    { k.modCtx k.bank (fun y => { y with locks := if on then y.locks ++ [rowAddr a] else y.locks.filter fun l => l != rowAddr a }) with
      istore := k.istore.map fun r => if r.addr == rowAddr a && r.part == x.partId then r.setLock k.bank on else r }

/-- R231: locks the row of s[rs] and writes a status. -/
def execIlock (g : BitVec 4) (rd rs : BitVec 5) : State → Out :=
  runWord ⟨.scalar g, [.s rs], [(.s rd, 1)]⟩ noCheck fun _ x s =>
    let a := (x.sdata rs).toNat
    let t := s.lockFill x a
    let st := lockStatus t.core x a
    (if st = 0 then t.setLock x a true else t).sresult 1 rd (intVal (word st)) 0

/-- R232: releases the context's lock on the row of s[rs]. -/
def execIunlk (g : BitVec 4) (rs : BitVec 5) : State → Out :=
  runWord ⟨.scalar g, [.s rs], []⟩ noCheck fun _ x s => s.setLock x (x.sdata rs).toNat false

/-! ### Tile owners (R202) -/

/-- Whether the table of R202 permits a change of owner. -/
def giveAllowed (k : Core) (x : Context) (tile : Nat) (owner : BitVec 3) : Bool :=
  let t := k.tile tile
  let self := bankOwner k.bank
  let holder := k.matrix.holder == some k.bank
  if t.owner == self then owner == self || owner == 0 || owner == 4 || owner == 6 || (owner == 3 && holder)
  else if t.owner == 4 && t.giver == k.bank then
    (owner == self || owner == 0) && !(x.wain.any fun c => (tilesOf c.spans).contains tile)
  else if t.owner == 3 then
    (owner == self || owner == 0) && holder && !(k.matrix.queue.any fun c => (tilesOf c.spans).contains tile)
  else false

/-- R202: the tile's owner, from the next bundle (R203). -/
def execTgive (g : BitVec 4) (tile : BitVec 6) (owner : BitVec 3) : State → Out :=
  runWord ⟨.scalar g, [], []⟩
    (fun _ k x => trapIf (!giveAllowed k x tile.toNat owner) causeModel (word (24576 * tile.toNat)))
    fun k _ s =>
      if (k.tile tile.toNat).owner == owner then s
      else (if owner = 0 then s.freeCrib s.cur tile.toNat else s).defer (.tileGive tile.toNat owner)

end Sys2Proof.Machine
end

