-- ==== Sys2Proof/Machine/Tasks.lean ====
section
/-! DEFINITION. The state of a task at its launch (R37) and the end of a task on its core (R130, R240, R302). -/
namespace Sys2Proof.Machine

/-- What a launch gives a task (R37, R319). -/
structure Start where
  taskDie : Fin 2
  task : Nat
  kernel : Nat
  entry : Word
  stack : Word
  got : Word
  record : Word
  args : List Word
  chk : Bool
  live : BitVec 16
  tvec : Word
  part : BitVec 4
  index : BitVec 24
  extents : List Extent
  barrier : Option (Fin 4)
  deriving DecidableEq, Repr

/-- The scalar registers at launch (R37). -/
def Start.scalar (a : Start) (n : Nat) : Word :=
  if n = 2 then a.stack else if n = 3 then a.got else if n = 4 then a.record
  else if 5 ≤ n ∧ n ≤ 12 then a.args.getD (n - 5) 0 else 0

/-- A task's first state (R37); TVEC holds bits 51:2 alone (R31): predicates 0, 3, 5, …, 15 all ones, 1, 2, 4, …, 14 all zeros. -/
def Context.start (a : Start) : Context :=
  { taskDie := a.taskDie, task := a.task, kernel := a.kernel, s := Vector.ofFn fun n => ⟨a.scalar n.val, 0⟩, v := Vector.replicate 32 ⟨0, 0⟩,
    p := Vector.ofFn fun n => if n.val = 0 || (n.val % 2 = 1 && n.val != 1) then allLanes else 0, vbase := 0, pbase := 0,
    k := Vector.replicate 32 ⟨0, false, 0⟩, ms := Vector.replicate 8 0, ws := Vector.replicate 8 0,
    fs := Vector.replicate 8 0, rmode := 0, fflags := 0, chkmode := a.chk, livecnt := a.live, tvec := a.tvec &&& 0xFFFFFFFFFFFFC, tepc := 0,
    tcause := 0, tval := 0, tscratch := 0, partId := a.part, tindex := a.index,
    latches := Vector.replicate 4 ⟨0, 0, 0, false⟩, hact := false, pfs := 0, locks := [], pc := a.entry, delay := none, delayBundle := [],
    landed := false, dly := 0, status := .running, pend := [], stores := [], deferred := [], granaryErr := none, wain := [],
    fabric := [], extents := a.extents, waitHold := 0, outFaulted := false, outWait := false, begun := false,
    cancel := false, preempt := false, barrier := a.barrier, arrived := none }

end Sys2Proof.Machine
end

