-- ==== Sys2Proof/Machine/Granger.lean ====
section
/-! DEFINITION. The Granger's queues (spec/12): reads of memory (R459), the journal (R317), fetch and the front (R313-R316,
R413), the doorbell and enables (R314), and the commands WAIT, SIGDEC, COUNTER and TEMPLATE. -/
namespace Sys2Proof.Machine

/-- Changes a die's Granger. -/
def State.updGranger (s : State) (d : Fin 2) (f : Granger → Granger) : State :=
  s.updDie d fun x => { x with granger := f x.granger }

/-- A die's Granger. -/
def State.granger (s : State) (d : Fin 2) : Granger := (s.dies[d]).granger

/-- A queue of a die. -/
def State.queue (s : State) (d : Fin 2) (q : Fin 64) : Queue := (s.granger d).queues[q]

/-! ### Accesses of the Granger (R459) -/

/-- How an access of the Granger ends: its pieces of memory, held on a fault, or not possible. -/
inductive Reach where
  | pieces (ps : List (Nat × Nat × Word))
  | held
  | bad
  deriving DecidableEq, Repr

/-- Translates an access of the Granger: a fault is held with the fault service until it is answered; refused, the access
is not possible (R459). Every asker has its own hold, so that a refusal meets every access held on its request. -/
def State.reach (s : State) (d : Fin 2) (who : Asker) (part : BitVec 4) (va len : Nat) (acc : Access) : State × Reach :=
  match s.resolve d part [] va len acc with
  | .pieces ps => (s.cachePages d part va len, .pieces ps)
  | .fail _ => (s, .bad)
  | .held at_ cause =>
    let same (h : GHold) : Bool := h.who == who && h.page == at_ / 65536 && h.part == part && h.kind == acc.kind
    match (s.granger d).holds.find? same with
    | some h =>
      if h.refused then (s.updGranger d fun g => { g with holds := g.holds.filter fun x => !same x }, .bad)
      else (s.postFault d part at_ acc cause, .held)
    | none =>
      ((s.postFault d part at_ acc cause).updGranger d fun g =>
        { g with holds := g.holds ++ [⟨who, at_ / 65536, part, acc.kind, false⟩] }, .held)

/-- What a read of the Granger answers (R459). -/
inductive Got where
  | bytes (bs : List Byte)
  | held
  | bad
  deriving DecidableEq, Repr

/-- A read of the Granger; an uncorrectable line makes it impossible (R459). -/
def State.grRead (s : State) (d : Fin 2) (who : Asker) (part : BitVec 4) (va len : Nat) : State × Got :=
  let r := s.reach d who part va len .read
  match r.2 with
  | .pieces ps => match r.1.readPieces ps with | some bs => (r.1.fillPieces ps, .bytes bs) | none => (r.1, .bad)
  | .held => (r.1, .held)
  | .bad => (r.1, .bad)

/-- A read of a signal, which is 8-byte aligned (R131). -/
def State.grSignal (s : State) (d : Fin 2) (who : Asker) (part : BitVec 4) (va : Nat) : State × Got :=
  if va % 8 != 0 then (s, .bad) else s.grRead d who part va 8

/-- The decrement of a signal by the Granger (R322, R459): whether it must wait for a fault; one that is not possible is
not made. -/
def State.grDecrement (s : State) (d : Fin 2) (who : Asker) (part : BitVec 4) (va : Nat) (amount : Word) : State × Bool :=
  if va % 8 != 0 then (s, false)
  else
    let r := s.reach d who part va 8 .write
    match r.2 with
    | .pieces ((pa, _, _) :: _) => (if r.1.memBad pa 8 then r.1 else r.1.signalDec pa amount, false)
    | .held => (r.1, true)
    | _ => (r.1, false)

/-- A write of the Granger; none where the page takes none (log entry 17). -/
def State.grWrite (s : State) (d : Fin 2) (part : BitVec 4) (va : Nat) (bs : List Byte) : Option State :=
  match s.resolve d part [] va bs.length .write with | .pieces ps => some ((s.cachePages d part va bs.length).writePieces ps bs) | _ => none

/-! ### The journal (R317) -/

/-- Bytes of a packet as a number. -/
def QCmd.get (c : QCmd) (off n : Nat) : Nat := leNat ((c.packet.drop off).take n)

/-- TYPE of a packet (R316). -/
def QCmd.type (c : QCmd) : Nat := c.get 0 1

/-- A journal entry (R317). -/
def journalEntry (seq : Nat) (hash : BitVec 32) (state status lid failn : Nat) : List Byte :=
  leBytes 8 seq ++ leBytes 4 hash.toNat ++ [byte state, byte status, 0, 0] ++ leBytes 4 lid ++ leBytes 4 failn ++
    List.replicate 8 0

/-- Writes a journal entry; where it cannot be written the queue's fetch stops (R459). -/
def State.journalAt (s : State) (d : Fin 2) (q : Fin 64) (seq : Nat) (entry : List Byte) : State :=
  let u := s.queue d q
  match s.grWrite d u.part (wbits u.jbase 6 46 * 64 + 32 * (seq % ringSize u.size)) entry with
  | some t => t
  | none => s.updQueue d q fun u => { u with stuck := true }

/-- HASH of a packet (R317). -/
def QCmd.hash (c : QCmd) : BitVec 32 := crc32c 0xFFFFFFFF c.packet

/-- Writes the state of a command's journal entry (R317). -/
def State.journal (s : State) (d : Fin 2) (c : QCmd) (state status : Nat) : State :=
  s.journalAt d c.queue c.idx (journalEntry c.idx c.hash state status c.lid c.failn)

/-- Whether two records are of one command. -/
def QCmd.same (a b : QCmd) : Bool := a.queue == b.queue && a.idx == b.idx

/-- Changes a fetched command. -/
def State.updCmd (s : State) (d : Fin 2) (c : QCmd) (f : QCmd → QCmd) : State :=
  s.updGranger d fun g => { g with cmds := g.cmds.map fun x => if x.same c then f x else x }

/-- The Thresher's arm learns the status of its command: any that is not 0 makes it 2 (R391). -/
def ArmRun.note (r : ArmRun) (q : Fin 64) (idx status : Nat) : ArmRun :=
  if r.placed == some (q, idx) then { r with status := some (if status = 0 then 0 else 2) } else r

/-- The Thresher of a die learns the status of a command (R391). -/
def State.noteArm (s : State) (d : Fin 2) (q : Fin 64) (idx status : Nat) : State :=
  s.updDie d fun x => { x with thresher := { x.thresher with arm := x.thresher.arm.map fun r => r.note q idx status } }

/-- A command reaches a terminal state: its journal entry is written, and it is done (R317). -/
def State.finishCmd (s : State) (d : Fin 2) (c : QCmd) (state status : Nat) : State :=
  ((s.journal d c state status).updGranger d fun g => { g with cmds := g.cmds.filter fun x => !x.same c }).noteArm d c.queue c.idx status

/-- A command leaves the front (R315). -/
def State.leaveFront (s : State) (d : Fin 2) (c : QCmd) : State := s.updCmd d c fun x => { x with front := false }

/-! ### Fetch (R313, R315, R316, R413) -/

/-- Whether the queue has a command that is not terminal: ACT of QCFG (R313). A command that is terminal in the journal stands
no longer among the fetched ones, even if its decrement is held. -/
def Granger.active (g : Granger) (q : Fin 64) : Bool := g.cmds.any fun c => c.queue == q

/-- The command at a queue's front. -/
def Granger.front? (g : Granger) (q : Fin 64) : Option QCmd := g.cmds.find? fun c => c.queue == q && c.front

/-- Whether the queue fetches its next command now (R313, R413, R459). -/
def Granger.fetches (g : Granger) (q : Fin 64) : Bool :=
  let u := g.queues[q]
  u.en && !u.stuck && u.size.toNat ≤ 12 && decide (u.qhead < u.qtail) && (g.front? q).isNone &&
    !g.cmds.any fun c => c.queue == q && c.idx + ringSize u.size ≤ u.qhead

/-- A packet that no command fits: another TYPE, or a byte of bytes 1 to 3 that is not 0; the crib commands report their
reserved bytes themselves (R299, R316). -/
def malformedPacket (bs : List Byte) : Bool :=
  let t := leNat (bs.take 1)
  t = 0 || 9 < t || (t != 6 && t != 7 && ((bs.drop 1).take 3).any (· != 0))

/-- One fetch of a queue, and whether the front is free for the next (R315, R316, R459). Every fetched command has its journal
entry with STATE 1 at once (R317, R413), a LAUNCH too, which is accepted or refused later (log entry 75). -/
def State.fetchOne (s : State) (d : Fin 2) (q : Fin 64) : State × Bool :=
  if !(s.granger d).fetches q || s.pkg.halted then (s, false)
  else
    let u := s.queue d q
    let r := s.grRead d (.front q) u.part (wbits u.qbase 6 46 * 64 + 64 * (u.qhead % ringSize u.size)) 64
    let raise (t : State) : State := t.updQueue d q fun u => { u with qhead := u.qhead + 1 }
    match r.2 with
    | .held => (r.1, false)
    | .bad => (raise ((r.1.journalAt d q u.qhead (journalEntry u.qhead 0 4 0xFE 0 0)).noteArm d q u.qhead 0xFE), true)
    | .bytes bs =>
      let c : QCmd := ⟨q, u.qhead, bs, 1, 0, 0, true, false⟩
      if malformedPacket bs then (raise ((r.1.journal d c 4 0xFF).noteArm d q u.qhead 0xFF), true)
      else
        let t := (raise r.1).updGranger d fun g => { g with cmds := g.cmds ++ [c] }
        (t.journal d c 1 0, false)

/-- Fetches until a command stands at the front or none can be fetched. -/
def State.fetchSome (s : State) (d : Fin 2) (q : Fin 64) : Nat → State
  | 0 => s
  | n + 1 => let r := s.fetchOne d q; if r.2 then r.1.fetchSome d q n else r.1

/-- Brings the queue's next command to its front, unless the die's clocks are stopped (R420). -/
def State.fetch (s : State) (d : Fin 2) (q : Fin 64) : State := if s.pkg.frz != 0 then s else s.fetchSome d q ((s.queue d q).qtail - (s.queue d q).qhead)

/-- An event of the command at a queue's front, if it is of the given type. -/
def State.atFront (s : State) (d : Fin 2) (q : Fin 64) (type : Nat) (f : QCmd → State → State) : State :=
  let t := s.fetch d q
  match (t.granger d).front? q with
  | some c => if c.type = type then f c t else t
  | none => t

/-! ### Doorbells and enables (R313, R314) -/

/-- A write of QTAIL: the doorbell of a host queue, clamped to what its ring holds (R313). -/
def Queue.doorbell (u : Queue) (value : Word) : Queue :=
  if u.kind then u else { u with qtail := min value.toNat (u.qhead + ringSize u.size) }

/-- R313: a doorbell, and the fetch that it starts. -/
def execQtailDoorbell (die : Fin 2) (queue : Fin 64) (value : Word) : State → Out :=
  runLoaded fun s => (s.updQueue die queue fun u => u.doorbell value).fetch die queue

/-- The fields of QCFG (R313). -/
def Queue.config (u : Queue) (value : Word) : Queue :=
  { u with part := BitVec.ofNat 4 (wbits value 28 4), kind := value.getLsbD 27, pmax := BitVec.ofNat 3 (wbits value 24 3),
           size := BitVec.ofNat 4 (wbits value 20 4) }

/-- A write of QCFG (R314): fields and EN := 1 are ignored while EN or ACT is 1; EN := 0 stops fetch at once. -/
def Queue.writeConfig (u : Queue) (active : Bool) (value : Word) : Queue :=
  let free := !u.en && !active
  let v := if free then u.config value else u
  if value.getLsbD 0 then (if free then { v with en := true, qhead := 0, qtail := 0, stuck := false } else v)
  else { v with en := false, stuck := false }

/-- A write of QCFG by the host or the Reeve (R313, R314). -/
def State.writeQcfg (s : State) (d : Fin 2) (q : Fin 64) (value : Word) : State :=
  s.updQueue d q fun u => u.writeConfig ((s.granger d).active q) value

/-- R314: EN := 1 restarts a stopped, idle queue. -/
def execQueueEnable (die : Fin 2) (queue : Fin 64) (value : Word) : State → Out :=
  runLoaded fun s => (s.writeQcfg die queue value).fetch die queue

/-- R314: EN := 0 stops fetch; what has been fetched runs on. -/
def execQueueDisable (die : Fin 2) (queue : Fin 64) (value : Word) : State → Out :=
  runLoaded fun s => s.writeQcfg die queue value

/-! ### WAIT, SIGDEC and TEMPLATE (R316, R459) -/

/-- WAIT (R316): leaves the front when its signal satisfies it; unreadable, it fails and stops the queue (R459). -/
def waitFront (d : Fin 2) (c : QCmd) (s : State) : State :=
  let r := s.grSignal d (.front c.queue) (s.queue d c.queue).part (c.get 8 8)
  match r.2 with
  | .bytes bs => if satisfied (word (leNat bs)) (word (c.get 16 8)) then (r.1.finishCmd d c 3 0).fetch d c.queue else r.1
  | .held => r.1
  | .bad => (r.1.finishCmd d c 4 2).updQueue d c.queue fun u => { u with stuck := true }

/-- R316: a WAIT at the front reads its signal. -/
def execQueueWait (die : Fin 2) (queue : Fin 64) : State → Out :=
  runEvent fun s => s.atFront die queue 2 (waitFront die)

/-- Whether an earlier command of the queue has not completed, a SIGDEC whose decrement is held included (R316). -/
def Granger.earlier (g : Granger) (c : QCmd) : Bool :=
  (g.cmds.any fun x => x.queue == c.queue && x.idx < c.idx) || g.decs.any fun h => h.queue == c.queue

/-- SIGDEC (R316): after every earlier command of the queue, the terminal state and then the decrement, which may be held on a
fault after the command has left the front (R317, R459). -/
def sigdecFront (d : Fin 2) (c : QCmd) (s : State) : State :=
  if (s.granger d).earlier c then s
  else
    let part := (s.queue d c.queue).part
    let t := s.finishCmd d c 3 0
    let r := t.grDecrement d (.sigdec c.queue) part (c.get 8 8) (word (c.get 16 8))
    (if r.2 then r.1.updGranger d fun g => { g with decs := g.decs ++ [⟨c.queue, part, c.get 8 8, word (c.get 16 8)⟩] } else r.1).fetch d c.queue

/-- The held decrement of a queue's SIGDEC is tried again (R459). -/
def State.retryDec (s : State) (d : Fin 2) (q : Fin 64) : State :=
  match (s.granger d).decs.find? fun h => h.queue == q with
  | none => s
  | some h =>
    let r := s.grDecrement d (.sigdec q) h.part h.addr h.amount
    if r.2 then r.1 else r.1.updGranger d fun g => { g with decs := g.decs.filter fun x => x.queue != q }

/-- R316: a SIGDEC at the front decrements its signal; a decrement that was held is made first. -/
def execSigdec (die : Fin 2) (queue : Fin 64) : State → Out :=
  runEvent fun s => (s.retryDec die queue).atFront die queue 3 (sigdecFront die)

/-- TEMPLATE (R316): the record is copied into the partition's template table. -/
def templateFront (d : Fin 2) (c : QCmd) (s : State) : State :=
  let index := c.get 8 4
  let part := (s.queue d c.queue).part
  if 1023 < index then (s.finishCmd d c 4 2).fetch d c.queue
  else
    let r := s.grRead d (.front c.queue) part (c.get 16 8) 256
    match r.2 with
    | .held => r.1
    | .bad => (r.1.finishCmd d c 4 1).fetch d c.queue
    | .bytes bs =>
      ((r.1.updGranger d fun g =>
        { g with templates := ⟨part, index, bs, word (c.get 16 8)⟩ :: g.templates.filter fun t => !(t.part == part && t.index == index) }).finishCmd
          d c 3 0).fetch d c.queue

/-- R316: a TEMPLATE at the front. -/
def execTemplate (die : Fin 2) (queue : Fin 64) : State → Out :=
  runEvent fun s => s.atFront die queue 9 (templateFront die)

/-! ### Counters (R321, R322) -/

/-- A free counter's first state (R322). -/
def Counter.opened (id : Nat) (part : BitVec 4) : Counter := ⟨id, part, false, 0, 0, false, 0⟩

/-- The graph (level 2) or phase counters of a Granger. -/
def Granger.counters (g : Granger) (level : Nat) : List Counter := if level = 2 then g.graphs else g.phases

/-- Puts back the graph or phase counters. -/
def Granger.setCounters (g : Granger) (level : Nat) (cs : List Counter) : Granger :=
  if level = 2 then { g with graphs := cs } else { g with phases := cs }

/-- Whether a COUNTER packet names a counter (R318, R321). -/
def counterNamed (c : QCmd) : Bool :=
  let id := c.get 12 4
  (c.get 8 1 = 2 && 1 ≤ id && id ≤ 1023) || (c.get 8 1 = 3 && 1 ≤ id && id ≤ 255)

/-- Frees the closed counters of a level whose OUT is 0, each after the decrement of its signal (R322). -/
def State.settleLevel (s : State) (d : Fin 2) (level : Nat) : State :=
  ((s.granger d).counters level).foldl (fun acc k =>
    if k.closed && k.out = 0 then
      let r := if k.signal = 0 then (acc, false) else acc.grDecrement d (.counter level k.id) k.part k.signal.toNat 1
      if r.2 then r.1
      else r.1.updGranger d fun g => g.setCounters level ((g.counters level).filter fun x => x.id != k.id)
    else acc) s

/-- COUNTER open (R322). -/
def counterOpenFront (d : Fin 2) (c : QCmd) (s : State) : State :=
  let level := c.get 8 1
  if c.get 9 1 != 0 && c.get 9 1 != 1 || !counterNamed c then (s.finishCmd d c 4 0xFF).fetch d c.queue
  else if c.get 9 1 != 0 then s
  else if ((s.granger d).counters level).any fun k => k.id == c.get 12 4 then (s.finishCmd d c 4 1).fetch d c.queue
  else
    ((s.updGranger d fun g =>
      g.setCounters level (.opened (c.get 12 4) (s.queue d c.queue).part :: g.counters level)).finishCmd d c 3 0).fetch d c.queue

/-- R322: a COUNTER open at the front. -/
def execCounterOpen (die : Fin 2) (queue : Fin 64) : State → Out :=
  runEvent fun s => s.atFront die queue 5 (counterOpenFront die)

/-- COUNTER close (R322): the counter takes no more launches, and its signal is the one of the close. -/
def counterCloseFront (d : Fin 2) (c : QCmd) (s : State) : State :=
  let level := c.get 8 1
  let part := (s.queue d c.queue).part
  if c.get 9 1 != 1 || !counterNamed c then s
  else
    (((s.updGranger d fun g =>
      g.setCounters level ((g.counters level).map fun k =>
        if k.id == c.get 12 4 && k.part == part then { k with closed := true, signal := word (c.get 16 8) } else k)).finishCmd
          d c 3 0).settleLevel d level).fetch d c.queue

/-- R322: a COUNTER close at the front. -/
def execCounterClose (die : Fin 2) (queue : Fin 64) : State → Out :=
  runEvent fun s => s.atFront die queue 5 (counterCloseFront die)

end Sys2Proof.Machine
end

