-- ==== Sys2Proof/Machine/Launch.lean ====
section
/-! DEFINITION. Launches (spec/12, spec/14): the launch record (R318), the kernel descriptor and its segments (R337, R338,
R367), acceptance and refusal (R324, R459), counters and completion (R321, R322), dependences (R325), and cancels (R327). -/
namespace Sys2Proof.Machine

/-! ### Records in memory -/

/-- `n` bytes of a record as a number (R2). -/
def recNat (bs : List Byte) (off n : Nat) : Nat := leNat ((bs.drop off).take n)

/-- Whether some bytes of a record are all 0. -/
def recZero (bs : List Byte) (off n : Nat) : Bool := ((bs.drop off).take n).all (· == 0)

/-- Bits lo + n - 1 : lo of one byte of a record. -/
def recBits (bs : List Byte) (off lo n : Nat) : Nat := bitsOf (recNat bs off 1) lo n

/-- The limits of a launch record (R318). -/
def recordOk (va : Nat) (r : List Byte) : Bool :=
  let ntask := recNat r 8 3
  let gang := recNat r 12 1
  va % 64 = 0 && 1 ≤ ntask && recZero r 11 1 && gang ≤ 16 && (gang < 2 || ntask % gang = 0) && recBits r 13 3 4 = 0 &&
    recNat r 24 8 % 32 = 0 && recNat r 40 4 % 16 = 0 && recNat r 44 2 ≤ 1023 && recBits r 47 1 7 = 0 && recNat r 56 4 % 64 = 0 &&
    recZero r 60 4

/-- The limits of a kernel descriptor at an address, and its device hash (R367). -/
def kernelOk (va : Nat) (k : List Byte) : Bool :=
  va % 64 = 0 && recNat k 40 1 ≤ 64 && (recNat k 40 1 != 0 || recNat k 24 8 = 0) && recBits k 41 1 7 = 0 && recNat k 42 1 ≤ 32 && recNat k 43 1 ≤ 32 && recNat k 44 4 % 64 = 0 &&
    word (recNat k 48 8) == Config.deviceHash && recZero k 61 67

/-- An argument word of a launch record (R318). -/
def recArg (r : List Byte) (n : Nat) : Nat := recNat r (128 + 8 * n) 8

/-- The limits of a segment (R337). -/
def segmentOk (e : List Byte) : Bool :=
  1 ≤ recNat e 0 8 && decide (recNat e 0 8 < 2 ^ 52) && recBits e 8 5 3 = 0 && recBits e 10 3 5 = 0 && recNat e 11 1 ≤ 1 &&
    recBits e 12 5 3 = 0 && recBits e 13 2 6 = 0 && recZero e 14 18

/-- A segment with its base (R337, R338). -/
def segmentAt (e : List Byte) (base : Nat) : Segment :=
  ⟨base, recNat e 0 8, BitVec.ofNat 3 (recNat e 10 1), recNat e 11 1 == 0, BitVec.ofNat 5 (recBits e 12 0 5), BitVec.ofNat 2 (recBits e 13 0 2)⟩

/-- What a chain of the Granger's reads has come to: a value, held on a fault, or not readable. -/
inductive Read (α : Type) where
  | ok (a : α)
  | held
  | bad
  deriving DecidableEq, Repr

/-- The base of a segment: an argument word, or the 8 bytes it points at (R338). -/
def State.segmentBase (s : State) (d : Fin 2) (who : Asker) (part : BitVec 4) (r e : List Byte) : State × Read Nat :=
  let a := recArg r (recBits e 8 0 4)
  if recBits e 8 4 1 = 0 then (s, .ok a)
  else
    let g := s.grRead d who part (a + 8 * recNat e 9 1) 8
    match g.2 with | .bytes bs => (g.1, .ok (leNat bs)) | .held => (g.1, .held) | .bad => (g.1, .bad)

/-- The segments of a kernel with their bases (R338). -/
def State.segmentBases (s : State) (d : Fin 2) (who : Asker) (part : BitVec 4) (r : List Byte) : List (List Byte) → State × Read (List Segment)
  | [] => (s, .ok [])
  | e :: es =>
    let b := s.segmentBase d who part r e
    match b.2 with
    | .ok base =>
      let rest := b.1.segmentBases d who part r es
      match rest.2 with
      | .ok segs => (rest.1, .ok (segmentAt e base :: segs))
      | .held => (rest.1, .held)
      | .bad => (rest.1, .bad)
    | .held => (b.1, .held)
    | .bad => (b.1, .bad)

/-- The entries of a segment table. -/
def segmentEntries (bs : List Byte) (n : Nat) : List (List Byte) := (List.range n).map fun j => (bs.drop (32 * j)).take 32

/-- The DEP signals of a record that are used (R318). -/
def recDeps (r : List Byte) : List Dep :=
  ((List.range 4).map fun j => (⟨word (recNat r (64 + 16 * j) 8), word (recNat r (72 + 16 * j) 8), false⟩ : Dep)).filter fun p => p.addr != 0

/-- Reads every used DEP signal once (R459): those that are not satisfied yet (R325). -/
def State.readDeps (s : State) (d : Fin 2) (who : Asker) (part : BitVec 4) : List Dep → State × Read (List Dep)
  | [] => (s, .ok [])
  | p :: ps =>
    let g := s.grSignal d who part p.addr.toNat
    match g.2 with
    | .bytes bs =>
      let rest := g.1.readDeps d who part ps
      match rest.2 with
      | .ok ds => (rest.1, .ok (if satisfied (word (leNat bs)) p.thr then ds else p :: ds))
      | .held => (rest.1, .held)
      | .bad => (rest.1, .bad)
    | .held => (g.1, .held)
    | .bad => (g.1, .bad)

/-! ### Acceptance (R324) -/

/-- A launch that asks for acceptance: its queue, its command if it has one, the record and its address, its partition, and
its crib (R303, R316). -/
structure Ask where
  queue : Fin 64
  cmd : Option QCmd
  record : List Byte
  addr : Nat
  part : BitVec 4
  crib : Option CribRef
  deriving DecidableEq, Repr

/-- Who asks for acceptance: a queue's front or a crib's trigger. -/
def Ask.who (a : Ask) : Asker := match a.crib with | some r => .trigger r.cluster r.place | none => .front a.queue

/-- EN of PARTMAP (R411). -/
def mapEnabled (v : BitVec 8) : Bool := v.getLsbD 7

/-- Whether the Granger may give a core tasks of a partition: its PARTMAP entry names it, no write of the entry waits
(R411), and its cluster is enabled (R417). -/
def State.coreServes (s : State) (c : Fin 256) (part : BitVec 4) : Bool :=
  let v := s.pkg.partmap[c]
  mapEnabled v && v.setWidth 4 == part && !(s.cores[c]).disabled && !s.pkg.partNext.any fun w => w.1 == c

/-- The cores of a die. -/
def dieCores (d : Fin 2) : List (Fin 256) := (List.finRange 256).filter fun c => coreDie c == d

/-- Whether a core is of a partition: its PARTMAP entry, as it stands while a write of it waits, names it with EN 1, and its
cluster is enabled (R411, R417). -/
def State.coreNamed (s : State) (c : Fin 256) (part : BitVec 4) : Bool :=
  mapEnabled s.pkg.partmap[c] && s.pkg.partmap[c].setWidth 4 == part && !(s.cores[c]).disabled

/-- The tiles of a set (R367). -/
def tileSet (w : Word) : List Nat := (List.range 64).filter fun t => w.getLsbD t

/-- Whether some core of the partition can ever hold the kernel's tiles: those of locked tables are no task's (R200). -/
def State.fitsSome (s : State) (d : Fin 2) (part : BitVec 4) (tiles : List Nat) : Bool :=
  (dieCores d).any fun c => s.coreNamed c part && tiles.all fun t => ((s.cores[c]).tile t).owner != 7

/-- Whether a launch may name a graph or phase counter (R322, R327). -/
def Granger.counterOpen (g : Granger) (level id : Nat) (part : BitVec 4) : Bool :=
  id = 0 || (g.counters level).any fun k => k.id == id && k.part == part && !k.closed && !k.cancel

/-- The status of a launch whose record and descriptor are known (R324). -/
def State.launchStatus (s : State) (d : Fin 2) (a : Ask) (k : List Byte) (segs : List (List Byte)) : Nat :=
  let r := a.record
  let g := s.granger d
  if !recordOk a.addr r || !kernelOk (recNat r 0 8) k || segs.any (fun e => !segmentOk e) then 2
  else if recNat r 56 4 < recNat k 44 4 || !s.fitsSome d a.part (tileSet (word (recNat k 32 8))) then 3
  else if !g.counterOpen 2 (recNat r 44 2) a.part || !g.counterOpen 3 (recNat r 46 1) a.part || (g.jobs[a.part.toFin]).cancel then 4
  else if recNat k 60 1 != a.part.toNat then 5
  else 0

/-- How acceptance ends (R324). -/
inductive Verdict where
  | held
  | refused (status : Nat)
  | accepted (kernel : Kernel) (deps : List Dep)
  deriving DecidableEq, Repr

/-- A kernel from its descriptor and segments (R367). -/
def kernelOf (a : Ask) (k : List Byte) (segs : List Segment) : Kernel :=
  { kdesc := word (recNat a.record 0 8), entry := word (recNat k 0 8), trape := word (recNat k 8 8), got := word (recNat k 16 8),
    segs := segs, tiles := word (recNat k 32 8), matrix := recBits k 41 0 1 = 1, nlock := recNat k 42 1, npre := recNat k 43 1,
    savemax := recNat k 44 4, part := a.part }

/-- The rest of acceptance once the descriptor and the DEP signals have been read: the segment table is read if the
descriptor is within its limits. -/
def State.judge (s : State) (d : Fin 2) (a : Ask) (k : List Byte) (deps : List Dep) : State × Verdict :=
  let n := recNat k 40 1
  if n = 0 || 64 < n then
    match s.launchStatus d a k [] with | 0 => (s, .accepted (kernelOf a k []) deps) | st => (s, .refused st)
  else
    let g := s.grRead d a.who a.part (recNat k 24 8) (32 * n)
    match g.2 with
    | .held => (g.1, .held)
    | .bad => (g.1, .refused 1)
    | .bytes bs =>
      match g.1.launchStatus d a k (segmentEntries bs n) with
      | 0 =>
        let b := g.1.segmentBases d a.who a.part a.record (segmentEntries bs n)
        match b.2 with
        | .ok segs => (b.1, .accepted (kernelOf a k segs) deps)
        | .held => (b.1, .held)
        | .bad => (b.1, .refused 1)
      | st => (g.1, .refused st)

/-- The reads and checks of acceptance (R324, R459). -/
def State.verdict (s : State) (d : Fin 2) (a : Ask) : State × Verdict :=
  let k := s.grRead d a.who a.part (recNat a.record 0 8) 128
  match k.2 with
  | .held => (k.1, .held)
  | .bad => (k.1, .refused 1)
  | .bytes kb =>
    let dep := k.1.readDeps d a.who a.part (recDeps a.record)
    match dep.2 with
    | .held => (dep.1, .held)
    | .bad => (dep.1, .refused 1)
    | .ok deps => dep.1.judge d a kb deps

/-- The lowest launch counter that is free, if any (R321). -/
def Granger.freeLid (g : Granger) : Option Nat :=
  (List.range 4096).find? fun n => !g.launches.any fun l => l.lid == n

/-- An accepted launch (R318, R319, R328). -/
def launchOf (u : Queue) (a : Ask) (lid : Nat) (k : Kernel) (deps : List Dep) : Launch :=
  let r := a.record
  let n := recNat r 8 3
  { lid := lid, queue := a.queue, cmd := a.cmd.map fun c => c.idx, part := a.part, kernel := k, record := word a.addr,
    ntask := n, gang := recNat r 12 1, prio := BitVec.ofNat 3 (min (recBits r 13 0 3) u.pmax.toNat), chk := recBits r 13 7 1 = 1,
    live := BitVec.ofNat 16 (recNat r 14 2), signal := word (recNat r 16 8), failslot := word (recNat r 24 8),
    stack := word (recNat r 32 8), sstride := recNat r 40 4, graph := recNat r 44 2, phase := recNat r 46 1,
    save := word (recNat r 48 8), savesz := recNat r 56 4, deps := deps, args := (List.range 16).map fun j => word (recArg r j),
    out := n, failn := 0, lost := false, begun := false, crib := a.crib, bound := a.crib, cancel := false }

/-- A fresh task of a launch (R319, R326, R328). -/
def taskOf (l : Launch) (now id j : Nat) : Task :=
  ⟨id, l.lid, j, if l.deps.isEmpty then .ready else .queued, l.prio, now, now, now, none⟩

/-- Adds to OUT of a counter (R321). -/
def addOut (n : Nat) (k : Counter) : Counter := { k with out := k.out + n }

/-- Changes the counters, beside its own, that a launch counts in (R321): graph, phase and job. -/
def Granger.countIn (g : Granger) (l : Launch) (f : Counter → Counter) : Granger :=
  { g with graphs := g.graphs.map (fun k => if l.graph != 0 && k.id == l.graph then f k else k), phases := g.phases.map (fun k => if l.phase != 0 && k.id == l.phase then f k else k), jobs := g.jobs.set l.part.toFin (f g.jobs[l.part.toFin]) }

/-- A launch enters: its counters rise and its tasks exist (R321, R326). -/
def Granger.enter (g : Granger) (l : Launch) (now : Nat) : Granger :=
  { g.countIn l (addOut l.ntask) with
      launches := g.launches ++ [l], tasks := g.tasks ++ (List.range l.ntask).map fun j => taskOf l now (g.nextTask + j) j,
      nextTask := g.nextTask + l.ntask }

/-- A CLOSED crib whose triggered launch does not come to be placed goes to IDLE and its tile is free (R302). -/
def State.cribReleased (s : State) (d : Fin 2) (r : CribRef) : State :=
  let cl : Fin 16 := ⟨8 * d.val + r.cluster.val, by omega⟩
  let core : Fin 256 := coreOf cl ⟨r.place / 64 % 16, Nat.mod_lt _ (by decide)⟩
  if ((s.clusters[cl]).crib r.place).state != 3 then s
  else
    (s.updCluster cl fun k => k.setCrib r.place (k.crib r.place).freed).updCore core fun k =>
      k.giveTile (r.place % 64) 0 false s.now

/-- What acceptance does (R317, R324): the journal and then the effects, or the refusal. -/
def State.settleAsk (s : State) (d : Fin 2) (a : Ask) (v : Verdict) : State :=
  match v, (s.granger d).freeLid with
  | .held, _ => s
  | .refused st, _ =>
    let t := match a.cmd with | some c => s.finishCmd d c 4 st | none => s
    match a.crib with | some r => t.cribReleased d r | none => t
  | .accepted _ _, none => s
  | .accepted k deps, some lid =>
    let l := launchOf (s.queue d a.queue) a lid k deps
    let t := match a.cmd with
      | some c =>
        let u := s.updCmd d c fun x => { x with state := 1, lid := lid, front := false }
        u.journal d { c with lid := lid } 1 0
      | none => s
    t.updGranger d fun g => g.enter l s.now

/-- A LAUNCH at the front asks for acceptance (R316). -/
def launchFront (d : Fin 2) (c : QCmd) (s : State) : State := s.updCmd d c fun x => { x with asked := true }

/-- R316: a LAUNCH at the queue's front asks for acceptance of its record. -/
def execLaunch (die : Fin 2) (queue : Fin 64) : State → Out :=
  runEvent fun s => s.atFront die queue 1 (launchFront die)

/-- Whether an earlier LAUNCH of the queue has not completed (R315). -/
def Granger.earlierLaunch (g : Granger) (c : QCmd) : Bool :=
  g.cmds.any fun x => x.queue == c.queue && x.type = 1 && x.idx < c.idx

/-- A queue's LAUNCH is taken up: its record is read, ORDER and a free counter hold it back, and it is accepted or refused
(R315, R321, R324). -/
def State.acceptCommand (s : State) (d : Fin 2) (c : QCmd) : State :=
  let part := (s.queue d c.queue).part
  let r := s.grRead d (.front c.queue) part (c.get 8 8) 256
  match r.2 with
  | .held => r.1
  | .bad => (r.1.finishCmd d c 4 1).fetch d c.queue
  | .bytes bs =>
    if recBits bs 47 0 1 = 1 && (r.1.granger d).earlierLaunch c || (r.1.granger d).freeLid.isNone then r.1
    else
      let a : Ask := ⟨c.queue, some c, bs, c.get 8 8, part, none⟩
      let v := r.1.verdict d a
      (v.1.settleAsk d a v.2).fetch d c.queue

/-- The record of a crib's launch: the template's, with the status word in argument word ARGSLOT and LIVE the fill count;
one task and no gang (R303, R319). -/
def triggerRecord (t : Trigger) (r : List Byte) : List Byte :=
  r.take 8 ++ [1, 0, 0, 0, 0] ++ (r.drop 13).take 1 ++ leBytes 2 t.count.toNat ++ (r.drop 16).take (112 + 8 * t.argslot.toNat) ++
    leBytes 8 t.ref.status.toNat ++ r.drop (136 + 8 * t.argslot.toNat)

/-- A crib's trigger is taken up (R303, R324). -/
def State.acceptTrigger (s : State) (d : Fin 2) (n : Nat) (t : Trigger) : State :=
  let g := s.granger d
  let drop (u : State) : State := u.updGranger d fun g => { g with triggers := g.triggers.eraseIdx n }
  match g.templates.find? fun m => m.part == t.part && m.index == t.tmpl with
  | none => drop (s.cribReleased d t.ref)
  | some m =>
    if g.freeLid.isNone then s
    else
      let a : Ask := ⟨t.queue, none, triggerRecord t m.record, m.addr.toNat, t.part, some t.ref⟩
      let v := s.verdict d a
      match v.2 with
      | .held => v.1
      | w => drop (v.1.settleAsk d a w)

/-- What asks for acceptance by number: below 64 a queue's front, from 64 on the triggers of cribs, oldest first. -/
def State.acceptNow (s : State) (d : Fin 2) (ask : Nat) : State :=
  if h : ask < 64 then
    match (s.granger d).front? ⟨ask, h⟩ with
    | some c => if c.type = 1 && c.asked then s.acceptCommand d c else s
    | none => s
  else
    match (s.granger d).triggers[ask - 64]? with
    | some t => s.acceptTrigger d (ask - 64) t
    | none => s

/-- R324: a launch is accepted, raising its counters, or refused with a status. -/
def execLaunchAccept (die : Fin 2) (ask : Nat) : State → Out := runEvent fun s => s.acceptNow die ask

/-! ### Completion (R322, R323) -/

/-- STATE of a launch's journal entry when it is over (R317). -/
def Launch.finalState (l : Launch) : Nat := if l.lost then 5 else if l.failn != 0 then 4 else 3

/-- The journal's terminal state of a launch, once: its command is then over (R317, R322). -/
def State.journalLaunch (s : State) (d : Fin 2) (l : Launch) : State :=
  match (s.granger d).cmds.find? fun c => c.queue == l.queue && l.cmd == some c.idx with
  | some c =>
    (s.journal d { c with lid := l.lid, failn := l.failn } l.finalState 0).updGranger d fun g =>
      { g with launches := g.launches.map (fun x => if x.lid == l.lid then { x with cmd := none } else x), cmds := g.cmds.filter fun x => !x.same c }
  | none => s

/-- The journal's terminal state, the decrement of SIGNAL, and the counter is free (R322); a decrement that is held on a fault
holds this launch's counter alone (R459). -/
def State.completeLaunch (s : State) (d : Fin 2) (l : Launch) : State :=
  let t := s.journalLaunch d l
  let r := if l.signal = 0 then (t, false) else t.grDecrement d (.launch l.lid) l.part l.signal.toNat 1
  if r.2 then r.1
  else
    (r.1.updGranger d fun g =>
      { g with launches := g.launches.filter (fun x => x.lid != l.lid), holds := g.holds.filter fun h => h.who != .deps l.lid }).fetch d l.queue

/-- R322: the launch counters whose OUT is 0 complete; then the closed graph and phase counters whose OUT is 0. -/
def execLaunchComplete (die : Fin 2) : State → Out :=
  runEvent fun s =>
    let t := ((s.granger die).launches.filter fun l => l.out = 0).foldl (fun acc l => acc.completeLaunch die l) s
    (t.settleLevel die 2).settleLevel die 3

/-! ### The end of a task in the Granger's books (R321, R323, R326) -/

/-- How a task ends (R130, R327), with its failure record. -/
inductive Ended where
  | completed
  | failed (record : List Byte)
  | cancelled
  deriving DecidableEq, Repr

/-- Changes a launch. -/
def Granger.updLaunch (g : Granger) (lid : Nat) (f : Launch → Launch) : Granger :=
  { g with launches := g.launches.map fun l => if l.lid == lid then f l else l }

/-- A task's launch. -/
def Granger.launch? (g : Granger) (lid : Nat) : Option Launch := g.launches.find? fun l => l.lid == lid

/-- Changes a task. -/
def Granger.updTask (g : Granger) (id : Nat) (f : Task → Task) : Granger :=
  { g with tasks := g.tasks.map fun t => if t.id == id then f t else t }

/-- A retirement counted: OUT falls by 1 in every counter, FAILN rises for a failure (R321, R323). -/
def countEnd (e : Ended) (k : Counter) : Counter :=
  { k with out := k.out - 1, failn := match e with | .failed _ => k.failn + 1 | _ => k.failn }

/-- The same for a launch. -/
def Launch.countEnd (l : Launch) (e : Ended) : Launch :=
  { l with out := l.out - 1, failn := (match e with | .failed _ => l.failn + 1 | _ => l.failn), lost := l.lost || e == .cancelled }

/-- A task is RETIRED: the failure record of the first failure is written, and the counters fall (R321, R323). -/
def State.taskEnded (s : State) (d : Fin 2) (t : Task) (e : Ended) : State :=
  match (s.granger d).launch? t.lid with
  | none => s.updGranger d fun g => { g with tasks := g.tasks.filter fun x => x.id != t.id }
  | some l =>
    let s1 := match e with
      | .failed rec =>
        if l.failn = 0 && l.failslot != 0 then (s.grWrite d l.part l.failslot.toNat rec).getD s else s
      | _ => s
    s1.updGranger d fun g =>
      { ((g.countIn l (countEnd e)).updLaunch l.lid fun l => l.countEnd e) with
          tasks := g.tasks.filter (fun x => x.id != t.id), holds := g.holds.filter fun h => h.who != .signal t.id && h.who != .image t.id }

end Sys2Proof.Machine
end

