-- ==== Sys2Proof/Machine/Retire.lean ====
section
/-! DEFINITION. The end of a task on its core (R130, R240, R302, R306), cancels (R327), and pre-emption (R248-R253). -/
namespace Sys2Proof.Machine

/-- The launch of the task in a bank. -/
def State.bankLaunch (s : State) (x : Context) : Option Launch :=
  match (s.granger x.taskDie).tasks.find? fun t => t.id == x.task with
  | some t => (s.granger x.taskDie).launch? t.lid
  | none => none

/-! ### What a task's end leaves on the core (R130) -/

/-- The tiles that a bank owns, alone, as giver, or as holder of the matrix engine (R130, R302). -/
def Core.bankTiles (k : Core) (bank : Bool) : List Nat :=
  (List.range 64).filter fun t =>
    let u := k.tile t
    u.owner == bankOwner bank || ((u.owner == 4 || u.owner == 6) && u.giver == bank) || (u.owner == 3 && k.matrix.holder == some bank)

/-- Every instruction-store lock of a bank is released (R130). -/
def Core.unlockAll (k : Core) (bank : Bool) : Core := { k with istore := k.istore.map fun r => r.setLock bank false }

/-- The bank is empty, its tiles are free, its latch entries are gone, and the matrix engine is free if the bank was its holder
(R130, R249). -/
def Core.emptyBank (k : Core) (bank : Bool) (now : Nat) : Core :=
  let k1 := (((k.giveTiles (k.bankTiles bank) 0 false now).unlockAll bank).setCtx bank none).setSnap bank .empty
  if k.matrix.holder == some bank then { k1 with matrix := { k1.matrix with holder := none, queue := [] } } else k1

/-- The tile of a task's crib (R302). -/
def Launch.cribTile (l : Launch) : Option Nat := l.crib.map fun r => r.place % 64

/-- A CLOSED crib at the retirement of its task (R302): it is armed again if REARM is 1 and the task still holds the tile,
else it is IDLE and its tile free. -/
def State.cribRetired (s : State) (c : Fin 256) (l : Launch) (held : Bool) : State :=
  match l.crib with
  | none => s
  | some r =>
    let cl := clusterOf c
    let k := (s.clusters[cl]).crib r.place
    if k.state != 3 then s
    else if k.rearm && held then
      (s.updCluster cl fun x => x.setCrib r.place k.arming).updCore c fun core => core.giveTile (r.place % 64) 5 false s.now
    else s.updCluster cl fun x => x.setCrib r.place k.freed

/-- A barrier context without a task, none once no member is left (R306). -/
def Barrier.without (b : Barrier) (task : Nat) : Option Barrier :=
  if (b.leave task).members.isEmpty then none else some (b.leave task)

/-- A barrier context that a task, if it is a member, has left. -/
def Barrier.drop (b : Barrier) (task : Nat) : Option Barrier := if b.members.contains task then b.without task else some b

/-- The clusters of a die once a task has left their barriers. -/
def Cluster.dropTask (k : Cluster) (task : Nat) : Cluster := { k with barriers := k.barriers.map fun b => b.bind fun (b : Barrier) => b.drop task }

/-- A task leaves its gang's barrier, in a cluster of its die or where it is saved (R306); the last one frees it. -/
def State.leaveGang (s : State) (d : Fin 2) (task : Nat) : State :=
  let cs := Vector.ofFn fun cl : Fin 16 => if clusterDie cl = d then (s.clusters[cl]).dropTask task else s.clusters[cl]
  ({ s with clusters := cs } : State).updGranger d fun g => { g with saved := g.saved.filterMap fun b : Barrier => b.drop task }

/-- Whether a member of the gang of a barrier context stands on the cluster's cores or is being restored there (R306). -/
def State.gangHere (s : State) (cl : Fin 16) (n : Fin 4) : Bool :=
  ((List.finRange 16).any fun m =>
    let k := s.cores[coreOf cl m]
    [k.ctxA, k.ctxB].any fun y => match y with | some y => y.barrier == some n | none => false) ||
  (s.granger (clusterDie cl)).tasks.any fun t =>
    match t.state, t.image with | .restoring e _, some im => clusterOf e == cl && im.barrier == some n | _, _ => false

/-- A gang's barrier context is saved once no member of the gang is left on the cluster (R306). -/
def State.saveBarrier (s : State) (c : Fin 256) (barrier : Option (Fin 4)) : State :=
  match barrier with
  | none => s
  | some n =>
    let cl := clusterOf c
    if s.gangHere cl n then s
    else
      match (s.clusters[cl]).barriers[n] with
      | some b => (s.updCluster cl fun k => { k with barriers := k.barriers.set n none }).updGranger (clusterDie cl) fun g => { g with saved := g.saved ++ [b] }
      | none => s

/-- A kernel's lease was last used now (R334). -/
def Core.touchLease (k : Core) (l : Launch) (now : Nat) : Core :=
  { k with leases := k.leases.map fun e => if e.part == l.part && e.kernel == l.kernel.kdesc.toNat then { e with lastRun := now } else e }

/-! ### Retirement (R130, R240) -/

/-- The lowest token with ERR set (R130). -/
def Context.failedToken (x : Context) : Option (BitVec 5) :=
  ((List.finRange 32).find? fun n => (x.k[n]).err).map fun n => BitVec.ofNat 5 n.val

/-- The failure record (R240). -/
def failRecord (tepc tcause tval : Word) (tindex : BitVec 24) (loc reason : Nat) : List Byte :=
  leBytes 8 tepc.toNat ++ leBytes 8 tcause.toNat ++ leBytes 8 tval.toNat ++ leBytes 4 tindex.toNat ++ leBytes 2 loc ++ leBytes 2 reason

/-- How a task that has stopped issuing ends (R130, R240): with the record of its failure, of the lowest failed token, or
completed. -/
def Context.ended (x : Context) (c : Fin 256) (bank : Bool) (tepc tcause tval : Word) (reason : Nat) : Ended :=
  let loc := (coreloc c bank).toNat
  if reason = endCancelled then .cancelled
  else if reason != 0 then .failed (failRecord tepc tcause tval x.tindex loc reason)
  else
    match x.failedToken with
    | none => .completed
    | some k => .failed (failRecord tepc (tcauseWord causeToken (tcause.setWidth 4) false) (tokenTval k x.k[k.toFin]) x.tindex loc 4)

/-- Whether every engine operation of a bank has posted (R130, R249). -/
def Core.bankIdle (k : Core) (bank : Bool) (x : Context) : Bool :=
  x.wain.isEmpty && x.fabric.isEmpty && !k.matrix.queue.any fun c => c.bank == bank

/-- A bank's task has stopped for good: its end has issued, it has failed, or its cancel has taken effect (R130, R240,
R327). -/
def Context.ends (x : Context) : Bool :=
  match x.status with | .ending _ _ _ reason => reason == endCancelled || x.drained | _ => false

/-- The task of a bank retires: tiles, locks, barrier, crib and bank on its core, then the Granger's books. Where the others of its
gang have been taken off, the barrier context is saved without it (R306). -/
def State.retireBank (s : State) (c : Fin 256) (bank : Bool) (x : Context) (e : Ended) : State :=
  let l := s.bankLaunch x
  let held := match l.bind Launch.cribTile with | some t => (s.cores[c].bankTiles bank).contains t | none => false
  let s1 := ((s.leaveGang x.taskDie x.task).updCore c fun k => k.emptyBank bank s.now).saveBarrier c x.barrier
  let s2 := match l with | some l => (s1.cribRetired c l held).updCore c fun k => k.touchLease l s.now | none => s1
  match (s2.granger x.taskDie).tasks.find? fun t => t.id == x.task with
  | some t => s2.taskEnded x.taskDie t e
  | none => s2

/-- A fabric item of a cancelled bank: one that has not been sent fails with ECODE 7 (R327). -/
def FItem.cancelled (i : FItem) : FItem :=
  match i.state with | .waiting | .held _ => { i with state := .failed 7 } | _ => i

/-- A cancelled bank's engines (R327): matrix and Wain commands that have not started do nothing and post with ECODE 7, and fabric
items that have not been sent fail with it. -/
def Core.cancelEngines (k : Core) (bank : Bool) : Core :=
  let gone (c : MCmd) : Bool := c.bank == bank && !c.started
  let k1 := { k with matrix := { k.matrix with queue := k.matrix.queue.filter fun c => !gone c } }
  k1.modCtx bank fun x =>
    let tokens := (k.matrix.queue.filter gone).map (·.token) ++ (x.wain.filter fun w => !w.started).map (·.token)
    tokens.foldl (fun y t => y.post t 7 0 [])
      { x with wain := x.wain.filter (fun w => w.started), fabric := x.fabric.map fun f => { f with items := f.items.map FItem.cancelled } }

/-- The Wain command of a cancelled bank that is held on a fault goes on behind the item (R327). -/
def State.cancelHeld (s : State) (c : Fin 256) (bank : Bool) : State :=
  match (s.cores[c]).ctx? bank with
  | some x =>
    match x.wain with
    | w :: _ => if w.held.isSome then s.runWain c bank ({ w with held := none }.failItem 7 w.heldItems) x else s
    | [] => s
  | none => s

/-- The end of a bank's task, once it has stopped: its engines first, then its retirement (R130, R327). -/
def State.retireIf (s : State) (c : Fin 256) (bank : Bool) : State :=
  let s0 := s.updCore c fun k => k.stopCancelled bank
  match (s0.cores[c]).ctx? bank with
  | some x =>
    match x.status with
    | .ending tepc tcause tval reason =>
      if reason != endCancelled && !x.drained then s0
      else
        let s1 := if reason = endCancelled then (s0.updCore c fun k => k.cancelEngines bank).cancelHeld c bank else s0
        match (s1.cores[c]).ctx? bank with
        | some y => if (s1.cores[c]).bankIdle bank y then s1.retireBank c bank y (y.ended c bank tepc tcause tval reason) else s1
        | none => s1
    | _ => s0
  | none => s0

/-- Whether a bank's task is one that a cancel's level and ids name (R327). -/
def cancelNames (l : Launch) (t : Task) (level id index : Nat) : Bool :=
  match level with
  | 0 => l.lid == id && (t.index == index || (2 ≤ l.gang && t.index / l.gang == index / l.gang))
  | 1 => l.lid == id
  | 2 => l.graph == id && id != 0
  | 3 => l.phase == id && id != 0
  | _ => l.part.toNat == id

/-- The tasks of a partition that a cancel names, with their launches. -/
def Granger.named (g : Granger) (part : BitVec 4) (level id index : Nat) : List (Task × Launch) :=
  g.tasks.filterMap fun t =>
    match g.launch? t.lid with
    | some l => if l.part == part && cancelNames l t level id index then some (t, l) else none
    | none => none

/-- Whether a cancelled task still runs (R327). -/
def State.stillRuns (s : State) (t : Task) : Bool :=
  match t.state with
  | .placed c bank => (match (s.cores[c]).ctx? bank with | some x => x.cancel | none => false)
  | _ => false

/-- Cancels that have taken effect complete (R316, R327). -/
def State.settleCancels (s : State) (d : Fin 2) : State :=
  (s.granger d).cmds.foldl (fun acc c =>
    if c.type = 4 && !c.front then
      let part := (acc.queue d c.queue).part
      if ((acc.granger d).named part (c.get 8 1) (c.get 12 4) (c.get 16 4)).any fun p => acc.stillRuns p.1 then acc
      else acc.finishCmd d c 3 0
    else acc) s

/-- Whether both banks of a core are empty, and no task is being restored on it (R411). -/
def State.coreEmpty (s : State) (c : Fin 256) : Bool :=
  (s.cores[c]).ctxA.isNone && (s.cores[c]).ctxB.isNone &&
    !(s.granger (coreDie c)).tasks.any fun t => match t.state with | .restoring e _ => e == c | _ => false

/-- Writes of PARTMAP take effect once both banks of their core are empty (R411). -/
def State.settlePartmap (s : State) : State :=
  let due := s.pkg.partNext.filter fun w => s.coreEmpty w.1
  { s with pkg := { s.pkg with partmap := due.foldl (fun m w => m.set w.1 w.2) s.pkg.partmap, partNext := s.pkg.partNext.filter fun w => !s.coreEmpty w.1 } }

/-- R130: the tasks of a core's banks that have ended retire. -/
def execTaskRetire (core : Fin 256) : State → Out :=
  runEvent fun s => ((((s.retireIf core false).retireIf core true).settleCancels 0).settleCancels 1).settlePartmap

/-! ### Cancels (R327) -/

/-- A placement that is abandoned (R327): the tiles given are free and the bank is empty. -/
def State.abandon (s : State) (c : Fin 256) (bank : Bool) : State :=
  match (s.cores[c]).ctx? bank with
  | some x => ((s.leaveGang x.taskDie x.task).updCore c fun k => k.emptyBank bank s.now).saveBarrier c x.barrier
  | none => s

/-- The crib of a task that has been placed and is saved or being restored, at its cancel (R302): re-armed or freed as at any
retirement, by the tiles of its owner list. -/
def State.savedCrib (s : State) (l : Launch) (im : Saved) : State :=
  let held := match l.cribTile with | some t => im.owners.any fun o => o.1 == t | none => false
  s.cribRetired im.core l held

/-- One task is cancelled (R327): a task that runs stops issuing at its next boundary, and its engines stop at once; one whose `end`
has issued retires as it would have. The crib of a task that is cancelled while it is placed for the first time goes to IDLE
without REARM, as before the placement (R302, log entry 88). -/
def State.cancelTask (s : State) (d : Fin 2) (t : Task) (l : Launch) : State :=
  let release (u : State) : State :=
    match t.image, l.crib with
    | some im, _ => u.savedCrib l im
    | none, some r => u.cribReleased d r
    | none, none => u
  match t.state with
  | .placed c bank =>
    match (s.cores[c]).ctx? bank with
    | some x =>
      if x.atEnd then s
      else if x.begun then
        (s.updCore c fun k => ((k.modCtx bank fun y => { y with cancel := true }).stopCancelled bank).cancelEngines bank).cancelHeld c bank
      else (release (s.abandon c bank)).taskEnded d t .cancelled
    | none => s.taskEnded d t .cancelled
  | .restoring c bank =>
    let owned := match t.image with | some im => im.owners.map (·.1) | none => []
    let s1 := s.updCore c fun k =>
      let k1 := k.giveTiles owned 0 false s.now
      if k1.matrix.holder == some bank then { k1 with matrix := { k1.matrix with holder := none } } else k1
    (((release s1).leaveGang d t.id).taskEnded d t .cancelled).saveBarrier c (t.image.bind fun im => im.barrier)
  | _ => ((release s).leaveGang d t.id).taskEnded d t .cancelled

/-- Cancels every task of a partition that a level and its ids name. -/
def State.cancelAll (s : State) (d : Fin 2) (part : BitVec 4) (level id index : Nat) : State :=
  ((s.granger d).named part level id index).foldl (fun acc p => acc.cancelTask d p.1 p.2) s

/-- Disarms every OPEN and ARMING crib of a partition on the die whose queue cancels (R298, R327, log entry 88). -/
def State.disarmAll (s : State) (d : Fin 2) (part : BitVec 4) : State :=
  (List.finRange 16).foldl (fun acc cl =>
    if clusterDie cl != d then acc
    else
      (acc.clusters[cl]).cribs.foldl (fun u e =>
        if e.crib.part == part && e.crib.state = 2 then
          (u.updCluster cl fun k => k.setCrib e.place e.crib.freed).updCore (coreOf cl ⟨e.place / 64 % 16, Nat.mod_lt _ (by decide)⟩) fun k =>
            k.giveTile (e.place % 64) 0 false u.now
        else if e.crib.part == part && e.crib.state = 1 then
          u.updCluster cl fun k => k.setCrib e.place { e.crib with disarming := true }
        else u) acc) s

/-- Sets the cancel bit of a launch, graph or phase counter, or of a job (R321, R327). -/
def Granger.setCancel (g : Granger) (part : BitVec 4) (level id : Nat) : Granger :=
  if level = 4 then { g with jobs := g.jobs.set part.toFin { g.jobs[part.toFin] with cancel := true } }
  else if level = 2 || level = 3 then
    g.setCounters level ((g.counters level).map fun k => if k.id == id && k.part == part then { k with cancel := true } else k)
  else if level = 1 then { g with launches := g.launches.map fun l => if l.lid == id && l.part == part then { l with cancel := true } else l }
  else g

/-- Whether a cancel names an object of the partition (R327). -/
def Granger.cancelObject (g : Granger) (part : BitVec 4) (level id index : Nat) : Bool :=
  match level with
  | 0 => g.launches.any fun l => l.lid == id && l.part == part && index < l.ntask
  | 1 => g.launches.any fun l => l.lid == id && l.part == part
  | 2 | 3 => (g.counters level).any fun k => k.id == id && k.part == part
  | 4 => part.toNat == id
  | _ => false

/-- A cancel by level and ids (R327). -/
def State.cancelBy (s : State) (d : Fin 2) (part : BitVec 4) (level id index : Nat) : State :=
  let s1 := (s.updGranger d fun g => g.setCancel part level id).cancelAll d part level id index
  if level = 4 then s1.disarmAll d part else s1

/-- CANCEL (R327): status 1 for no object of the partition; else its tasks stop, and it completes once they have. -/
def cancelFront (d : Fin 2) (c : QCmd) (s : State) : State :=
  let part := (s.queue d c.queue).part
  let level := c.get 8 1
  let id := c.get 12 4
  let index := c.get 16 4
  if !(s.granger d).cancelObject part level id index then (s.finishCmd d c 3 1).fetch d c.queue
  else (((s.cancelBy d part level id index).leaveFront d c).settleCancels d).fetch d c.queue

/-- R327: a CANCEL at the front. -/
def execCancel (die : Fin 2) (queue : Fin 64) : State → Out :=
  runEvent fun s => s.atFront die queue 4 (cancelFront die)

/-! ### Pre-emption (R248-R253) -/

/-- The bytes of a granary that lie in some tiles. -/
def cellsOf (m : List Host.Cell) (ts : List Nat) : List Host.Cell := m.filter fun c => ts.contains (tileOf c.1)

/-- The words in error that lie in some tiles. -/
def badOf (bad : List Nat) (ts : List Nat) : List Nat := bad.filter fun w => ts.contains (tileOf (16 * w))

/-- The tiles that a bank's task holds, with their owner codes (R253). -/
def Core.ownedTiles (k : Core) (bank : Bool) : List (Nat × BitVec 3) := (k.bankTiles bank).map fun t => (t, (k.tile t).owner)

/-- The image of a bank's task, whose results have gone to the latch bank (R253). -/
def Core.imageOf (k : Core) (bank : Bool) (x : Context) : Image :=
  { ctx := x, snap := k.snap bank, owners := k.ownedTiles bank, granary := cellsOf k.granary (k.bankTiles bank),
    dirty := k.dirty.filter fun r => (k.bankTiles bank).contains (r / 32),
    matrix := if k.matrix.holder == some bank then some k.matrix else none }

/-- What the Granger keeps of a bank's task (R253). -/
def Core.savedOf (k : Core) (c : Fin 256) (bank : Bool) (x : Context) : Saved :=
  ⟨c, bank, k.ownedTiles bank, badOf k.badWords (k.bankTiles bank), k.matrix.holder == some bank, x.locks.length, none⟩

/-- The address of a task's save area (R319). -/
def Launch.saveArea (l : Launch) (index : Nat) : Nat := l.save.toNat + index * l.savesz

/-- Writes the image to the save area, no byte beyond it (R253, R319); a page that takes no write leaves the area as it is (log
entry 17). -/
def State.writeImage (s : State) (d : Fin 2) (l : Launch) (index : Nat) (bs : List Byte) : State :=
  (s.grWrite d l.part (l.saveArea index) (bs.take l.savesz)).getD s

/-- A bank whose task is to leave and stands where it may be taken (R248): asked for or suspended, at a boundary, neither
cancelled nor at its end. -/
def Core.leaving (k : Core) (bank : Bool) (x : Context) : Bool :=
  let suspended := match x.status with | .suspended _ _ => true | _ => false
  (x.preempt || suspended) && !x.cancel && !x.atEnd && k.atBoundary bank

/-- Steps 2 and 4 of R249 are over: the bank's accesses have taken place, and its engines are done but for commands held on a fault and those behind them. -/
def Core.enginesStill (k : Core) (self : BitVec 12) (bank : Bool) (x : Context) : Bool :=
  x.accessed &&
  let wainHeld := match x.wain with | [] => true | w :: _ => w.held.isSome
  wainHeld && x.fabricStill self && !k.matrix.queue.any fun c => c.bank == bank

/-- A bank whose task may be taken off its core now (R248, R249). -/
def Core.preemptable (k : Core) (self : BitVec 12) (bank : Bool) (x : Context) : Bool :=
  k.leaving bank x && (match (k.latchBank bank).ctx? bank with | some y => (k.latchBank bank).enginesStill self bank y | none => false)

/-- The state of a saved task (R326): it waits for its signal if it was suspended, else it is READY. -/
def Task.saved (t : Task) (st : BankStatus) (im : Saved) (now : Nat) : Task :=
  { t with state := (match st with | .suspended a thr => .suspended a thr | _ => .ready), image := some im, prioSince := now }

/-- Step 5 of R249: the image is written, and the bank empties. The signal that a suspended task waits for is read again then: it may
have fallen since its `sig.wait` read it (R133, R134). -/
def State.takeOff (s : State) (c : Fin 256) (bank : Bool) (x : Context) : State :=
  let k := s.cores[c]
  let d := x.taskDie
  let s2 := (s.updCore c fun k => k.emptyBank bank s.now).saveBarrier c x.barrier
  match (s2.granger d).tasks.find? fun t => t.id == x.task with
  | none => s2
  | some t =>
    let w := match (s2.granger d).launch? t.lid with
      | some l => s2.writeImage d l t.index (k.imageOf bank x).bytes
      | none => s2
    let suspended := match x.status with | .suspended _ _ => true | _ => false
    { w.updGranger d fun g => g.updTask t.id fun t => t.saved x.status (k.savedOf c bank x) s.now with reread := w.reread || suspended }

/-- The task of a bank is pre-empted as far as it can be now (R249). -/
def State.preemptBank (s : State) (c : Fin 256) (bank : Bool) : State :=
  match (s.cores[c]).ctx? bank with
  | none => s
  | some x0 =>
    if !(s.cores[c]).leaving bank x0 then s
    else
      let t := s.updCore c fun k => k.latchBank bank
      match (t.cores[c]).ctx? bank with
      | none => t
      | some x => if (t.cores[c]).enginesStill (s.dies[coreDie c]).self bank x then t.takeOff c bank x else t

/-- R249: a task is drained into its image, and its bank empties. -/
def execPreempt (core : Fin 256) (bank : Bool) : State → Out := runEvent fun s => (s.preemptBank core bank).settlePartmap

end Sys2Proof.Machine
end

