-- ==== Sys2Proof/Machine/Place.lean ====
section
/-! DEFINITION. Placement (spec/12): who fits where (R329, R330), extents (R339), leases and preloads (R334), placing and
resuming (R255, R320), re-reads of signals (R133, R325), ageing (R328), pre-emption by priority (R331) and gating (R335). -/
namespace Sys2Proof.Machine

/-! ### Extents (R339) -/

/-- What a page of a fixed segment gives an extent: its physical base and leaf with the segment's permissions, if it
qualifies (R339). -/
def State.pageExtent (s : State) (d : Fin 2) (part : BitVec 4) (g : Segment) (va size : Nat) : Option Extent :=
  match s.walk d part va with
  | .leaf e level =>
    let l := Leaf.ofWord e
    if l.aper = 0 && l.fmt = g.fmt.toNat && l.geom = g.geom.toNat then
      let pa := leafPhys e level va
      let perm := word ((if l.r && g.perm.getLsbD 0 then 4 else 0) + (if l.w && g.perm.getLsbD 1 then 8 else 0) + (if l.la && g.perm.getLsbD 2 then 16 else 0))
      let attrs := (e &&& 0x7F63) ||| perm ||| (word (pa / 65536) <<< 16)
      some ⟨va, size, attrs, g.perm⟩
    else none
  | .fault _ | .lost => none

/-- Adds a page to an extent table: it joins the extent before it where frames are contiguous and attributes equal; a full
table takes no more (R339). -/
def addExtent (xs : List Extent) (e : Extent) : List Extent :=
  match xs.getLast? with
  | some p =>
    if p.va + p.size = e.va && p.phys + p.size = e.phys && (p.leaf &&& 0xFFFF) == (e.leaf &&& 0xFFFF) then
      xs.dropLast ++ [{ p with size := p.size + e.size }]
    else if xs.length < 256 then xs ++ [e] else xs
  | none => [e]

/-- The extents of a segment from a virtual address on (R339). -/
def State.segmentExtents (s : State) (d : Fin 2) (part : BitVec 4) (g : Segment) : Nat → Nat → List Extent → List Extent
  | 0, _, xs => xs
  | fuel + 1, va, xs =>
    if g.base + g.len ≤ va then xs
    else
      let size := min (65536 - va % 65536) (g.base + g.len - va)
      s.segmentExtents d part g fuel (va + size) (match s.pageExtent d part g va size with | some e => addExtent xs e | none => xs)

/-- A task's extent table (R339): the fixed segments in ascending number; one that passes 2^52 gets none (R338). -/
def State.extentTable (s : State) (d : Fin 2) (k : Kernel) : List Extent :=
  k.segs.foldl (fun xs g =>
    if g.fixed && decide (g.base + g.len ≤ 2 ^ 52) then s.segmentExtents d k.part g (g.len / 65536 + 2) g.base xs else xs) []

/-! ### Who fits (R329) -/

/-- Whether a bank of a core is empty and no task is being restored into it. -/
def State.bankFree (s : State) (c : Fin 256) (bank : Bool) : Bool :=
  ((s.cores[c]).ctx? bank).isNone &&
    !(s.granger (coreDie c)).tasks.any fun t => match t.state with | .restoring e b => e == c && b == bank | _ => false

/-- The empty bank that a placement takes. -/
def State.freeBank (s : State) (c : Fin 256) : Option Bool :=
  if s.bankFree c false then some false else if s.bankFree c true then some true else none

/-- The tiles that a task needs free (R329). -/
def neededTiles (t : Task) (l : Launch) : List Nat :=
  match t.image with | some im => im.owners.map (·.1) | none => tileSet l.kernel.tiles

/-- The core of the crib that triggered a launch, to which its task is bound whatever becomes of the crib (R303, R329). -/
def Launch.cribCore (l : Launch) (d : Fin 2) : Option (Fin 256) :=
  l.bound.map fun r => coreOf ⟨8 * d.val + r.cluster.val, by omega⟩ ⟨r.place / 64 % 16, Nat.mod_lt _ (by decide)⟩

/-- Whether a tile of a core is free for a task, with no access of its last owner still to come (R203): a tile whose CLOSED
crib belongs to a saved task is that task's (R305). -/
def State.tileFree (s : State) (c : Fin 256) (l : Launch) (t : Nat) : Bool :=
  ((s.cores[c]).tile t).owner == 0 && !(s.cores[c]).accessDue t &&
    (((s.clusters[clusterOf c]).crib (cribPlace c t)).state == 0 || (l.cribCore (coreDie c) == some c && l.cribTile == some t))

/-- Whether a task of a kernel is resident on a core (R334). -/
def State.resident (s : State) (c : Fin 256) (part : BitVec 4) (kernel : Nat) : Bool :=
  let g := s.granger (coreDie c)
  g.tasks.any fun t =>
    (match g.launch? t.lid with | some l => l.part == part && l.kernel.kdesc.toNat == kernel | none => false) &&
      (match t.state with
        | .placed e _ | .restoring e _ => e == c
        | _ => match t.image with | some im => im.core == c | none => false)

/-- Whether the core's leases leave room for a kernel (R334). -/
def State.leaseRoom (s : State) (c : Fin 256) (l : Launch) : Bool :=
  let es := (s.cores[c]).leases
  (es.any fun e => e.part == l.part && e.kernel == l.kernel.kdesc.toNat) || es.length < 4 ||
    es.any fun e => !s.resident c e.part e.kernel

/-- The locked rows that a task brings (R329). -/
def taskLocks (t : Task) (l : Launch) : Nat := match t.image with | some im => im.locks | none => l.kernel.nlock

/-- Whether a task fits a core in a bank (R329). -/
def State.fits (s : State) (c : Fin 256) (bank : Bool) (t : Task) (l : Launch) : Bool :=
  let k := s.cores[c]
  s.coreServes c l.part && (neededTiles t l).all (fun n => s.tileFree c l n) && (!l.kernel.matrix || k.matrix.holder.isNone) &&
    decide (taskLocks t l + (k.istore.filter fun r => r.lockedBy (!bank)).length ≤ 32) &&
    (match l.cribCore (coreDie c) with | some e => e == c | none => true) && s.leaseRoom c l

/-! ### The choice (R329, R330) -/

/-- Whether a task stands before another in the Granger's choice: effective priority, time of first READY, queue, index. -/
def before (a b : Task × Launch) : Bool :=
  if a.1.prio != b.1.prio then decide (b.1.prio.toNat < a.1.prio.toNat)
  else if a.1.firstReady != b.1.firstReady then decide (a.1.firstReady < b.1.firstReady)
  else if a.2.queue != b.2.queue then decide (a.2.queue.val < b.2.queue.val)
  else decide (a.1.index < b.1.index)

/-- The first in the Granger's choice. -/
def firstOf : List (Task × Launch) → Option (Task × Launch)
  | [] => none
  | a :: as => match firstOf as with | none => some a | some b => if before b a then some b else some a

/-- 2 ms in clocks of 2.7 GHz (R328). -/
def ageClocks : Nat := 5400000

/-- A READY task at the priority it has come to: it rises by 1, up to 7, for every 2 ms in READY, and each rise starts the count
again (R328). -/
def Task.age (t : Task) (now : Nat) : Task :=
  if t.state == .ready then
    let n := min ((now - t.prioSince) / ageClocks) (7 - t.prio.toNat)
    { t with prio := BitVec.ofNat 3 (t.prio.toNat + n), prioSince := t.prioSince + n * ageClocks }
  else t

/-- READY tasks with their launches, at the priorities they have come to (R328). -/
def Granger.ready (g : Granger) (now : Nat) : List (Task × Launch) :=
  g.tasks.filterMap fun t => if t.state == .ready then (g.launch? t.lid).map fun l => (t.age now, l) else none

/-- The members of a task's gang that have not retired, in ascending index, if every one is READY (R306, R330). -/
def Granger.gangOf (g : Granger) (t : Task) (l : Launch) : Option (List Task) :=
  let ms := (List.range l.gang).filterMap fun j => g.tasks.find? fun u => u.lid == l.lid && u.index == t.index / l.gang * l.gang + j
  if ms.all fun u => u.state == .ready then some ms else none

/-- The members of a task's gang that are READY together, for the lowest-indexed of them, which stands for the gang (R330). -/
def Granger.gangBy (g : Granger) (t : Task) (l : Launch) : Option (List Task) :=
  match g.gangOf t l with
  | some (u :: ms) => if u.id == t.id then some (u :: ms) else none
  | _ => none

/-- Cores of a cluster for the members of a gang, each the lowest that fits it behind the one before (R330). -/
def State.gangCores (s : State) (cl : Fin 16) (l : Launch) : Nat → List Task → Option (List (Fin 256 × Bool × Task))
  | _, [] => some []
  | lo, t :: ts =>
    let here := (List.finRange 16).find? fun m =>
      decide (lo ≤ m.val) && (match s.freeBank (coreOf cl m) with | some b => s.fits (coreOf cl m) b t l | none => false)
    match here with
    | none => none
    | some m =>
      match s.gangCores cl l (m.val + 1) ts with
      | some rest => some ((coreOf cl m, (s.freeBank (coreOf cl m)).getD false, t) :: rest)
      | none => none

/-- A barrier context of a cluster that no gang has (R306). -/
def Cluster.freeBarrier (k : Cluster) : Option (Fin 4) := (List.finRange 4).find? fun n => k.barriers[n].isNone

/-- The lowest cluster of a die that fits a gang, with its cores (R330). -/
def State.gangPlace (s : State) (d : Fin 2) (l : Launch) (ms : List Task) : Option (Fin 16 × List (Fin 256 × Bool × Task)) :=
  (List.finRange 16).findSome? fun cl =>
    if clusterDie cl == d && (s.clusters[cl]).freeBarrier.isSome then (s.gangCores cl l 0 ms).map fun cs => (cl, cs) else none

/-- The READY tasks that may be placed through a core now: those that fit it alone, and gangs, by their lowest member, that
would be placed in its cluster (R329, R330). -/
def State.candidates (s : State) (c : Fin 256) : List (Task × Launch) :=
  let g := s.granger (coreDie c)
  (g.ready s.now).filter fun p =>
    if 2 ≤ p.2.gang then
      match g.gangBy p.1 p.2 with
      | some ms => (match s.gangPlace (coreDie c) p.2 ms with | some r => r.1 == clusterOf c | none => false)
      | none => false
    else match s.freeBank c with | some b => s.fits c b p.1 p.2 | none => false

/-! ### Placing (R320, R326, R334) -/

/-- The entry that a new lease replaces: the one without a resident task that was used furthest back (R334). -/
def State.staleLease (s : State) (c : Fin 256) : Option Lease :=
  let es := (s.cores[c]).leases.filter fun e => !s.resident c e.part e.kernel
  es.find? fun e => es.all fun f => decide (e.lastRun ≤ f.lastRun)

/-- Whether a row is one of a lease's kernel (R334, log entry 19). -/
def Lease.owns (e : Lease) (r : IRow) : Bool := r.part == e.part && r.users.contains e.kernel

/-- A kernel takes a lease on a core; where an entry is replaced, its kernel's unlocked rows are dropped (R334, log entry
19). -/
def State.takeLease (s : State) (c : Fin 256) (l : Launch) : State :=
  let entry : Lease := ⟨l.part, l.kernel.kdesc.toNat, s.now⟩
  let es := (s.cores[c]).leases
  if es.any fun e => e.part == l.part && e.kernel == entry.kernel then s.updCore c fun k => k.touchLease l s.now
  else if es.length < 4 then s.updCore c fun k => { k with leases := k.leases ++ [entry] }
  else
    match s.staleLease c with
    | some old =>
      s.updCore c fun k =>
        { k with leases := (k.leases.filter fun e => e != old) ++ [entry], istore := k.istore.filter fun r => r.lockA || r.lockB || !old.owns r }
    | none => s

/-- A row of code is fetched into a core's instruction store for a kernel, if it is absent and can be fetched (R230, R334). -/
def State.fetchRow (s : State) (c : Fin 256) (part : BitVec 4) (kernel : Nat) (xs : List Extent) (a : Nat) : State :=
  match (s.cores[c]).row part a with
  | some _ => s.updCore c fun k => { k with istore := k.istore.map fun r => if r.part == part && r.addr == rowAddr a then r.addUser kernel else r }
  | none =>
    match s.syncAccess (coreDie c) part xs (rowAddr a) 2048 .fetch with
    | .phys pa _ =>
      if s.memBad pa 2048 then s
      else
        let t := (s.cacheLeaf (coreDie c) part a).touch pa 2048
        t.updCore c fun k => k.insertRow ⟨rowAddr a, part, BitVec.ofNat 16384 (t.devNat pa 2048), false, false, k.bc, [kernel]⟩
    | _ => s

/-- Some tiles become zero, with valid check bits (R320). -/
def Core.zeroTiles (k : Core) (ts : List Nat) : Core :=
  { k with granary := k.granary.filter (fun c => !ts.contains (tileOf c.1)), badWords := k.badWords.filter fun w => !ts.contains (tileOf (16 * w)) }

/-- The dirty rows of a granary that lie outside some tiles. -/
def Core.dirtyOutside (k : Core) (ts : List Nat) : List Nat := k.dirty.filter fun r => !ts.contains (r / 32)

/-- What a launch gives its task (R37, R319). -/
def startOf (d : Fin 2) (t : Task) (l : Launch) (xs : List Extent) (b : Option (Fin 4)) : Start :=
  { taskDie := d, task := t.id, kernel := l.kernel.kdesc.toNat, entry := l.kernel.entry, stack := l.stack + word ((t.index + 1) * l.sstride), got := l.kernel.got,
    record := l.record, args := l.args.take 8, chk := l.chk, live := l.live, tvec := l.kernel.trape, part := l.part,
    index := BitVec.ofNat 24 t.index, extents := xs, barrier := b }

/-- A fresh task is placed (R320): tiles zeroed and given, the crib tile with its contents and every row of it dirty, the matrix
engine as at launch, and the task's first state. -/
def State.placeFresh (s : State) (c : Fin 256) (bank : Bool) (t : Task) (l : Launch) (b : Option (Fin 4)) : State :=
  let d := coreDie c
  let xs := s.extentTable d l.kernel
  let tiles := tileSet l.kernel.tiles
  let crib := match l.cribTile with | some n => [n] | none => []
  let s1 := s.updCore c fun k =>
    let k1 := (k.zeroTiles tiles).giveTiles (tiles ++ crib) (bankOwner bank) bank s.now
    let k1 := { k1 with dirty := (crib.flatMap fun t => (List.range 32).map fun j => 32 * t + j).foldr insertNat (k1.dirtyOutside (tiles ++ crib)) }
    let k2 := if l.kernel.matrix then { k1 with matrix := { Matrix.reset with holder := some bank } } else k1
    k2.setCtx bank (some (Context.start (startOf d t l xs b)))
  s1.updGranger d fun g => g.updTask t.id fun u => { u with state := .placed c bank, placedAt := s.now, prio := l.prio }

/-- A saved owner code in the bank that the task resumes in (R253, R255). -/
def resumedOwner (im : Saved) (bank : Bool) (code : BitVec 3) : BitVec 3 := if code == bankOwner im.bank then bankOwner bank else code

/-- A saved task is given its tiles and, as a holder, the matrix engine; its image is restored by RESUME (R255). -/
def State.placeSaved (s : State) (c : Fin 256) (bank : Bool) (t : Task) (l : Launch) (b : Option (Fin 4)) (im : Saved) : State :=
  let s1 := s.updCore c fun k =>
    let k1 := im.owners.foldl (fun acc o => acc.giveTile o.1 (resumedOwner im bank o.2) bank s.now) k
    if im.matrix then { k1 with matrix := { k1.matrix with holder := some bank } } else k1
  s1.updGranger (coreDie c) fun g =>
    g.updTask t.id fun u =>
      { u with state := .restoring c bank, placedAt := s.now, prio := l.prio, image := some { im with core := c, bank := bank, owners := im.owners.map (fun o => (o.1, resumedOwner im bank o.2)), barrier := b } }

/-- The descriptor's preload rows, from the entry row on, that every placement fetches (R334). -/
def State.preload (s : State) (c : Fin 256) (l : Launch) : State :=
  let xs := s.extentTable (coreDie c) l.kernel
  (List.range l.kernel.npre).foldl (fun acc j => acc.fetchRow c l.part l.kernel.kdesc.toNat xs (l.kernel.entry.toNat + 2048 * j)) s

/-- A launch becomes started when its first task is placed (R317). -/
def State.startLaunch (s : State) (d : Fin 2) (l : Launch) : State :=
  if l.begun then s
  else
    let t := match (s.granger d).cmds.find? fun c => c.queue == l.queue && l.cmd == some c.idx with
      | some c => (s.updCmd d c fun x => { x with state := 2 }).journal d c 2 0
      | none => s
    t.updGranger d fun g => g.updLaunch l.lid fun x => { x with begun := true }

/-- A task is placed on a core's bank. -/
def State.placeTask (s : State) (c : Fin 256) (bank : Bool) (t : Task) (l : Launch) (b : Option (Fin 4)) : State :=
  let s1 := s.takeLease c l
  let s2 := match t.image with | some im => s1.placeSaved c bank t l b im | none => s1.placeFresh c bank t l b
  (s2.preload c l).startLaunch (coreDie c) l

/-- The barrier of a gang that is placed: the one it was saved with, or a new one (R306). -/
def Granger.gangBarrier (g : Granger) (l : Launch) (n : Nat) (ms : List Task) : Barrier :=
  (g.saved.find? fun b => b.lid == l.lid && b.gang == n).getD ⟨l.lid, n, ms.map fun t => t.id, 0, []⟩

/-- A gang is placed whole (R330). -/
def State.placeGang (s : State) (d : Fin 2) (l : Launch) (n : Nat) (ms : List Task) (cl : Fin 16)
    (cs : List (Fin 256 × Bool × Task)) : State :=
  match (s.clusters[cl]).freeBarrier with
  | none => s
  | some b =>
    let bar := (s.granger d).gangBarrier l n ms
    let s1 := (s.updCluster cl fun k => { k with barriers := k.barriers.set b (some bar) }).updGranger d fun g =>
      { g with saved := g.saved.filter fun x => !(x.lid == l.lid && x.gang == n) }
    cs.foldl (fun acc p => acc.placeTask p.1 p.2.1 p.2.2 l (some b)) s1

/-- The Granger places its choice for a core (R329, R330). -/
def State.place (s : State) (c : Fin 256) : State :=
  let d := coreDie c
  match s.freeBank c, firstOf (s.candidates c) with
  | some bank, some (t, l) =>
    if 2 ≤ l.gang then
      match (s.granger d).gangBy t l with
      | some ms => (match s.gangPlace d l ms with | some r => s.placeGang d l (t.index / l.gang) ms r.1 r.2 | none => s)
      | none => s
    else s.placeTask c bank t l none
  | _, _ => s

/-- R329: the Granger chooses a READY task or gang for a core with an empty bank and places it. -/
def execTaskPlace (core : Fin 256) : State → Out := runEvent fun s => s.place core

/-! ### Resume (R255) -/

/-- The context that a task of a launch has apart from what its image says. -/
def State.imageBase (s : State) (c : Fin 256) (t : Task) (l : Launch) (im : Saved) : Context :=
  Context.start (startOf (coreDie c) t l (s.extentTable (coreDie c) l.kernel) im.barrier)

/-- The locks of a resumed task are re-established (R255). -/
def State.relock (s : State) (c : Fin 256) (bank : Bool) (x : Context) : State :=
  x.locks.foldl (fun acc a =>
    (acc.fetchRow c x.partId x.kernel x.extents a).updCore c fun k =>
      { k with istore := k.istore.map fun r => if r.addr == a && r.part == x.partId then r.setLock bank true else r }) s

/-- The image of a task is restored into the bank that is reserved for it (R255): its context with the continuations, the
granary with its dirty rows, for a holder the matrix engine, the latch entries, and then its locks. -/
def State.restore (s : State) (c : Fin 256) (bank : Bool) (t : Task) (im : Saved) (m : Image) : State :=
  let s1 := s.updCore c fun k =>
    let ts := im.owners.map fun o => o.1
    let k1 := k.zeroTiles ts
    let k2 := { k1 with granary := writeCells k1.granary (cellsOf m.granary ts), badWords := k1.badWords ++ im.bad,
                        dirty := (m.dirty.filter fun r => ts.contains (r / 32)).foldr insertNat (k1.dirtyOutside ts) }
    let k3 := match m.matrix with | some x => { k2 with matrix := { x with holder := some bank, queue := [] } } | none => k2
    (k3.setCtx bank (some { m.ctx with preempt := k.disabled })).setSnap bank m.snap
  (s1.relock c bank m.ctx).updGranger (coreDie c) fun g => g.updTask t.id fun u => { u with state := .placed c bank }

/-- The image cannot be restored (R240, R253): the task fails with REASON 3 and retires as R130 gives, its crib by the last rows
of R302. The record's TEPC and TVAL and the CAUSE and WORD of its TCAUSE are not stated (log entry 5). -/
def State.failRestore (s : State) (c : Fin 256) (bank : Bool) (t : Task) (im : Saved) : State :=
  let d := coreDie c
  let s1 := (s.leaveGang d t.id).updCore c fun k =>
    let k1 := k.giveTiles (im.owners.map (·.1)) 0 false s.now
    if im.matrix && k1.matrix.holder == some bank then { k1 with matrix := { k1.matrix with holder := none } } else k1
  let s2 := match (s1.granger d).launch? t.lid with
    | some l => (s1.savedCrib l im).updCore c fun k => k.touchLease l s.now
    | none => s1
  s2.draw.draw.draw.taskEnded d t
    (.failed (failRecord (Config.freeBits 64 s.free) (zext64 (Config.freeBits 13 (s.free + 1))) (Config.freeBits 64 (s.free + 2))
      (BitVec.ofNat 24 t.index) 0 3)) |>.saveBarrier c im.barrier

/-- Whether an image is one of the task: its owners, its locks and its place as holder are those the Granger placed it by (log
entry 11). -/
def Image.fits (m : Image) (im : Saved) (owners : List (Nat × BitVec 3)) : Bool :=
  m.owners.map (·.1) == owners.map (·.1) && m.matrix.isSome == im.matrix && m.ctx.locks.length == im.locks

/-- A task's image in its save area (R253, R319): the bytes that its header says it has. -/
def State.readImage (s : State) (c : Fin 256) (t : Task) (l : Launch) : State × Got :=
  let d := coreDie c
  let a := l.saveArea t.index
  let h := s.grRead d (.image t.id) l.part a 64
  match h.2 with
  | .bytes bs =>
    let n := leNat (bs.take 4)
    if n < 64 || l.savesz < n then (h.1, .bad) else h.1.grRead d (.image t.id) l.part a n
  | r => (h.1, r)

/-- A saved task whose quarters are awake goes on from its image; one that cannot be read or decoded fails it (R253-R255). -/
def State.resumeTask (s : State) (id : Nat) (c : Fin 256) : State :=
  match (s.granger (coreDie c)).tasks.find? fun t => t.id == id with
  | none => s
  | some t =>
    match t.state, t.image, (s.granger (coreDie c)).launch? t.lid with
    | .restoring e bank, some im, some l =>
      if e != c || !(s.cores[c]).awake (im.owners.map (·.1)) then s
      else
        let r := s.readImage c t l
        match r.2 with
        | .held => r.1
        | .bad => r.1.failRestore c bank t im
        | .bytes bs =>
          match decodeImage (r.1.imageBase c t l im) bank bs with
          | some m => if m.fits im im.owners then r.1.restore c bank t im m else r.1.failRestore c bank t im
          | none => r.1.failRestore c bank t im
    | _, _, _ => s

/-- R255: a saved image is restored on the core that the task was placed on. -/
def execResume (task : Nat) (core : Fin 256) : State → Out := runEvent fun s => s.resumeTask task core

/-! ### Signals, ageing, priority and power (R133, R325, R328, R331, R335) -/

/-- A task becomes READY (R326, R328). -/
def Task.toReady (t : Task) (now : Nat) : Task := { t with state := .ready, prioSince := now, firstReady := if t.state == .queued then now else t.firstReady }

/-- Re-reads the unsatisfied DEP signals of a launch: one that has become unreadable counts as not satisfied for good (R325,
R459). -/
def State.rereadDeps (s : State) (d : Fin 2) (lid : Nat) (part : BitVec 4) : List Dep → State × List Dep
  | [] => (s, [])
  | p :: ps =>
    let g := if p.lost then (s, Got.held) else s.grSignal d (.deps lid) part p.addr.toNat
    let rest := g.1.rereadDeps d lid part ps
    (rest.1,
      match g.2 with
      | .bytes bs => if satisfied (word (leNat bs)) p.thr then rest.2 else p :: rest.2
      | .held => p :: rest.2
      | .bad => { p with lost := true } :: rest.2)

/-- A launch whose dependences are all satisfied: its tasks are READY (R325). -/
def State.rereadLaunch (s : State) (d : Fin 2) (l : Launch) : State :=
  if l.deps.isEmpty then s
  else
    let r := s.rereadDeps d l.lid l.part l.deps
    let g := r.1.updGranger d fun g => g.updLaunch l.lid fun x => { x with deps := r.2 }
    if r.2.isEmpty then
      g.updGranger d fun g => { g with tasks := g.tasks.map fun t => if t.lid == l.lid && t.state == .queued then t.toReady s.now else t }
    else g

/-- A suspended task that has been saved is READY with its image once its signal is satisfied (R133, R326). -/
def State.rereadTask (s : State) (d : Fin 2) (t : Task) : State :=
  match (s.granger d).launch? t.lid with
  | none => s
  | some l =>
    match t.state with
    | .suspended a thr =>
      let r := s.grSignal d (.signal t.id) l.part a.toNat
      (match r.2 with
        | .bytes bs =>
          if satisfied (word (leNat bs)) thr then r.1.updGranger d fun g => g.updTask t.id fun u => u.toReady s.now else r.1
        | _ => r.1)
    | _ => s

/-- The signals that launches and suspended tasks of a die wait for are read again (R133, R325). -/
def State.rereadDie (s : State) (die : Fin 2) : State :=
  let t := (s.granger die).launches.foldl (fun acc l => acc.rereadLaunch die l) s
  (t.granger die).tasks.foldl (fun acc t => acc.rereadTask die t) t

/-- The re-reads that a decrement, a host write of the Loft or 10 µs call for take place (R133). -/
def State.rereadDue (s : State) : State :=
  if s.reread && s.pkg.frz = 0 then ({ s with reread := false }.rereadDie 0).rereadDie 1 else s

/-- R133: the Granger reads again the signals that launches and tasks of the die wait for. -/
def execSignalReread (die : Fin 2) : State → Out := runEvent fun s => s.rereadDie die

/-- R328: READY tasks age. -/
def execPriorityAging (die : Fin 2) : State → Out :=
  runEvent fun s => s.updGranger die fun g => { g with tasks := g.tasks.map fun t => t.age s.now }

/-- 100 µs in clocks of 2.7 GHz (R331, R335). -/
def runClocks : Nat := 270000

/-- The members of a victim's gang, itself alone outside a gang (R330). -/
def Granger.gangMates (g : Granger) (t : Task) : List Task :=
  match g.launch? t.lid with
  | some l => if 2 ≤ l.gang then g.tasks.filter fun u => u.lid == t.lid && u.index / l.gang == t.index / l.gang else [t]
  | none => [t]

/-- Whether a task is RUNNING or FAULTWAIT in its bank, or at its end there (R326, R331). -/
def State.runs (s : State) (t : Task) : Bool :=
  match t.state with
  | .placed c bank => (match (s.cores[c]).ctx? bank with | some x => x.begun | none => false)
  | _ => false

/-- The running tasks of a die that have run for 100 µs since they were placed, with their banks (R331); a gang member only
while every member runs, since pre-emption takes all or none (R330). -/
def State.victims (s : State) (d : Fin 2) : List (Task × Fin 256 × Bool) :=
  (s.granger d).tasks.filterMap fun t =>
    match t.state with
    | .placed c bank =>
      match (s.cores[c]).ctx? bank with
      | some x =>
        if !x.preempt && !x.cancel && !x.atEnd && decide (t.placedAt + runClocks ≤ s.now) && ((s.granger d).gangMates t).all s.runs then some (t, c, bank)
        else none
      | none => none
    | _ => none

/-- The state as it would be with a task's bank empty, and its gang's barrier context without it (R306, R331). -/
def State.vacated (s : State) (d : Fin 2) (u : Task) : State :=
  match u.state with
  | .placed c bank => (s.leaveGang d u.id).updCore c fun k => k.emptyBank bank s.now
  | _ => s

/-- The state as it would be with a victim's banks empty (R331). -/
def State.without (s : State) (d : Fin 2) (t : Task) : State :=
  ((s.granger d).gangMates t).foldl (fun acc u => acc.vacated d u) s

/-- Whether a READY task, or a gang by its lowest member, would fit once a victim's bank is empty (R331). -/
def State.fitsWithout (s : State) (d : Fin 2) (v : Task × Fin 256 × Bool) (p : Task × Launch) : Bool :=
  let u := s.without d v.1
  if 2 ≤ p.2.gang then
    match (s.granger d).gangBy p.1 p.2 with | some ms => (u.gangPlace d p.2 ms).isSome | none => false
  else u.fits v.2.1 v.2.2 p.1 p.2

/-- Whether a victim is the one that a waiting task takes: of lower priority, and among those that would make room, of the
lowest priority, then the latest placed (R331). -/
def State.isVictimOf (s : State) (d : Fin 2) (v : Task × Fin 256 × Bool) (p : Task × Launch) : Bool :=
  let able (w : Task × Fin 256 × Bool) : Bool := decide (w.1.prio.toNat < p.1.prio.toNat) && s.fitsWithout d w p
  able v && (s.victims d).all fun w =>
    !able w || decide (v.1.prio.toNat < w.1.prio.toNat) || (v.1.prio == w.1.prio && decide (w.1.placedAt ≤ v.1.placedAt))

/-- The state as it would be with every bank empty that is being emptied. -/
def State.emptied (s : State) (d : Fin 2) : State :=
  (s.granger d).tasks.foldl (fun acc u =>
    match u.state with
    | .placed c bank => if (match (s.cores[c]).ctx? bank with | some x => x.preempt | none => false) then acc.vacated d u else acc
    | _ => acc) s

/-- Whether room for a waiting task is there already or is being made, so that no further task gives way to it (R331). -/
def State.served (s : State) (d : Fin 2) (p : Task × Launch) : Bool :=
  (dieCores d).any fun c => ((s.emptied d).candidates c).contains p

/-- The Granger asks for the pre-emption of a running task, with its gang, for a waiting one of higher priority (R330,
R331). -/
def State.askPreempt (s : State) (c : Fin 256) (bank : Bool) : State :=
  let d := coreDie c
  match (s.victims d).find? fun v => v.2.1 == c && v.2.2 == bank with
  | none => s
  | some v =>
    if (s.granger d).ready s.now |>.any fun p => !s.served d p && s.isVictimOf d v p then
      ((s.granger d).gangMates v.1).foldl (fun acc u =>
        match u.state with
        | .placed e b => acc.updCore e fun k => k.modCtx b fun x => { x with preempt := true }
        | _ => acc) s
    else s

/-- R331: a task that has run for 100 µs is asked to make room for one of higher priority. -/
def execPreemptRunElapsed (core : Fin 256) (bank : Bool) : State → Out := runEvent fun s => s.askPreempt core bank

/-- Whether a READY task that fits the core needs one of some tiles (R335). -/
def State.neededHere (s : State) (c : Fin 256) (ts : List Nat) : Bool :=
  ((s.granger (coreDie c)).ready s.now).any fun p =>
    (s.fits c false p.1 p.2 || s.fits c true p.1 p.2) && (neededTiles p.1 p.2).any fun t => ts.contains t

/-- A quarter whose tiles have all been free for 100 µs, and that no fitting READY task needs, is gated (R204, R335). -/
def State.gateQuarter (s : State) (c : Fin 256) (q : Fin 4) : State :=
  let k := s.cores[c]
  let ts := (List.range 16).map fun j => 16 * q.val + j
  if k.quarters[q] = .awake && (ts.all fun t => (k.tile t).owner == 0 && decide ((k.tile t).since + runClocks ≤ s.now)) && !s.neededHere c ts then
    s.updCore c fun k => { k with quarters := k.quarters.set q .gated }
  else s

/-- R335: a granary quarter is power-gated. -/
def execQuarterGate (core : Fin 256) (quarter : Fin 4) : State → Out := runEvent fun s => s.gateQuarter core quarter

end Sys2Proof.Machine
end

