-- ==== Sys2Proof/Machine/CribCmds.lean ====
section
/-! DEFINITION. The crib commands of a queue and the zero fill of arming (spec/11: R297-R299, R302). -/
namespace Sys2Proof.Machine

/-- The cluster, core and tile that a crib packet names, if their reserved bits are 0 (R299). -/
def cribTarget (d : Fin 2) (c : QCmd) : Option (Fin 16 × Fin 256 × Nat) :=
  let cl := c.get 8 1
  let co := c.get 9 1
  let ti := c.get 10 1
  if h : cl < 8 ∧ co < 16 ∧ ti < 64 then
    let k : Fin 16 := ⟨8 * d.val + cl, by omega⟩
    some (k, coreOf k ⟨co, h.2.1⟩, ti)
  else none

/-- Whether a byte of a packet from `off` on, `n` of them, is not 0. -/
def QCmd.nonzero (c : QCmd) (off n : Nat) : Bool := ((c.packet.drop off).take n).any (· != 0)

/-- The reserved bytes and bits of a CRIBARM packet, and MODE 11 (R297 status 2, R299). -/
def armMalformed (c : QCmd) : Bool := c.nonzero 1 7 || c.nonzero 16 48 || 64 ≤ c.get 11 1 || c.get 11 1 % 4 = 3

/-- The conditions of status 3 that the kernel of a template must meet, from its descriptor (R297). -/
def State.armFits (s : State) (core : Fin 256) (part : BitVec 4) (tile : Nat) (k : List Byte) : Bool :=
  let v := s.pkg.partmap[core]
  mapEnabled v && v.setWidth 4 == part && !(word (recNat k 32 8)).getLsbD tile && decide (recNat k 42 1 ≤ 32)

/-- An armed crib: ARMING, with the fields of its command (R296, R297). -/
def armedCrib (c : QCmd) (part : BitVec 4) : Crib :=
  let o := c.get 11 1
  { state := 1, mode := BitVec.ofNat 2 o, part := part, rearm := o.testBit 2, argslot := BitVec.ofNat 3 (o / 8), sat := false,
    flg := 0, thr := BitVec.ofNat 16 (c.get 12 2), tmpl := BitVec.ofNat 16 (c.get 14 2), count := 0, queue := c.queue,
    cmd := some c.idx, disarm := [], disarming := false }

/-- A tile goes to an owner for a partition: to the Sieve (R297), or to hold its tables (R200, R377). -/
def Core.partTile (k : Core) (t : Nat) (owner : BitVec 3) (part : BitVec 4) (now : Nat) : Core :=
  let k' := k.giveTile t owner false now
  if h : t < 64 then { k' with tiles := k'.tiles.set t { k'.tiles[t] with part := part } } else k'

/-- CRIBARM (R297): the conditions in the order of statuses 2, 1 and 3, then ARMING. A kernel descriptor that cannot be read gives
status 3 (log entry 87). -/
def armFront (d : Fin 2) (c : QCmd) (s : State) : State :=
  let part := (s.queue d c.queue).part
  let done (u : State) (st : Nat) : State := (u.finishCmd d c 3 st).fetch d c.queue
  match cribTarget d c with
  | none => done s 2
  | some (cl, core, tile) =>
    if armMalformed c then done s 2
    else if ((s.cores[core]).tile tile).owner != 0 || ((s.clusters[cl]).crib (cribPlace core tile)).state != 0 then done s 1
    else
      match (s.granger d).templates.find? fun t => t.part == part && t.index == c.get 14 2 with
      | none => done s 3
      | some t =>
        let r := s.grRead d (.front c.queue) part (recNat t.record 0 8) 128
        match r.2 with
        | .held => r.1
        | .bad => done r.1 3
        | .bytes k =>
          if !r.1.armFits core part tile k then done r.1 3
          else
            let u := (r.1.updCluster cl fun x => x.setCrib (cribPlace core tile) (armedCrib c part)).updCore core fun x =>
              x.partTile tile 5 part s.now
            (u.leaveFront d c).fetch d c.queue

/-- R297: a CRIBARM at the front. -/
def execCribarm (die : Fin 2) (queue : Fin 64) : State → Out := runEvent fun s => s.atFront die queue 6 (armFront die)

/-- The command by queue and index. -/
def Granger.cmd? (g : Granger) (q : Fin 64) (idx : Nat) : Option QCmd := g.cmds.find? fun c => c.queue == q && c.idx == idx

/-- A fetched command completes, by queue and index. -/
def State.finishAt (s : State) (d : Fin 2) (q : Fin 64) (idx status : Nat) : State :=
  match (s.granger d).cmd? q idx with | some c => s.finishCmd d c 3 status | none => s

/-- The disarms that waited for a zero fill (R298): the first frees the crib, any other finds it IDLE. -/
def State.finishDisarms (s : State) (d : Fin 2) : List (Fin 64 × Nat) → State
  | [] => s
  | p :: ps => ps.foldl (fun acc q => acc.finishAt d q.1 q.2 1) (s.finishAt d p.1 p.2 0)

/-- The zero fill of an ARMING crib ends, not before a core access that an earlier holder of the tile still has to make (R203,
R297, R298, R302): OPEN, its arm command completes, and then a disarm applies. -/
def State.cribFilled (s : State) (cl : Fin 16) (place : Nat) : State :=
  let k := (s.clusters[cl]).crib place
  let core := coreOf cl ⟨place / 64 % 16, Nat.mod_lt _ (by decide)⟩
  let tile := place % 64
  let d := clusterDie cl
  if k.state != 1 || !(s.cores[core]).awake [tile] || (s.cores[core]).accessDue tile then s
  else
    let s1 := s.updCore core fun x => x.zeroTiles [tile]
    let s2 := match k.cmd with | some n => s1.finishAt d k.queue n 0 | none => s1
    if k.disarming || !k.disarm.isEmpty then
      ((s2.updCluster cl fun x => x.setCrib place k.freed).updCore core fun x => x.giveTile tile 0 false s.now).finishDisarms d k.disarm
    else s2.updCluster cl fun x => x.setCrib place { k with state := 2, cmd := none, count := 0, sat := false, flg := 0 }

/-- R297: the arming zero fill ends and the crib is OPEN. -/
def execCribFillDone (cluster : Fin 16) (place : Fin 1024) : State → Out := runEvent fun s => s.cribFilled cluster place.val

/-- CRIBDISARM (R298, R299): status 2 for a malformed packet, 1 for a crib that is not OPEN or ARMING or is another
partition's. -/
def disarmFront (d : Fin 2) (c : QCmd) (s : State) : State :=
  let part := (s.queue d c.queue).part
  let done (u : State) (st : Nat) : State := (u.finishCmd d c 3 st).fetch d c.queue
  match cribTarget d c with
  | none => done s 2
  | some (cl, core, tile) =>
    let place := cribPlace core tile
    let k := (s.clusters[cl]).crib place
    if c.nonzero 1 7 || c.nonzero 11 53 then done s 2
    else if k.part != part then done s 1
    else if k.state = 2 then
      done ((s.updCluster cl fun x => x.setCrib place k.freed).updCore core fun x => x.giveTile tile 0 false s.now) 0
    else if k.state = 1 then
      ((s.updCluster cl fun x => x.setCrib place { k with disarm := k.disarm ++ [(c.queue, c.idx)] }).leaveFront d c).fetch d c.queue
    else done s 1

/-- R298: a CRIBDISARM at the front. -/
def execCribdisarm (die : Fin 2) (queue : Fin 64) : State → Out := runEvent fun s => s.atFront die queue 7 (disarmFront die)

end Sys2Proof.Machine
end

