-- ==== Sys2Proof/Machine/Packets.lean ====
section
/-! DEFINITION. Fabric packets (spec/17): header and tag (R428-R430), best-effort paths and circuits (R432, R435-R438), what a
source agent does with an answer (R454), and the accesses that a request makes at its home (R442, R449, R451, R452). -/
namespace Sys2Proof.Machine

/-! ### Header and tag (R429, R430) -/

/-- The fields of a fabric header. -/
structure FHead where
  dpeer : Nat
  dloc : Nat
  type : Nat
  speer : Nat
  sloc : Nat
  part : Nat
  cong : Nat
  cls : Nat
  circ : Bool
  circid : Nat
  xtag : Nat
  tx : Nat
  atop : Nat
  atype : Nat
  mode : Nat
  status : Nat
  target : Nat
  opnd : Nat
  cmpv : Nat
  deriving DecidableEq, Repr

/-- The 64 bytes of a header, for DLEN data bytes. -/
def FHead.bytes (h : FHead) (dlen : Nat) : List Byte :=
  beBytes 2 (h.dpeer % 4096) ++ [byte (h.dloc % 16), byte h.type] ++ beBytes 2 (h.speer % 4096) ++
    [byte (h.sloc % 16), byte (h.part % 16)] ++ beBytes 2 dlen ++
    [byte h.cong, byte (h.cls % 8 + if h.circ then 8 else 0), byte (if h.circ then h.circid else 0), 0, 0, 0] ++ beBytes 8 h.xtag ++
    beBytes 4 h.tx ++ [byte h.atop, byte h.atype, byte h.mode, byte h.status] ++ beBytes 8 h.target ++ beBytes 8 h.opnd ++
    beBytes 8 h.cmpv ++ List.replicate 8 0

/-- `n` big-endian bytes of a packet as a number. -/
def pktNat (bs : List Byte) (off n : Nat) : Nat := beNat ((bs.drop off).take n)

/-- The header fields of a packet. -/
def FHead.ofBytes (bs : List Byte) : FHead :=
  { dpeer := pktNat bs 0 2 % 4096, dloc := pktNat bs 2 1 % 16, type := pktNat bs 3 1, speer := pktNat bs 4 2 % 4096,
    sloc := pktNat bs 6 1 % 16, part := pktNat bs 7 1 % 16, cong := pktNat bs 10 1, cls := pktNat bs 11 1 % 8,
    circ := (pktNat bs 11 1).testBit 3, circid := pktNat bs 12 1, xtag := pktNat bs 16 8, tx := pktNat bs 24 4,
    atop := pktNat bs 28 1, atype := pktNat bs 29 1, mode := pktNat bs 30 1, status := pktNat bs 31 1, target := pktNat bs 32 8,
    opnd := pktNat bs 40 8, cmpv := pktNat bs 48 8 }

/-- DLEN of a packet. -/
def pktDlen (bs : List Byte) : Nat := pktNat bs 8 2

/-- The data bytes of a packet. -/
def pktData (bs : List Byte) : List Byte := (bs.drop 64).take (pktDlen bs)

/-- The tag over header bytes 24 to 63 and the data (R430). -/
def pktTag (bs : List Byte) : BitVec 32 := crc32c 0xFFFFFFFF ((bs.take (64 + pktDlen bs)).drop 24)

/-- Whether a packet's end-to-end tag is good (R283, R430). -/
def tagGood (bs : List Byte) : Bool :=
  decide (68 + pktDlen bs ≤ bs.length) && pktNat bs (64 + pktDlen bs) 4 == (pktTag bs).toNat

/-- A packet: header, data and tag (R428). -/
def fabricPacket (h : FHead) (data : List Byte) : List Byte :=
  let b := h.bytes data.length ++ data
  b ++ beBytes 4 (pktTag b).toNat

/-! ### Best-effort paths (R421-R423, R432) -/

/-- The hash key of a packet (R432): DPEER and SPEER as the header holds them, and V in eight bytes. -/
def routeKey (h : FHead) : Nat :=
  let v := if (0x10 ≤ h.type && h.type ≤ 0x14) || (0x18 ≤ h.type && h.type ≤ 0x1A) then h.target / 128 * 128
    else if h.type = 1 then h.xtag else 0
  (crc32c 0xFFFFFFFF (beBytes 2 h.dpeer ++ beBytes 2 h.speer ++ beBytes 8 v)).toNat

/-- The ring size of a dimension (R422). -/
def Die.ring (d : Die) (dim : Nat) : Nat := wbits d.fabcfg (16 + 4 * dim) 4 + 1

/-- A coordinate of a peer (R421). -/
def coord (peer dim : Nat) : Nat := bitsOf peer (4 * dim) 4

/-- The dimensions in the order of permutation `n` of x, y, z, in lexicographic numbering (R432). -/
def dimOrder (n : Nat) : List Nat :=
  match n % 6 with
  | 0 => [0, 1, 2] | 1 => [0, 2, 1] | 2 => [1, 0, 2] | 3 => [1, 2, 0] | 4 => [2, 0, 1] | _ => [2, 1, 0]

/-- The bundle of ports towards a peer in a dimension, none if its coordinate matches (R423, R432). -/
def bundleTo (d : Die) (key self dpeer dim : Nat) : Option Nat :=
  let n := d.ring dim
  let dist := (coord dpeer dim + n - coord self dim % n) % n
  if coord dpeer dim = coord self dim then none
  else if 2 * dist < n || (2 * dist = n && key.testBit 3) then some (2 * dim)
  else some (2 * dim + 1)

/-- Whether a torus port is not down: a link that retrains keeps its packets (R426, R427). -/
def State.portLive (s : State) (p : Nat) : Bool := if h : p < 64 then (s.pkg.ports[p]).width != 0 else false

/-- The first port of a bundle that is not down, from the one that the key names on (R432). -/
def State.portOf (s : State) (bundle key : Nat) : Option Nat :=
  ((List.range 8).map fun j => 8 * bundle + (key / 16 + j) % 8).find? s.portLive

/-- Where a best-effort packet goes next: it is here, it leaves by a port, or there is no way (R421, R432). -/
inductive Hop where
  | here
  | port (p : Nat)
  | none
  deriving DecidableEq, Repr

/-- The next hop of a packet from this module (R432). -/
def State.hop (s : State) (d : Fin 2) (h : FHead) : Hop :=
  let die := s.dies[d]
  let self := die.self.toNat
  if h.dpeer = self then .here
  else if (List.range 3).any fun dim => decide (die.ring dim ≤ coord h.dpeer dim) then .none
  else
    let key := routeKey h
    match (dimOrder key).findSome? fun dim => (bundleTo die key self h.dpeer dim).bind fun b => s.portOf b key with
    | some p => .port p
    | none => .none

/-! ### Circuits (R435-R438) -/

/-- Whether a slot cell names a circuit that enters at a port (R435, R436). -/
def cellNames (w : Word) (ingress part circid : Nat) : Bool :=
  w.getLsbD 31 && wbits w 24 7 == ingress && wbits w 20 4 == part && wbits w 0 8 == circid

/-- The slot in which a die's router stands (R435, R436): a slot lasts 0.64 ns, which is 216/125 clocks of 2.7 GHz. -/
def State.slotOf (s : State) (d : Fin 2) : Nat :=
  ((s.dies[d]).slotNow.toNat + (s.now - (s.dies[d]).slotAt) * 125 / 216) % 256

/-- The slot of the router of the die that a port belongs to (R262, R436). -/
def State.portSlot (s : State) (port : Nat) : Nat := s.slotOf (dieOf (decide (32 ≤ port ∧ port < 64)))

/-- The egress ports of a die whose cells of a slot name a circuit: a die's cell (s, j) is entry 32 s + j, and its ports j are
those of its pipelines (R262, R435). A cell of a port that is down names none (R426). -/
def State.circuitCells (s : State) (ingress part circid : Nat) (d : Fin 2) (slot : Nat) : List Nat :=
  (s.dies[d]).slots.filterMap fun c =>
    let p := 32 * d.val + c.1 % 32
    if c.1 / 32 = slot % 256 && cellNames c.2 ingress part circid && s.portLive p then some p else none

/-- The egress ports of a circuit packet (R436, R437): those whose cells name the circuit 24 slots after the slot in which its
header arrived; a packet from within waits for the next slot that names it. None where no cell does. -/
def State.circuitPorts (s : State) (ingress slot part circid : Nat) : List Nat :=
  let ports (at_ : Fin 2 → Nat) : List Nat := (List.finRange 2).flatMap fun d => s.circuitCells ingress part circid d (at_ d)
  if ingress = 0x40 then (((List.range 256).map fun n => ports fun d => s.slotOf d + n).find? fun ps => !ps.isEmpty).getD []
  else ports fun _ => slot + 24

/-- Whether a packet travels in the virtual channel class of responses (R431, R433). -/
def FHead.answers (h : FHead) : Bool := 0x18 ≤ h.type && h.type ≤ 0x1A

/-- Whether a packet that leaves by a port is in the second channel of its class (R433): on its way round the ring from its source
it crosses the wrap link there or has crossed it. -/
def State.secondChannel (s : State) (d : Fin 2) (h : FHead) (port : Nat) : Bool :=
  let dim := port / 16
  let n := (s.dies[d]).ring dim
  let here := coord (s.dies[d]).self.toNat dim
  let source := coord h.speer dim
  if port / 8 % 2 = 0 then decide ((here + 1) % n < source) || here + 1 = n else decide (source < here) || here = 0

/-- Hands a packet to an egress port. -/
def State.emit (s : State) (p : OutPkt) : State := { s with pkg := { s.pkg with egress := s.pkg.egress ++ [p] } }

/-- A circuit flit that finds no cell is counted (R437). -/
def State.missCircuit (s : State) (d : Fin 2) : State := s.updDie d fun x => { x with circmiss := x.circmiss + 1 }

/-- A packet as it leaves by a torus port in a traffic class (R265, R433). -/
def State.outPkt (s : State) (d : Fin 2) (h : FHead) (cls : BitVec 8) (bs : List Byte) (p : Nat) : OutPkt :=
  ⟨p, cls, h.answers, s.secondChannel d h p, bs, false, false⟩

/-- Sends a packet on from an ingress port, where it arrived in a slot (0x40: from within), in a traffic class: on its circuit's
ports, or best-effort; false where no way is left (R432, R437). -/
def State.sendOn (s : State) (d : Fin 2) (ingress slot : Nat) (h : FHead) (cls : BitVec 8) (bs : List Byte) : State × Bool :=
  let ports := if h.circ then s.circuitPorts ingress slot h.part h.circid else []
  let out (t : State) (p : Nat) : State := t.emit (s.outPkt d h cls bs p)
  if ports.isEmpty then
    let s1 := if h.circ then s.missCircuit d else s
    match s1.hop d h with | .port p => (out s1 p, true) | _ => (s1, false)
  else (ports.foldl out s, true)

/-! ### The source agent (R454) -/

/-- Whether an item is the one in flight that an answer of a peer names. -/
def FItem.answers (i : FItem) (peer : BitVec 12) (tx : Nat) : Bool := i.inFlight && i.tx == tx && i.peer == some peer

/-- The bank that holds an item in flight. -/
def State.itemBank (s : State) (peer : BitVec 12) (tx : Nat) : Option (Fin 256 × Bool) :=
  (List.finRange 256).findSome? fun c =>
    [false, true].findSome? fun b =>
      match (s.cores[c]).ctx? b with
      | some x => if x.fabric.any fun f => f.items.any fun i => i.answers peer tx then some (c, b) else none
      | none => none

/-- What an answer makes of a command. -/
def FCmd.answered (f : FCmd) (peer : BitVec 12) (tx : Nat) (st : ItemState) (data : List Byte) (flags : Flags) : FCmd :=
  if f.items.any fun i => i.answers peer tx then
    { f with items := f.items.map (fun i => if i.answers peer tx then { i with state := st, data := data } else i), flags := f.flags ||| flags }
  else f

/-- An answer to an item in flight; one that matches no item is discarded (R454). -/
def State.answer (s : State) (peer : BitVec 12) (tx : Nat) (st : ItemState) (data : List Byte) (flags : Flags) : State :=
  match s.itemBank peer tx with
  | some (c, b) => s.updCore c fun k => k.modCtx b fun x => { x with fabric := x.fabric.map fun f => f.answered peer tx st data flags }
  | none => s

/-- A response: done with its data and flags, or failed with its STATUS (R454). -/
def State.response (s : State) (peer : BitVec 12) (tx : Nat) (status : BitVec 8) (flags : Flags) (data : List Byte) : State :=
  if status = 0 then s.answer peer tx .done data flags else s.answer peer tx (.failed (status.setWidth 4)) [] 0

/-- R454: a response. -/
def execFabricResponse (peer : BitVec 12) (tag : BitVec 32) (status : BitVec 8) (flags : BitVec 5) (data : List Byte) : State → Out :=
  runEvent fun s => s.response peer tag.toNat status flags data

/-- R454: a failure notice fails its item with ECODE 5. -/
def execFailureNotice (peer : BitVec 12) (tag : BitVec 32) : State → Out :=
  runEvent fun s => s.answer peer tag.toNat (.failed 5) [] 0

/-- R454: a hold notice restarts its item's timeout. -/
def execHoldNotice (peer : BitVec 12) (tag : BitVec 32) : State → Out :=
  runEvent fun s => s.answer peer tag.toNat (.sent s.now) [] 0

/-- 1 ms in clocks of 2.7 GHz (R454). -/
def timeoutClocks : Nat := 2700000

/-- The time since which an item in flight has heard nothing. -/
def State.itemSince (s : State) (peer : BitVec 12) (tx : Nat) : Option Nat :=
  match s.itemBank peer tx with
  | some (c, b) =>
    match (s.cores[c]).ctx? b with
    | some x => (x.fabric.flatMap fun f => f.items).findSome? fun i =>
        if i.answers peer tx then (match i.state with | .sent t => some t | _ => none) else none
    | none => none
  | none => none

/-- R454: 1 ms without a response or hold notice fails an item with ECODE 6. -/
def execFabricTimeout (peer : BitVec 12) (tag : BitVec 32) : State → Out :=
  runEvent fun s =>
    match s.itemSince peer tag.toNat with
    | some t => if t + timeoutClocks ≤ s.now then s.answer peer tag.toNat (.failed 6) [] 0 else s
    | none => s

/-! ### Accesses at the home (R442, R448-R452) -/

/-- A request as its home performs it: TYPE, data, ATOP, ATYPE, mode, operand and compare value. -/
structure Perform where
  type : Nat
  data : List Byte
  atop : Nat
  atype : BitVec 5
  mode : BitVec 3
  opnd : Word
  cmpv : Word
  deriving DecidableEq, Repr

/-- How a request ends: STATUS, flags and bytes. -/
structure Answer where
  status : BitVec 4
  flags : Flags
  data : List Byte
  deriving DecidableEq, Repr

/-- Whether an atomic's operation and type are among those of R92. -/
def atomicKnown (atop : Nat) (ty : BitVec 5) : Bool :=
  match atop with
  | 0 => atomicAddOk ty
  | 1 | 2 => atomicMinOk ty
  | 3 | 4 | 5 | 6 => atomicWordOk ty
  | _ => false

/-- The new value of an atomic's location, none where it is not written, and the flags of the final rounding (R449). -/
def atomicStep (atop : Nat) (ty : BitVec 5) (m : BitVec 3) (old o c : Nat) : Option Nat × Flags :=
  let w := 8 * atomicSize ty
  let less := if unifiedSigned ty then decide (toSigned w o < toSigned w old) else decide (o < old)
  match atop with
  | 0 =>
    if ty = 0 then
      let r := (valueOf .f32 old).add (valueOf .f32 o)
      let y := final .f32 ((RMode.ofBits m).getD .rne).single r.1
      (some y.1, r.2 ||| y.2)
    else (some ((old + o) % 2 ^ w), 0)
  | 1 => (some (if less then o else old), 0)
  | 2 => (some (if less then old else o), 0)
  | 3 => (some o, 0)
  | 4 => (if old = c then some o else none, 0)
  | 5 => (some (old &&& o), 0)
  | _ => (some (old ||| o), 0)

/-- An atomic at a physical address under a leaf (R449): format check, uncorrectable line, then one step. -/
def State.performAtomic (s : State) (pa : Nat) (leaf : Word) (p : Perform) : State × Answer :=
  let z := atomicSize p.atype
  let fmt := (Leaf.ofWord leaf).fmt
  if !atomicKnown p.atop p.atype || (p.atype = 0 && fmt != 0 && fmt != 31) then (s, ⟨4, 0, []⟩)
  else if s.memBad pa z then (s, ⟨2, 0, []⟩)
  else
    let t := s.touch pa z
    let old := t.devNat pa z
    let r := atomicStep p.atop p.atype p.mode old (p.opnd.toNat % 2 ^ (8 * z)) (p.cmpv.toNat % 2 ^ (8 * z))
    (match r.1 with | some v => t.devWrite pa (leBytes z v) | none => t, ⟨0, r.2, leBytes z old⟩)

/-- Writes back and drops the Barn lines of some pieces that lie on host-side frames (R227, R451). -/
def State.flushPieces (s : State) (ps : List (Nat × Nat × Word)) : State :=
  ps.foldl (fun acc p =>
    match physKind p.1 with
    | .host _ =>
      (List.range (lineOf (p.1 + p.2.1 - 1) + 1 - lineOf p.1)).foldl (fun t j =>
        match physKind (128 * (lineOf p.1 + j)) with
        | .host d => t.barnDrop d fun l => l.line == lineOf p.1 + j
        | _ => t) acc
    | _ => acc) s

/-- A request performed at its home on some pieces of memory (R442 step 4): host memory out of reach or a line in uncorrectable
error fails it (R355, R404), and nothing but a load reaches a gate window. -/
def State.perform (s : State) (ps : List (Nat × Nat × Word)) (p : Perform) : State × Answer :=
  if ps.any fun x => s.unlinked x.1 then (s, ⟨2, 0, []⟩)
  else if p.type = 0x10 then
    match s.readPieces ps with | some bs => (s.fillPieces ps, ⟨0, 0, bs⟩) | none => (s, ⟨2, 0, []⟩)
  else if p.type = 0x13 then
    if ps.any fun x => s.memBad x.1 x.2.1 then (s, ⟨2, 0, []⟩) else (s.flushPieces ps, ⟨0, 0, []⟩)
  else if (gateOf ps).isSome then (s, ⟨4, 0, []⟩)
  else if p.type = 0x11 then
    if ps.any fun x => s.memBad x.1 x.2.1 then (s, ⟨2, 0, []⟩) else (s.writePieces ps p.data, ⟨0, 0, []⟩)
  else
    match ps with
    | (pa, _, leaf) :: _ =>
      if p.type = 0x12 then s.performAtomic pa leaf p
      else if s.memBad pa 8 then (s, ⟨2, 0, []⟩)
      else (s.signalDec pa p.opnd, ⟨0, 0, []⟩)
    | [] => (s, ⟨0, 0, []⟩)

end Sys2Proof.Machine
end

