-- ==== Sys2Proof/Machine/Sieve.lean ====
section
/-! DEFINITION. The Sieve up to the stages (spec/10): the header vector (R265, R266), counters and violations (R293, R294), the
parser (R267-R270), profiles and lanes (R263, R431), and table lookups (R271, R272). -/
namespace Sys2Proof.Machine

/-! ### The header vector (R265, R266) -/

/-- The big-endian field of `w` bytes at offset `o`. -/
def hvGet (hv : List Byte) (o w : Nat) : Nat := beNat ((hv.drop o).take w)

/-- Whether an action may write a byte (R265). -/
def hvWritable (o : Nat) : Bool := o < 112 || o = 113 || (118 ≤ o && o ≤ 123)

/-- One byte of the vector replaced. -/
def hvSetByte (hv : List Byte) (o : Nat) (b : Byte) : List Byte := hv.set o b

/-- A field written by an action: its read-only bytes stay (R266). -/
def hvSet (hv : List Byte) (o w v : Nat) : List Byte :=
  (cellsAt o (beBytes w v)).foldl (fun acc c => if hvWritable c.1 then acc.set c.1 c.2 else acc) hv

/-- The vector at parser entry (R265). -/
def hvStart (port plen part speer : Nat) (sys : Bool) : List Byte :=
  List.replicate 112 0 ++ [byte port, 0xFF] ++ beBytes 2 plen ++ [byte (part + if sys then 128 else 0), 0, 0, 0, 0, 0, 0, 0] ++
    beBytes 2 speer ++ [0, 0]

/-- DISP (R265). -/
def Packet.disp (p : Packet) : Nat := hvGet p.hv 117 1

/-- Sets bits of DISP. -/
def Packet.orDisp (p : Packet) (bits : Nat) : Packet := { p with hv := p.hv.set 117 (byte (p.disp ||| bits)) }

/-- Writes EPORT. -/
def Packet.setEport (p : Packet) (e : Nat) : Packet := { p with hv := p.hv.set 113 (byte e) }

/-- Whether a packet has a fabric header: it came by a torus port or from within the module. -/
def Packet.fabric (p : Packet) : Bool := p.port < 48 || 64 ≤ p.port

/-- PLEN of the bytes that enter a port (R265): a fabric packet's header gives it (R428). -/
def packetLength (port : Nat) (bs : List Byte) : Nat := if port < 48 || 64 ≤ port then 68 + pktDlen bs else bs.length

/-- PLEN. -/
def Packet.plen (p : Packet) : Nat := packetLength p.port p.packet

/-- PAYLEN at accept (R270). -/
def Packet.paylen (p : Packet) : Nat := p.plen - 4 - p.cur

/-- The payload bytes. -/
def Packet.payload (p : Packet) : List Byte := (p.packet.drop p.cur).take p.paylen

/-- An effect joins the deferred list (R278). -/
def Packet.defer (p : Packet) (e : Effect) : Packet := { p with effects := p.effects ++ [e] }

/-- The packet is dropped at once and nothing of it is deferred (R275, R278). -/
def Packet.kill (p : Packet) : Packet := { p.orDisp 4 with effects := [], fate := .dropped }

/-! ### Counters (R293, R294) -/

/-- Adds 1 to a counter. -/
def Cluster.count (k : Cluster) (n : Nat) : Cluster :=
  if h : n < 17 then { k with counters := k.counters.set n (k.counters[n] + 1) } else k

/-- Counts in a cluster. -/
def State.count (s : State) (cl : Fin 16) (n : Nat) : State := s.updCluster cl fun k => k.count n

/-- The record of a violation (R294). -/
def violWord (op stage : Nat) (p : Packet) : Word :=
  word (op * 2 ^ 26 + stage * 2 ^ 22 + p.part.toNat * 2 ^ 18 + p.port % 64 * 2 ^ 12 + 1)

/-- Counts and records a violation of a header (R293, R294). -/
def State.viol (s : State) (cl : Fin 16) (op stage : Nat) (p : Packet) : State :=
  s.updCluster cl fun k => { k.count 9 with violrec := violWord op stage p }

/-- The pipeline that serves a port and the port's number there, if it is one of the module's (R262). -/
def portHome (port : Nat) : Option (Fin 16 × Fin 4) :=
  if h : port < 64 then some (⟨port / 4, by omega⟩, ⟨port % 4, Nat.mod_lt _ (by decide)⟩) else none

/-- Counts one of four port counters: base 0 PARSEERR, base 4 TAGFAIL. -/
def State.countPort (s : State) (port base : Nat) : State :=
  match portHome port with | some (cl, j) => s.count cl (base + j.val) | none => s

/-! ### The parser (R267-R270) -/

/-- One parser state's 512 bits (R268). -/
def Cluster.parserState (k : Cluster) (n : Nat) : BitVec 512 :=
  match k.parser.find? fun p => p.1 == n with | some p => p.2 | none => 0

/-- Bits of a parser state. -/
def pbits (e : BitVec 512) (lo n : Nat) : Nat := bitsOf e.toNat lo n

/-- What a visit has come to: the vector, the field directory and the cursor. -/
structure Visit where
  hv : List Byte
  fdir : List FieldDir
  cur : Nat
  deriving DecidableEq, Repr

/-- One extraction of a visit, none where it is an error (R269, R270). -/
def extract (pkt : List Byte) (lim : Nat) (e : BitVec 512) (n : Nat) (v : Visit) : Option Visit :=
  let b := 32 * n
  if !e.getLsbD (b + 31) then some v
  else
    let off := v.cur + pbits e (b + 23) 8
    let len := pbits e (b + 19) 4 + 1
    let doff := pbits e (b + 12) 7
    if lim < off + len || 112 < doff + len || 32 ≤ v.fdir.length then none
    else
      let bs := (pkt.drop off).take len
      some ⟨(cellsAt doff bs).foldl (fun acc c => acc.set c.1 c.2) v.hv, v.fdir ++ [⟨doff, len, off, e.getLsbD (b + 11)⟩], v.cur⟩

/-- The next state of a visit (R269): the first valid transition whose masked key matches. -/
def nextState (e : BitVec 512) (key : Nat) : Nat :=
  let mask := if e.getLsbD 151 then pbits e 135 16 else pbits e 135 8
  match (List.range 4).find? fun n => e.getLsbD (32 * n + 191) && (key &&& mask) == pbits e (32 * n + 160) 16 with
  | some n => pbits e (32 * n + 184) 7
  | none => pbits e 128 7

/-- One visit to a state: extractions, key and advance, none where it is an error (R269, R270). -/
def visit (pkt : List Byte) (e : BitVec 512) (v : Visit) : Option (Visit × Nat) :=
  let lim := min 256 (pkt.length - 4)
  match (List.range 4).foldl (fun acc n => acc.bind (extract pkt lim e n)) (some v) with
  | none => none
  | some w =>
    let ko := w.cur + pbits e 152 8
    let kw := if e.getLsbD 151 then 2 else 1
    let ao := w.cur + pbits e 303 8
    if lim < ko + kw || (e.getLsbD 311 && decide (lim ≤ ao)) then none
    else
      let key := beNat ((pkt.drop ko).take kw)
      let more := if e.getLsbD 311 then ((beNat ((pkt.drop ao).take 1)) &&& pbits e 288 8) * 2 ^ pbits e 300 3 else 0
      some ({ w with cur := w.cur + pbits e 312 8 + more }, nextState e key)

/-- A state of the system profile's parser (R263, R267). -/
def Cluster.sysState (k : Cluster) (n : Nat) : BitVec 512 :=
  match k.sysParser.find? fun p => p.1 == n with | some p => p.2 | none => 0

/-- The walk of a parser graph: accept, or none for a parse error, after at most 32 visits (R270). -/
def parseFrom (states : Nat → BitVec 512) (pkt : List Byte) : Nat → Nat → Visit → Option Visit
  | 0, _, _ => none
  | fuel + 1, st, v =>
    match visit pkt (states st) v with
    | none => none
    | some (w, next) =>
      if next = 0x7E then (if w.cur ≤ pkt.length - 4 && decide (4 ≤ pkt.length) then some w else none)
      else if 64 ≤ next then none
      else parseFrom states pkt fuel next w

/-! ### Entry (R263, R265, R431) -/

/-- A packet as it enters a pipeline. -/
def packetStart (port part speer : Nat) (sys : Bool) (bs : List Byte) : Packet :=
  { port := port, sys := sys, packet := bs, hv := hvStart port (packetLength port bs) part speer sys, fdir := [], cur := 0, part := BitVec.ofNat 4 part,
    stage := 0, effects := [], tail := none, order := 0, fate := .flowing, out := none, dest := none, slot := 0 }

/-- A header enters a pipeline behind those before it, in the slot of its port's router (R436). -/
def State.enterHeader (s : State) (cl : Fin 16) (p : Packet) : State :=
  s.updCluster cl fun k => { k with headers := k.headers ++ [{ p with slot := s.portSlot p.port }] }

/-- A packet that is dropped before the stages: it is no header of a lane, and what is left of it is its tail check (R270,
R285). -/
def State.enterDropped (s : State) (cl : Fin 16) (p : Packet) : State := s.enterHeader cl { p with fate := .dropped }

/-- A parse error drops the packet and counts at its port (R270). -/
def State.parseError (s : State) (cl : Fin 16) (p : Packet) : State := (s.countPort p.port 0).enterDropped cl p

/-- Whether a granary word in error lies in the table tiles that hold a pipeline's parser states (R268). -/
def State.parserBad (s : State) (cl : Fin 16) : Bool :=
  let k := s.cores[coreOf cl 0]
  k.badWords.any fun w => (k.tile (tileOf (16 * w))).owner == 7

/-- A table read that may have met an uncorrectable error: whether it did is free (log entry 34). -/
def State.meetsError (s : State) : Bool := (Config.freeBits 1 s.free).toNat = 1

/-- A table read that met an uncorrectable error before the stages: BADACT is counted and the packet dropped (R275). -/
def State.badTable (s : State) (cl : Fin 16) (p : Packet) : State := (s.draw.count cl 11).enterDropped cl p

/-- A packet in the tenant profile of a partition (R263, R291, R292): the port takes tenant packets, the partition has a
parser, and the parse accepts. A parser state that is read with an uncorrectable error drops it (R275). -/
def State.enterTenant (s : State) (cl : Fin 16) (port part speer : Nat) (bs : List Byte) : State :=
  let enabled := match portHome port with | some (home, j) => ((s.clusters[home]).portcfg[j]).getLsbD 0 | none => true
  let p := packetStart port part speer false bs
  if !enabled then (match portHome port with | some (home, _) => (s.count home 12).enterDropped cl p | none => s)
  else
    let k := s.clusters[cl]
    let start := k.pstart[(BitVec.ofNat 4 part).toFin]
    if !start.getLsbD 6 then s.parseError cl p
    else if s.parserBad cl && s.meetsError then s.badTable cl p
    else
      let t := if s.parserBad cl then s.draw else s
      match parseFrom k.parserState bs 32 (wbits start 0 6) ⟨p.hv, [], 0⟩ with
      | none => t.parseError cl p
      | some v => t.enterHeader cl { p with hv := v.hv, fdir := v.fdir, cur := v.cur }

/-- The TYPEs that the system profile hands to the units of this module (R431). -/
def systemType (t : Nat) : Bool := (0x10 ≤ t && t ≤ 0x14) || (0x18 ≤ t && t ≤ 0x1A) || t = 0x20

/-- The system profile's parser in a pipeline's system table memory (R263, R267), from state 0 on (log entry 30); where the Reeve
has written no state, the header is read as R431 lays it out. -/
def Cluster.systemParse (k : Cluster) (p : Packet) : Option Packet :=
  if k.sysParser.isEmpty then some { p with cur := 64 }
  else (parseFrom k.sysState p.packet 32 0 ⟨p.hv, [], 0⟩).map fun v => { p with hv := v.hv, fdir := v.fdir, cur := v.cur }

/-- A fabric packet, parsed by the system profile, in the pipeline that handles it (R263, R431): transit, a tenant packet, a packet
for a unit of this module, or a parse error of the system profile. -/
def State.enterFabric (s : State) (cl : Fin 16) (here : Bool) (h : FHead) (p : Packet) : State :=
  if !here then s.enterHeader cl ((p.orDisp 1).setEport 0xFE)
  else if h.type = 1 then s.enterTenant cl p.port h.part h.speer p.packet
  else if systemType h.type then s.enterHeader cl ((p.defer ⟨0x20, 0, 0, 0, 0, 0⟩).orDisp 2)
  else s.parseError cl p

/-- The pipeline that a DLOC names: die bit 3, cluster bits 2:0 (R429). -/
def locCluster (loc : Nat) : Fin 16 := ⟨loc % 16, Nat.mod_lt _ (by decide)⟩

/-- A packet that enters on a torus port, or from within the module (R263, R428, R431): the system profile of the pipeline that it
enters parses it, and one for this module is handled by the pipeline that its DLOC names. Bytes after its tag belong to no
packet, and one whose header gives more than 4,092 data bytes is none (R1, R428). -/
def State.arriveFabric (s : State) (cl : Fin 16) (port : Nat) (all : List Byte) : State :=
  if all.length < 68 || 4092 < pktDlen all then s.countPort port 0
  else
    let bs := all.take (68 + pktDlen all)
    let h := FHead.ofBytes bs
    let here := h.dpeer == (s.dies[clusterDie cl]).self.toNat
    let p := packetStart port h.part h.speer true bs
    if (s.clusters[cl]).sysBad.getLsbD 0 && s.meetsError then s.badTable cl p
    else
      let t := if (s.clusters[cl]).sysBad.getLsbD 0 then s.draw else s
      match (t.clusters[cl]).systemParse p with
      | none => t.parseError cl p
      | some q => t.enterFabric (if here then locCluster h.dloc else cl) here h q

/-- A frame that enters on an edge port (R263, R424). -/
def State.arriveFrame (s : State) (cl : Fin 16) (port : Fin 4) (bs : List Byte) : State :=
  if bs.length < 64 || 9216 < bs.length then s
  else s.enterTenant cl (4 * cl.val + port.val) (wbits (s.clusters[cl]).portcfg[port] 8 4) 0 bs

/-- R269: a packet's header arrives at a port and is parsed; after a failed boot there is no profile to parse it (R415). -/
def execPacketParse (cluster : Fin 16) (port : Fin 4) (packet : List Byte) : State → Out :=
  runEvent fun s =>
    if s.pkg.halted then s
    else if cluster.val < 12 then s.arriveFabric cluster (4 * cluster.val + port.val) packet else s.arriveFrame cluster port packet

/-! ### Lookups (R271, R272) -/

/-- The key of a table: its slices, the first most significant (R271). -/
def STable.key (t : STable) (hv : List Byte) : Nat := t.slices.foldl (fun acc p => acc * 2 ^ (8 * p.2) + hvGet hv p.1 p.2) 0

/-- The key's length in bits. -/
def STable.bits (t : STable) : Nat := 8 * (t.slices.map (·.2)).sum

/-- Whether an entry matches a key (R272). -/
def STable.matches? (t : STable) (key : Nat) (e : SEntry) : Bool :=
  match t.kind with
  | .exact => e.key == key
  | .direct => key < t.cap && e.key == key
  | .range => e.key ≤ key && key ≤ e.hi
  | .longest => e.key / 2 ^ (t.bits - e.plen) == key / 2 ^ (t.bits - e.plen)

/-- The entry that hits: the longest prefix, else the lowest index (R272). -/
def STable.hit (t : STable) (key : Nat) : Option SEntry :=
  let ms := t.entries.filter (t.matches? key)
  match t.kind with
  | .longest => ms.find? fun e => ms.all fun f => f.plen ≤ e.plen
  | _ => ms.head?

/-- The program and action data that a lookup asks for (R272). -/
def STable.lookup (t : STable) (part : BitVec 4) (hv : List Byte) : Option (Nat × Word) :=
  if !t.valid || t.part != part then none
  else match t.hit (t.key hv) with
    | some e => some (e.prog, e.adata)
    | none => if t.deflt = 1023 then none else some (t.deflt, 0)

/-- The tables of a stage in their order (R273). -/
def Stage.inOrder (st : Stage) : List STable := (List.finRange 4).flatMap fun n => st.tables.filter fun t => t.index == n

/-- The programs that a header runs in a stage, all looked up in the vector as it enters (R273). -/
def Stage.lookups (st : Stage) (part : BitVec 4) (hv : List Byte) : List (Nat × Word) :=
  st.inOrder.filterMap fun t => t.lookup part hv

/-- The words of a program slot of a partition; none for a slot that was never written (R274). -/
def Stage.program (st : Stage) (part : BitVec 4) (slot : Nat) : List Word :=
  match st.programs.find? fun p => p.part == part && p.slot == slot with | some p => p.words | none => []

/-- A partition's regions and seed in a stage; none set means sizes 0 and seed 0 (R276). -/
def Stage.region (st : Stage) (part : BitVec 4) : Region :=
  match st.regions.find? fun r => r.part == part with | some r => r | none => ⟨part, 0, 0, 0⟩

end Sys2Proof.Machine
end

