-- ==== Sys2Proof/Machine/Prims.lean ====
section
/-! DEFINITION. The action primitives of the Sieve (R274-R278, R394): each acts on the header whose program runs, in the stage
and with the action data of `State.prog`. -/
namespace Sys2Proof.Machine

/-! ### The running header -/

/-- The header whose program runs. -/
def State.header? (s : State) : Option Packet := (s.clusters[s.prog.cluster]).headers[s.prog.header]?

/-- Changes a header of a pipeline by its place. -/
def State.updHeader (s : State) (cl : Fin 16) (n : Nat) (f : Packet → Packet) : State :=
  s.updCluster cl fun k => { k with headers := updAt f n k.headers }

/-- Changes the running header. -/
def State.modHeader (s : State) (f : Packet → Packet) : State := s.updHeader s.prog.cluster s.prog.header f

/-- BADACT: the packet is dropped and nothing of it is deferred (R275, R278). -/
def State.badAct (s : State) : State := (s.modHeader Packet.kill).count s.prog.cluster 11

/-- A violation of the running header by a primitive (R293, R294). -/
def State.primViol (s : State) (op : Nat) (p : Packet) : State := s.viol s.prog.cluster op s.prog.stage.val p

/-- The meaning of a primitive: it acts on the running header, if there is one. -/
def primWord (act : Packet → State → State) : State → Out :=
  runEvent fun s => match s.header? with | some p => act p s | none => s

/-- Bytes of a width code (R274). -/
def fieldBytes (w : BitVec 2) : Nat := 2 ^ w.toNat

/-- The value of a field of a header. -/
def Packet.field (p : Packet) (o : BitVec 7) (w : BitVec 2) : Nat := hvGet p.hv o.toNat (fieldBytes w)

/-- Writes a field of the running header. -/
def State.setField (s : State) (o : BitVec 7) (w : BitVec 2) (v : Nat) : State :=
  s.modHeader fun p => { p with hv := hvSet p.hv o.toNat (fieldBytes w) v }

/-! ### Header-time primitives (R276) -/

/-- R276: no effect. -/
def execActNop (_l : Bool) : State → Out := primWord fun _ s => s

/-- R276: hd := IMM or the action data. -/
def execActSet (_l : Bool) (doff : BitVec 7) (dw : BitVec 2) (d : Bool) (imm : BitVec 32) : State → Out :=
  primWord fun _ s => s.setField doff dw (if d then s.prog.adata.toNat else imm.toNat)

/-- R276: hd := hs. -/
def execActCopy (_l : Bool) (doff : BitVec 7) (dw : BitVec 2) (soff : BitVec 7) (sw : BitVec 2) : State → Out :=
  primWord fun p s => s.setField doff dw (p.field soff sw)

/-- R276: hd := hd + IMM, sign-extended, or the action data. -/
def execActAdd (_l : Bool) (doff : BitVec 7) (dw : BitVec 2) (d : Bool) (imm : BitVec 32) : State → Out :=
  primWord fun p s => s.setField doff dw (p.field doff dw + (if d then s.prog.adata else sext64 imm).toNat)

/-- The bytes of the fields that a mask names, in ascending order (R276). -/
def Packet.maskedFields (p : Packet) (fmask : BitVec 32) : List Byte :=
  (p.fdir.zipIdx.filter fun f => fmask.getLsbD f.2).flatMap fun f => (p.hv.drop f.1.doff).take f.1.len

/-- The stage of a lane: the granary's tables for tenants, the system table memory for the system profile (R263). -/
def Cluster.laneStage (k : Cluster) (sys : Bool) (st : Fin 16) : Stage := if sys then k.sysStages[st] else k.stages[st]

/-- The partition by which a packet finds its tables, programs and regions: the system table memory belongs to none, and its
objects are kept under 0 (R263). -/
def Packet.owner (p : Packet) : BitVec 4 := if p.sys then 0 else p.part

/-- The stage in which a packet's program runs. -/
def State.progStage (s : State) (p : Packet) : Stage := (s.clusters[s.prog.cluster]).laneStage p.sys s.prog.stage

/-- Changes the stage in which a packet's program runs. -/
def State.modStage (s : State) (p : Packet) (f : Stage → Stage) : State :=
  s.updCluster s.prog.cluster fun k =>
    if p.sys then { k with sysStages := k.sysStages.set s.prog.stage (f k.sysStages[s.prog.stage]) }
    else { k with stages := k.stages.set s.prog.stage (f k.stages[s.prog.stage]) }

/-- R276: a CRC-32C of fields, from the partition's seed. -/
def execActHash (_l : Bool) (doff : BitVec 7) (dw : BitVec 2) (fmask : BitVec 32) : State → Out :=
  primWord fun p s => s.setField doff dw (crc32c ((s.progStage p).region p.owner).seed (p.maskedFields fmask)).toNat

/-- `idx` of R276. -/
def primIndex (p : Packet) (soff : BitVec 7) (sw : BitVec 2) (x : Bool) (base : BitVec 13) : Nat :=
  base.toNat + if x then p.field soff sw else 0

/-- A register cell of a stage. -/
def Stage.cell (st : Stage) (part : BitVec 4) (n : Nat) : Word :=
  match st.cells.find? fun c => c.part == part && c.idx == n with | some c => c.val | none => 0

/-- Writes a register cell: one that holds 0 is not listed. -/
def Stage.setCell (st : Stage) (part : BitVec 4) (n : Nat) (v : Word) : Stage :=
  let rest := st.cells.filter fun c => !(c.part == part && c.idx == n)
  { st with cells := if v = 0 then rest else ⟨part, n, v⟩ :: rest }

/-- The register primitives (R276): a region of size 0 counts VIOL, and nothing else happens. -/
def regWord (op : Nat) (f : Word → Word → Word) (doff : BitVec 7) (dw : BitVec 2) (soff : BitVec 7) (sw : BitVec 2)
    (d x wb : Bool) (base : BitVec 13) : State → Out :=
  primWord fun p s =>
    let size := ((s.progStage p).region p.owner).cells
    if size = 0 then s.primViol op p
    else
      let n := primIndex p soff sw x base % size
      let v := f ((s.progStage p).cell p.owner n) (if d then s.prog.adata else word (p.field doff dw))
      let t := s.modStage p fun st => st.setCell p.owner n v
      if wb then t.setField doff dw v.toNat else t

/-- R276: a register cell raised by an operand. -/
def execActRegAdd (_l : Bool) (doff : BitVec 7) (dw : BitVec 2) (soff : BitVec 7) (sw : BitVec 2) (d : Bool) (x : Bool)
    (wb : Bool) (base : BitVec 13) : State → Out :=
  regWord 0x05 (fun c v => c + v) doff dw soff sw d x wb base

/-- R276: the unsigned maximum of a register cell and an operand. -/
def execActRegMax (_l : Bool) (doff : BitVec 7) (dw : BitVec 2) (soff : BitVec 7) (sw : BitVec 2) (d : Bool) (x : Bool)
    (wb : Bool) (base : BitVec 13) : State → Out :=
  regWord 0x06 (fun c v => if c.toNat < v.toNat then v else c) doff dw soff sw d x wb base

/-- A counter pair of a stage counts a packet. -/
def Stage.countPair (st : Stage) (part : BitVec 4) (n plen : Nat) : Stage :=
  let old := (st.pairs.find? fun c => c.part == part && c.idx == n).getD ⟨part, n, 0, 0⟩
  { st with pairs := { old with packets := old.packets + 1, bytes := old.bytes + word plen } :: st.pairs.filter fun c => !(c.part == part && c.idx == n) }

/-- R276: a counter pair. -/
def execActCount (_l : Bool) (soff : BitVec 7) (sw : BitVec 2) (x : Bool) (base : BitVec 13) : State → Out :=
  primWord fun p s =>
    let size := ((s.progStage p).region p.owner).pairs
    if size = 0 then s.primViol 0x07 p
    else s.modStage p fun st => st.countPair p.owner (primIndex p soff sw x base % size) p.plen

/-- R276: mark bits. -/
def execActMark (_l : Bool) (bits : BitVec 8) : State → Out :=
  primWord fun p s => s.modHeader fun q => { q with hv := q.hv.set 118 (byte (hvGet p.hv 118 1) ||| bits) }

/-- R276: FWD, and EPORT from IMM, from a field, or 0xFE. -/
def execActFwd (_l : Bool) (soff : BitVec 7) (x : Bool) (peer : Bool) (port : BitVec 6) : State → Out :=
  primWord fun p s =>
    let e := if x then hvGet p.hv soff.toNat 1 % 64 else if peer then 0xFE else port.toNat
    s.modHeader fun q => (q.orDisp 1).setEport e

/-- R276: DROP, counted by the class of its code. -/
def execActDrop (_l : Bool) (code : BitVec 8) : State → Out :=
  primWord fun _ s => (s.modHeader fun q => q.orDisp 4).count s.prog.cluster (13 + code.toNat / 64)

/-- R276, R394: the destination word of a model-routing entry; DROP and VIOL where it may not be used. -/
def execActRoute (_l : Bool) (doff : BitVec 7) (soff : BitVec 7) (sw : BitVec 2) (base : BitVec 16) : State → Out :=
  primWord fun p s =>
    let die := s.dies[clusterDie s.prog.cluster]
    let n := base.toNat + p.field soff sw
    let refuse := (s.modHeader fun q => q.orDisp 4).primViol 0x12 p
    if 4096 ≤ n then refuse
    else
      match die.entry? n with
      | some e =>
        if !e.valid || e.part != p.part || destPeer e.dest == die.self then refuse
        else
          (s.setField doff 3 e.dest.toNat).modHeader fun q => { (q.orDisp 1).setEport 0xFE with dest := some e.dest }
      | none => refuse

/-! ### Deferred primitives (R278) -/

/-- Appends an effect, with the bits of DISP that it sets; a ninth drops the packet with BADACT counted (R278). -/
def State.deferEffect (s : State) (p : Packet) (e : Effect) (bits : Nat) : State :=
  if 8 ≤ p.effects.length then s.badAct else s.modHeader fun q => (q.defer e).orDisp bits

/-- A payload effect on a tile: its span is checked at the header (R278). The system lane touches no granary, so in its programs
the word is undefined (R263, R284, log entry 30). -/
def tileWord (op : BitVec 6) (unit bits : Nat) (soff : BitVec 7) (sw : BitVec 2) (x : Bool) (core : BitVec 4) (tile : BitVec 6)
    (off : BitVec 15) : State → Out :=
  primWord fun p s =>
    let o := off.toNat + if x then unit * p.field soff sw else 0
    if 8 ≤ p.effects.length || p.sys then s.badAct
    else if (op = 0x1A && p.paylen % 4 != 0) || 24576 < o + p.paylen then
      (s.modHeader fun q => q.orDisp 4).primViol op.toNat p
    else s.deferEffect p ⟨op, s.prog.stage.val, core.toNat, tile.toNat, o, 0⟩ bits

/-- R278: the payload into a tile at commit. -/
def execActAbsorb (_l : Bool) (soff : BitVec 7) (sw : BitVec 2) (x : Bool) (core : BitVec 4) (tile : BitVec 6)
    (off : BitVec 15) : State → Out :=
  tileWord 0x18 16 2 soff sw x core tile off

/-- R278: the payload into a tile at commit, and FWD. -/
def execActMirror (_l : Bool) (soff : BitVec 7) (sw : BitVec 2) (x : Bool) (core : BitVec 4) (tile : BitVec 6)
    (off : BitVec 15) : State → Out :=
  tileWord 0x19 16 3 soff sw x core tile off

/-- R278: the payload added into a crib at commit. -/
def execActCribAdd (_l : Bool) (soff : BitVec 7) (sw : BitVec 2) (x : Bool) (core : BitVec 4) (tile : BitVec 6)
    (off : BitVec 15) : State → Out :=
  tileWord 0x1A 4 2 soff sw x core tile off

/-- R278: a crib's fill count rises at commit. -/
def execActCribBump (_l : Bool) (core : BitVec 4) (tile : BitVec 6) (num : BitVec 16) : State → Out :=
  primWord fun p s => if p.sys then s.badAct else s.deferEffect p ⟨0x1B, s.prog.stage.val, core.toNat, tile.toNat, 0, num.toNat⟩ 2

/-- R278: a signal of the partition falls at commit. -/
def execActSigdec (_l : Bool) (idx : BitVec 8) (num : BitVec 24) : State → Out :=
  primWord fun p s => if p.sys then s.badAct else s.deferEffect p ⟨0x1C, s.prog.stage.val, 0, 0, idx.toNat, num.toNat⟩ 2

/-- R278: the packet goes to the fabric target agent at commit; in a tenant header the word is undefined (R275). -/
def execActMemop (_l : Bool) : State → Out :=
  primWord fun p s => if p.sys then s.deferEffect p ⟨0x20, s.prog.stage.val, 0, 0, 0, 0⟩ 2 else s.badAct

/-! ### Programs (R274, R275) -/

/-- The meanings of the primitives. -/
def primMeaning : Instr → State → Out
  | .actNop l => execActNop l
  | .actSet l doff dw d imm => execActSet l doff dw d imm
  | .actCopy l doff dw soff sw => execActCopy l doff dw soff sw
  | .actAdd l doff dw d imm => execActAdd l doff dw d imm
  | .actHash l doff dw fmask => execActHash l doff dw fmask
  | .actRegAdd l doff dw soff sw d x wb base => execActRegAdd l doff dw soff sw d x wb base
  | .actRegMax l doff dw soff sw d x wb base => execActRegMax l doff dw soff sw d x wb base
  | .actCount l soff sw x base => execActCount l soff sw x base
  | .actMark l bits => execActMark l bits
  | .actFwd l soff x peer port => execActFwd l soff x peer port
  | .actDrop l code => execActDrop l code
  | .actRoute l doff soff sw base => execActRoute l doff soff sw base
  | .actAbsorb l soff sw x core tile off => execActAbsorb l soff sw x core tile off
  | .actMirror l soff sw x core tile off => execActMirror l soff sw x core tile off
  | .actCribAdd l soff sw x core tile off => execActCribAdd l soff sw x core tile off
  | .actCribBump l core tile num => execActCribBump l core tile num
  | .actSigdec l idx num => execActSigdec l idx num
  | .actMemop l => execActMemop l
  | _ => fun s => .next s

/-- Runs a program's words for the running header: at most six, up to the first with L = 1, and none once the packet is
dropped for BADACT (R274, R275). -/
def runProgram : Nat → List Word → State → State
  | 0, _, s => s
  | _, [], s => s
  | fuel + 1, w :: ws, s =>
    match s.header? with
    | some p =>
      if p.fate != .flowing then s
      else
        match decodePrim w with
        | .error _ => s.badAct
        | .ok i =>
          let t := match primMeaning i s with | .next t => t | _ => s
          if w.getLsbD 57 then t else runProgram fuel ws t
    | none => s

end Sys2Proof.Machine
end

