-- ==== Sys2Proof/Machine/Commit.lean ====
section
/-! DEFINITION. The Sieve from the stages on (spec/10, spec/11): a stage pass (R273), disposition and egress (R277, R279-R281,
R290, R394), tail checks (R283, R285, R431), and commits with the crib arithmetic and triggers (R284, R286, R300-R304). -/
namespace Sys2Proof.Machine

/-! ### Egress (R277, R280, R281, R394) -/

/-- Bytes written over a packet from an offset. -/
def overwrite (bs : List Byte) (off : Nat) (new : List Byte) : List Byte :=
  (cellsAt off new).foldl (fun acc c => acc.set c.1 c.2) bs

/-- The fields that the deparser writes back (R280). -/
def Packet.writeBack (p : Packet) : List Byte :=
  p.fdir.foldl (fun acc f => if f.immu then acc else overwrite acc f.poff ((p.hv.drop f.doff).take f.len)) p.packet

/-- The fabric destination and expert tag that `act.route` gives (R394, R395, R429). -/
def Packet.redirect (p : Packet) (bs : List Byte) : List Byte :=
  match p.dest with
  | some w =>
    if p.fabric then
      overwrite (overwrite bs 0 (beBytes 2 (wbits w 52 12) ++ [byte (wbits w 48 4)])) 16 (beBytes 2 (wbits w 0 16) ++ beBytes 2 (wbits w 16 16))
    else bs
  | none => bs

/-- The congestion bits that a hop marks on a torus port (R277, R429). -/
def Packet.marked (p : Packet) (bs : List Byte) : List Byte :=
  if p.fabric then overwrite bs 10 [byte (pktNat bs 10 1) ||| byte (hvGet p.hv 118 1)] else bs

/-- A frame whose bytes have changed has its check sequence recomputed (R280). -/
def Packet.reframed (p : Packet) (bs : List Byte) : List Byte :=
  if bs = p.packet then bs else bs.take (bs.length - 4) ++ leBytes 4 (frameCheck (bs.take (bs.length - 4))).toNat

/-- The header by which a packet with EPORT 0xFE is routed: by the DEST of `act.route` where it has one. -/
def Packet.routeHead (p : Packet) (bs : List Byte) : FHead :=
  let h := FHead.ofBytes bs
  match p.dest with | some w => { h with dpeer := wbits w 52 12 } | none => h

/-- Whether a class is paused at a port (R424). -/
def State.pausedAt (s : State) (port : Nat) (cls : BitVec 8) : Bool :=
  if h : port < 64 then (s.pkg.ports[port]).paused.getLsbD cls.toNat else false

/-- Hands a forwarded packet to its egress port in the class of QCLS (R265, R279-R281, R426); a frame of a paused class waits at its
edge port (R424). -/
def State.leave (s : State) (d : Fin 2) (p : Packet) : State :=
  let e := hvGet p.hv 113 1
  let bs := p.redirect p.writeBack
  let cls := BitVec.ofNat 8 (hvGet p.hv 119 1 % 8)
  let h := p.routeHead (p.marked bs)
  if e < 64 then
    if 48 ≤ e then s.emit ⟨e, cls, false, false, p.reframed bs, false, s.pausedAt e cls⟩
    else if s.portLive e then s.emit (s.outPkt d h cls (p.marked bs) e)
    else (s.sendOn d p.port p.slot { h with circ := false } cls (p.marked bs)).1
  else (s.sendOn d p.port p.slot h cls (p.marked bs)).1

/-! ### Disposition (R279, R290) -/

/-- Whether the packet is an answer for this module's source agent, whose failed tag it is told of (R285, R454). -/
def Packet.isAnswer (p : Packet) : Bool :=
  let h := FHead.ofBytes p.packet
  p.sys && p.effects.any (fun e => e.op == 0x20) && h.answers

/-- Whether a packet's effects are discarded: its tail check has failed, and it is no answer for the source agent (R285). -/
def Packet.spoilt (p : Packet) : Bool := p.tail == some false && !p.isAnswer

/-- A header's fate with the effects it keeps (R279, R285). -/
def Packet.decided (p : Packet) (f : Fate) : Packet := { p with fate := f, effects := if f == .dropped || p.spoilt then [] else p.effects }

/-- Whether an edge port belongs to another partition than a tenant header (R290), or the header is a system one, which no edge
port carries (R424; that it counts as such a violation is log entry 90). -/
def State.edgeForeign (s : State) (p : Packet) : Bool :=
  match portHome (hvGet p.hv 113 1) with
  | some (cl, j) => decide (48 ≤ hvGet p.hv 113 1) && (p.sys || wbits (s.clusters[cl]).portcfg[j] 8 4 != p.part.toNat)
  | none => false

/-- A forwarded header leaves, unless its tail has failed before (R283, R285); the copies that it leaves are remembered. -/
def State.forward (s : State) (cl : Fin 16) (n : Nat) (p : Packet) (f : Fate) : State :=
  if p.tail == some false then s.updHeader cl n fun q => q.decided .dropped
  else
    let t := s.leave (clusterDie cl) p
    t.updHeader cl n fun q => { q.decided f with out := some (s.pkg.egress.length, t.pkg.egress.length - s.pkg.egress.length) }

/-- Disposition at the end of stage 15 (R279, R290). -/
def State.dispose (s : State) (cl : Fin 16) (n : Nat) : State :=
  match (s.clusters[cl]).headers[n]? with
  | none => s
  | some p =>
    let drop (t : State) : State := t.updHeader cl n fun q => q.decided .dropped
    let e := hvGet p.hv 113 1
    let fwd := p.disp.testBit 0
    let abs := p.disp.testBit 1
    if p.disp.testBit 2 then drop s
    else if (!fwd && !abs) || (fwd && 64 ≤ e && e != 0xFE) then (drop s).count cl 12
    else if fwd && s.edgeForeign p then (drop s).viol cl 0x10 15 p
    else if fwd then s.forward cl n p (if abs then .both else .forward)
    else s.updHeader cl n fun q => q.decided .absorb

/-- Headers that are over leave the pipeline: their fate and tail are known and nothing of them is still to be committed. -/
def Packet.over (p : Packet) : Bool := p.fate != .flowing && p.tail.isSome && p.effects.isEmpty

/-- Removes the headers of a pipeline that are over. -/
def State.sweep (s : State) (cl : Fin 16) : State := s.updCluster cl fun k => { k with headers := k.headers.filter fun p => !p.over }

/-! ### Stages (R273) -/

/-- Whether every earlier header of the lane is past the stage that a header would pass (R264, R273). -/
def Cluster.laneClear (k : Cluster) (n : Nat) (p : Packet) : Bool :=
  (k.headers.take n).all fun q => q.sys != p.sys || q.fate != .flowing || decide (p.stage < q.stage)

/-- Whether the commit buffer of a lane is full for the header at a place (R287): 64 other packets of the lane hold deferred
effects; a system packet takes its place in the buffer at its disposition. -/
def Cluster.bufferFull (k : Cluster) (n : Nat) (sys : Bool) : Bool :=
  64 ≤ (k.headers.zipIdx.filter fun q => q.2 != n && q.1.sys == sys && !q.1.effects.isEmpty && (!sys || q.1.fate != .flowing)).length

/-- Whether a word in error lies in what holds a header's tables of a stage: its partition's table tiles, or the system table memory
(R263, R271, R377). -/
def State.tableError (s : State) (cl : Fin 16) (p : Packet) (st : Fin 16) : Bool :=
  let k := s.cores[coreOf cl st]
  if p.sys then (s.clusters[cl]).sysBad.getLsbD st.val
  else k.badWords.any fun w => (k.tile (tileOf (16 * w))).owner == 7 && (k.tile (tileOf (16 * w))).part == p.part

/-- The programs of a stage for the header at a place (R273, R274). Where a word of its tables is in error, a read may meet it,
which is free (log entry 34): the packet is then dropped with BADACT counted (R275). -/
def State.runStage (s : State) (cl : Fin 16) (n : Nat) (p : Packet) (st : Fin 16) : State :=
  if s.tableError cl p st && s.meetsError then { s.draw with prog := ⟨cl, n, st, 0⟩ }.badAct
  else
    (((s.clusters[cl]).laneStage p.sys st).lookups p.owner p.hv).foldl (fun acc l =>
      runProgram 6 (((acc.clusters[cl]).laneStage p.sys st).program p.owner l.1) { acc with prog := ⟨cl, n, st, l.2⟩ })
      (if s.tableError cl p st then s.draw else s)

/-- The header at a place passes its next stage; after the last its fate is decided (R273, R279). One that would take a place in
a full commit buffer waits (R287). -/
def State.stagePass (s : State) (cl : Fin 16) (n : Nat) : State :=
  match (s.clusters[cl]).headers[n]? with
  | none => s
  | some p =>
    if h : p.stage < 16 then
      if p.fate != .flowing || !(s.clusters[cl]).laneClear n p then s
      else
        let t := (s.runStage cl n p ⟨p.stage, h⟩).updHeader cl n fun q => { q with stage := p.stage + 1 }
        match (t.clusters[cl]).headers[n]? with
        | some q =>
          if (s.clusters[cl]).bufferFull n p.sys && !q.effects.isEmpty && (p.effects.isEmpty || (p.sys && p.stage = 15)) then s
          else if p.stage = 15 && q.fate == .flowing then (t.dispose cl n).sweep cl else t.sweep cl
        | none => t
    else s

/-- R273: a header passes one match-action stage. -/
def execStagePass (cluster : Fin 16) (n : Nat) : State → Out := runEvent fun s => s.stagePass cluster n

/-! ### Tail checks (R283, R285, R431) -/

/-- Whether a frame's check sequence is good (R283). -/
def frameGood (bs : List Byte) : Bool :=
  leNat (bs.drop (bs.length - 4)) == (frameCheck (bs.take (bs.length - 4))).toNat

/-- Whether a packet's tail check passes: the tag on torus ports, the frame check sequence on edge ports (R283). -/
def Packet.tailGood (p : Packet) : Bool := if p.fabric then tagGood p.packet else frameGood p.packet

/-- An answer to a request goes to the peer that sent it, or at once to this module's own source agent (R442). -/
def State.reply (s : State) (d : Fin 2) (h : FHead) (type status : Nat) (flags : Flags) (data : List Byte) : State :=
  let self := (s.dies[d]).self
  let peer := BitVec.ofNat 12 h.speer
  if peer == self then
    if type = 0x18 then s.response self h.tx (BitVec.ofNat 8 status) flags data
    else if type = 0x19 then s.answer self h.tx (.failed 5) [] 0
    else s.answer self h.tx (.sent s.now) [] 0
  else
    let r : FHead := { dpeer := h.speer, dloc := h.sloc, type := type, speer := self.toNat, sloc := h.dloc, part := h.part, cong := 0, cls := h.cls, circ := false, circid := 0, xtag := 0, tx := h.tx, atop := 0, atype := 0, mode := flags.toNat, status := status, target := h.target, opnd := 0, cmpv := 0 }
    (s.sendOn d 0x40 0 r (BitVec.ofNat 8 h.cls) (fabricPacket r data)).1

/-- Whether a failed tag at the destination is answered with a failure notice (R431). -/
def noticeType (t : Nat) : Bool := t = 1 || (0x10 ≤ t && t ≤ 0x14)

/-- The copies of a packet that have begun to leave are stomped and counted (R285). -/
def State.stomp (s : State) (cl : Fin 16) (out : Option (Nat × Nat)) : State :=
  match out with
  | some (a, n) =>
    let t := { s with pkg := { s.pkg with egress := s.pkg.egress.mapIdx fun i (p : OutPkt) => if a ≤ i && i < a + n then { p with stomped := true } else p } }
    if n = 0 then s else t.count cl 8
  | none => s

/-- A failed tail (R285): TAGFAIL, the deferred list is discarded, copies are stomped, and a failure notice goes back where
this module is the destination. -/
def State.tailFails (s : State) (cl : Fin 16) (n : Nat) (p : Packet) : State :=
  let h := FHead.ofBytes p.packet
  let d := clusterDie cl
  let s1 := (s.countPort p.port 4).updHeader cl n fun q => { q with tail := some false, order := (s.clusters[cl]).tails, effects := if p.isAnswer then q.effects else [] }
  let s2 := (s1.stomp cl p.out).updCluster cl fun k => { k with tails := k.tails + 1 }
  if p.fabric && noticeType h.type && h.dpeer == (s.dies[d]).self.toNat then s2.reply d h 0x19 5 0 [] else s2

/-- The result of a header's tail check is known (R283-R285). -/
def State.tailCheck (s : State) (cl : Fin 16) (n : Nat) (stomped : Bool) : State :=
  match (s.clusters[cl]).headers[n]? with
  | none => s
  | some p =>
    if p.tail.isSome then s
    else if !stomped && p.tailGood then
      (s.updCluster cl fun k => { k with headers := updAt (fun q => { q with tail := some true, order := k.tails }) n k.headers, tails := k.tails + 1 }).sweep cl
    else (s.tailFails cl n p).sweep cl

/-- R283: a tail's tag or frame check is known. -/
def execTailCheck (cluster : Fin 16) (n : Nat) (stomped : Bool) : State → Out :=
  runEvent fun s => s.tailCheck cluster n stomped

/-! ### Commits (R284, R286, R300-R304) -/

/-- The core of an effect. -/
def effectCore (cl : Fin 16) (e : Effect) : Fin 256 := coreOf cl ⟨e.core % 16, Nat.mod_lt _ (by decide)⟩

/-- The place of an effect's crib in its cluster. -/
def Effect.place (e : Effect) : Nat := 64 * e.core + e.tile

/-- Whether an effect names a tile (R278). -/
def Effect.onTile (e : Effect) : Bool := e.op == 0x18 || e.op == 0x19 || e.op == 0x1A || e.op == 0x1B

/-- The physical address of a signal of a partition (R286). -/
def Cluster.signal? (k : Cluster) (part : BitVec 4) (idx : Nat) : Option Nat :=
  (k.signals.find? fun e => e.part == part && e.idx == idx).map fun e => e.pa

/-- The commit check of an effect (R284, R301): owner and partition of its tile, its crib OPEN, its span, its signal. -/
def State.effectOk (s : State) (cl : Fin 16) (p : Packet) (e : Effect) : Bool :=
  if e.onTile then
    let t := (s.cores[effectCore cl e]).tile e.tile
    t.owner == 5 && t.part == p.part && ((s.clusters[cl]).crib e.place).state == 2 &&
      (e.op == 0x1B || decide (e.off + p.paylen ≤ 24576))
  else if e.op == 0x1C then ((s.clusters[cl]).signal? p.part e.off).isSome
  else true

/-- The sum of two crib elements by MODE, with what it makes sticky: SAT and FLG (R300). -/
def cribSum (mode : BitVec 2) (a b : Nat) : Nat × Bool × Flags :=
  if mode = 0 then ((a + b) % 2 ^ 32, false, 0)
  else if mode = 1 then
    let t := toSigned 32 a + toSigned 32 b
    let c := min (max t (-(2 ^ 31))) (2 ^ 31 - 1)
    (ofSigned 32 c, t != c, 0)
  else
    let r := (valueOf .f32 a).add (valueOf .f32 b)
    let y := final .f32 .rne r.1
    (y.1, false, r.2 ||| y.2)

/-- What an addition has come to: the core, the crib, and whether a word in error was met. -/
structure Adding where
  core : Core
  crib : Crib
  bad : Bool
  deriving DecidableEq, Repr

/-- One element added at a granary address (R300): a word in error stays as it is (R458). -/
def addElement (acc : Adding) (a v : Nat) : Adding :=
  if acc.core.badWords.contains (a / 16) then { acc with bad := true }
  else
    let r := cribSum acc.crib.mode (leNat (readCells acc.core.granary a 4)) v
    { acc with core := (acc.core.write (wholeBytes (cellsAt a (leBytes 4 r.1)))).1, crib := { acc.crib with sat := acc.crib.sat || r.2.1, flg := acc.crib.flg ||| r.2.2 } }

/-- One effect applied (R278, R286, R300). -/
def State.applyEffect (s : State) (cl : Fin 16) (p : Packet) (e : Effect) : State :=
  let c := effectCore cl e
  let base := 24576 * e.tile + e.off
  if e.op == 0x18 || e.op == 0x19 then
    let w := (s.cores[c]).writeEngine (fun t => t.owner == 5) (cellsAt base p.payload)
    let t := s.updCore c fun _ => w.1
    if w.2 then t.count cl 11 else t
  else if e.op == 0x1A then
    let elems := (List.range (p.paylen / 4)).map fun i => (base + 4 * i, leNat ((p.payload.drop (4 * i)).take 4))
    let r := elems.foldl (fun acc x => addElement acc x.1 x.2) ⟨s.cores[c], (s.clusters[cl]).crib e.place, false⟩
    let t := (s.updCore c fun _ => r.core).updCluster cl fun k => k.setCrib e.place r.crib
    if r.bad then t.count cl 11 else t
  else if e.op == 0x1B then
    s.updCluster cl fun k =>
      k.setCrib e.place { k.crib e.place with count := BitVec.ofNat 16 (min ((k.crib e.place).count.toNat + e.n) 65535) }
  else if e.op == 0x1C then
    match (s.clusters[cl]).signal? p.part e.off with | some pa => s.decrement (clusterDie cl) pa (word e.n) | none => s
  else s

/-- The crib status word (R304). -/
def cribStatus (place : Nat) (k : Crib) : Word :=
  word (place % 64 * 2 ^ 42 + place / 64 * 2 ^ 38 + (if k.sat then 2 ^ 37 else 0) + k.flg.toNat * 2 ^ 32 + k.count.toNat)

/-- A crib whose count has reached its threshold closes and sends its trigger (R302, R303). -/
def State.closeIf (s : State) (cl : Fin 16) (place : Nat) : State :=
  let k := (s.clusters[cl]).crib place
  if k.state = 2 && k.thr != 0 && decide (k.thr.toNat ≤ k.count.toNat) then
    (s.updCluster cl fun x => x.setCrib place { k with state := 3 }).updGranger (clusterDie cl) fun g =>
      { g with triggers := g.triggers ++ [⟨⟨⟨cl.val % 8, Nat.mod_lt _ (by decide)⟩, place, cribStatus place k⟩, k.part, k.tmpl.toNat, k.argslot, k.queue, k.count⟩] }
  else s

/-- The tenant commit of a packet (R284, R301): nothing where a check fails, counted by the first that does; else every
effect in list order, and then the cribs that close. -/
def State.commitTenant (s : State) (cl : Fin 16) (p : Packet) : State :=
  match p.effects.find? fun e => !s.effectOk cl p e with
  | some e =>
    if e.onTile && ((s.clusters[cl]).crib e.place).state == 3 then s.count cl 10 else s.viol cl e.op.toNat e.stage p
  | none =>
    let t := p.effects.foldl (fun acc e => acc.applyEffect cl p e) s
    (((p.effects.filter fun e => e.onTile).map Effect.place).eraseDups).foldl (fun acc n => acc.closeIf cl n) t

/-- A request as the target agent keeps it (R429, R442). -/
def requestOf (bs : List Byte) : TReq :=
  let h := FHead.ofBytes bs
  { kind := BitVec.ofNat 8 h.type, part := BitVec.ofNat 4 h.part, speer := BitVec.ofNat 12 h.speer, sloc := BitVec.ofNat 8 h.sloc, dloc := BitVec.ofNat 8 h.dloc, tx := h.tx,
    atop := h.atop, atype := h.atype, mode := BitVec.ofNat 8 h.mode, target := word h.target, opnd := word h.opnd, cmpv := word h.cmpv,
    len := if h.type = 0x11 then pktDlen bs else h.opnd, data := pktData bs, cls := BitVec.ofNat 8 h.cls,
    circid := BitVec.ofNat 8 h.circid, held := none, refused := false }

/-- Whether a Thresher message brings back the end of an arm request (log entry 20). -/
def armOver (bs : List Byte) : Bool := leNat (((pktData bs).drop 4).take 4) != 0

/-- An arm request in a Thresher message (R391): INDEX, THR, four bytes that are 0 in a request and 1 in its answer, and the
done signal, in the message's data (log entry 20). -/
def armOf (bs : List Byte) : ArmReq :=
  let h := FHead.ofBytes bs
  let b := pktData bs
  ⟨leNat (b.take 2), leNat ((b.drop 2).take 2), leNat ((b.drop 8).take 8), BitVec.ofNat 12 h.speer, dieOf (h.sloc.testBit 3), 0⟩

/-- An arm request arrives at a Thresher, behind the commands that are in its ring by then (R391, R399). -/
def Thresher.arrive (t : Thresher) (r : ArmReq) : Thresher := { t with arms := t.arms ++ [{ r with after := t.tctail }] }

/-- The hand-off of a system packet (R284, R431, R454). -/
def State.commitSystem (s : State) (cl : Fin 16) (p : Packet) : State :=
  let h := FHead.ofBytes p.packet
  let d := clusterDie cl
  let peer := BitVec.ofNat 12 h.speer
  let good := p.tail == some true
  if 0x10 ≤ h.type && h.type ≤ 0x14 then s.updDie d fun x => { x with target := x.target ++ [requestOf p.packet] }
  else if h.type = 0x18 then
    if good then s.response peer h.tx (BitVec.ofNat 8 h.status) (BitVec.ofNat 5 h.mode) (pktData p.packet)
    else s.answer peer h.tx (.failed 5) [] 0
  else if h.type = 0x19 then s.answer peer h.tx (.failed 5) [] 0
  else if h.type = 0x1A then (if good then s.answer peer h.tx (.sent s.now) [] 0 else s)
  else if armOver p.packet then s.decrement d (armOf p.packet).signal 1
  else s.updDie d fun x => { x with thresher := x.thresher.arrive (armOf p.packet) }

/-- Whether a packet has a place in its lane's order of commits (R284, R285): its tail check has passed, or it is an answer whose
failed check the source agent is told of; and it has effects, or may still get some. -/
def Packet.queued (p : Packet) : Bool :=
  (p.tail == some true || (p.tail == some false && p.isAnswer)) && (!p.effects.isEmpty || p.fate == .flowing)

/-- The packets of a lane that hold its order of commits (R284). -/
def Cluster.commitQueue (k : Cluster) (sys : Bool) : List (Packet × Nat) :=
  k.headers.zipIdx.filter fun p => p.1.sys == sys && p.1.queued

/-- The next packet of a lane to commit: the first by the order of tail checks, once its fate is known (R284). -/
def Cluster.nextCommit (k : Cluster) (sys : Bool) : Option (Packet × Nat) :=
  let q := k.commitQueue sys
  (q.find? fun p => q.all fun r => decide (p.1.order ≤ r.1.order)).filter fun p => p.1.fate == .absorb || p.1.fate == .both

/-- Whether the quarters of the tiles that a packet's effects name are awake (R205). -/
def State.effectsAwake (s : State) (cl : Fin 16) (p : Packet) : Bool :=
  p.effects.all fun e => !e.onTile || (s.cores[effectCore cl e]).awake [e.tile]

/-- A lane's next commit (R284). -/
def State.commitLane (s : State) (cl : Fin 16) (sys : Bool) : State :=
  match (s.clusters[cl]).nextCommit sys with
  | none => s
  | some (p, n) =>
    if !s.effectsAwake cl p then s
    else
      let t := if sys then s.commitSystem cl p else s.commitTenant cl p
      (t.updHeader cl n fun q => { q with effects := [] }).sweep cl

/-- R284: a packet's deferred effects are checked and applied whole. -/
def execCommit (cluster : Fin 16) (sys : Bool) : State → Out := runEvent fun s => s.commitLane cluster sys

end Sys2Proof.Machine
end

