-- ==== Sys2Proof/Machine/Fabric.lean ====
section
/-! DEFINITION. The fabric agents and links (spec/17): translating and sending an item (R439, R440, R447), the target agent
(R441, R442), and the links' flits, lanes, time codes and flow control (R424-R427, R436). -/
namespace Sys2Proof.Machine

/-! ### Sending an item (R395, R439, R440, R447) -/

/-- TYPE of a command's packets (R431). -/
def FCmd.type (c : FCmd) : Nat :=
  match c.op with | .ld => 0x10 | .st => if c.kind = 2 then 1 else 0x11 | .flush => 0x13 | .sdec => 0x14 | _ => 0x12

/-- ATOP of a command's packets (R92, R429). -/
def FCmd.atop (c : FCmd) : Nat :=
  match c.op with | .add => 0 | .min => 1 | .max => 2 | .swap => 3 | .cas => 4 | .and => 5 | .or => 6 | _ => 0

/-- The access that a command makes (R346). -/
def FCmd.access (c : FCmd) : Access := match c.op with | .ld | .flush => .read | .st => .write | _ => .atomic

/-- The permits of a leaf that leads through an aperture (R439). -/
def Leaf.remotePermits (l : Leaf) : Access → Bool
  | .read | .fetch => l.r
  | .write => l.w
  | .atomic => l.r && l.w && l.ra

/-- Where the first part of an item goes: memory of this module, a peer's window (PEER and TARGET), a fault that holds it, or
failure with ECODE 3. -/
inductive Aim where
  | home (pa : Nat) (leaf : Word)
  | away (peer : BitVec 12) (target : Nat)
  | held (cause : Nat) (peer : Option (BitVec 12))
  | fail (peer : Option (BitVec 12))
  /-- A table cannot be read (R355, R404). -/
  | lost
  deriving DecidableEq, Repr

/-- A number's word in a list of numbered words that are not 0. -/
def wordAt (ws : List (Nat × Word)) (n : Nat) : Word := match ws.find? fun e => e.1 == n with | some e => e.2 | none => 0

/-- The aperture entry of a partition (R440). -/
def Die.aperture (d : Die) (part : BitVec 4) (a : Nat) : Word := wordAt d.aptab (32 * part.toNat + a)

/-- PEER of an aperture entry (R440). -/
def aperPeer (w : Word) : BitVec 12 := BitVec.ofNat 12 (wbits w 0 12)

/-- Where an access through a leaf's aperture goes (R439, R440). -/
def aperAim (e : Word) (level va : Nat) (acc : Access) (entry : Word) : Aim :=
  let v := entry.getLsbD 63
  if !(Leaf.ofWord e).remotePermits acc then .held 3 (if v then some (aperPeer entry) else none)
  else if !v then .fail none
  else .away (aperPeer entry) (wbits entry 32 8 * 2 ^ 56 + leafPhys e level va % 2 ^ 52)

/-- Where a translation to this module's memory leads. -/
def homeAim : Trans → Aim
  | .phys pa leaf => .home pa leaf
  | .fault c => .held c none
  | .lost => .lost
  | _ => .fail none

/-- The first part of an item and where it goes: an item that lies in one extent goes whole, one in the tables up to the end
of its leaf's page (R340, R447). -/
def State.aim (s : State) (d : Fin 2) (x : Context) (acc : Access) (va len : Nat) : Nat × Aim :=
  let part := min len (65536 - va % 65536)
  if 2 ^ 52 < va + len then (len, .fail none)
  else if (findExtent x.extents va len).isSome then (len, homeAim (s.translate d x.partId x.extents va len acc))
  else if (findExtent x.extents va part).isSome then (part, homeAim (s.translate d x.partId x.extents va part acc))
  else
    match s.currentLeaf d x.partId va with
    | .fault c => (part, .held c none)
    | .lost => (part, .lost)
    | .leaf e level =>
      let n := min len (2 ^ levelBits level - va % 2 ^ levelBits level)
      let a := (Leaf.ofWord e).aper
      (n, if a != 0 then aperAim e level va acc ((s.dies[d]).aperture x.partId a) else homeAim ((leafAccess e level va acc).within n))

/-- The header of a command's packet to a peer: the request's length stands in OPND where the operation has no operand. -/
def FCmd.packetHead (c : FCmd) (self peer : BitVec 12) (cl : Fin 16) (part : BitVec 4) (tx target len : Nat) : FHead :=
  { dpeer := peer.toNat, dloc := match c.dest with | some w => if c.kind = 2 then wbits w 48 4 else cl.val | none => cl.val, type := c.type, speer := self.toNat, sloc := cl.val, part := part.toNat, cong := 0, cls := c.cls, circ := c.circ, circid := c.circid, xtag := match c.dest with | some w => if c.kind = 2 then wbits w 0 16 * 2 ^ 48 + wbits w 16 16 * 2 ^ 32 + wbits c.fs[2] 16 16 * 2 ^ 16 else 0 | none => 0, tx := tx, atop := c.atop, atype := if c.op.atomic then c.ty.toNat else 0, mode := c.rmode.toNat + 16 * c.ord, status := 0, target := target, opnd := if c.op.atomic || c.op == .sdec then c.fs[4].toNat else if c.op == .ld || c.op == .flush then len else 0, cmpv := if c.op == .cas then c.fs[5].toNat else 0 }

/-- The bytes that a store's item carries (R448). -/
def FCmd.itemData (c : FCmd) (off len : Nat) : List Byte := if c.op == .st then ((c.data.getD []).drop off).take len else []

/-- The items of a command whose first waiting one has come to a state: what is left of it waits as an item of its own
(R447). -/
def cutItem (n : Nat) (st : ItemState) (tx : Nat) (peer : Option (BitVec 12)) (data : List Byte) : List FItem → List FItem
  | [] => []
  | i :: is =>
    if i.waits then
      { i with len := min n i.len, state := st, tx := tx, peer := peer, data := data } ::
        (if n < i.len then ⟨i.off + n, i.len - n, .waiting, 0, none, []⟩ :: is else is)
    else i :: cutItem n st tx peer data is

/-- Records what has become of the first waiting item of a command. -/
def State.settleItem (s : State) (core : Fin 256) (bank : Bool) (n len : Nat) (st : ItemState) (tx : Nat)
    (peer : Option (BitVec 12)) (data : List Byte) (flags : Flags) : State :=
  s.updCore core fun k => k.modCtx bank fun x =>
    { x with fabric := updAt (fun c => { c with items := cutItem len st tx peer data c.items, flags := c.flags ||| flags }) n x.fabric }

/-- TXID of a die's next packet (R429). -/
def State.nextTx (s : State) (d : Fin 2) : Nat := (2 * (s.dies[d]).tx + d.val) % 2 ^ 32

/-- An item leaves for a peer: this module's own target agent, its own Sieve, or the fabric; none where no way is left
(R421, R432, R442). -/
def State.sendItem (s : State) (core : Fin 256) (h : FHead) (data : List Byte) : Option State :=
  let d := coreDie core
  let t := s.updDie d fun x => { x with tx := x.tx + 1 }
  let bs := fabricPacket h data
  if h.dpeer = (s.dies[d]).self.toNat then
    some (if h.type = 1 then t.arriveFabric (clusterOf core) 0x40 bs
      else t.updDie d fun x => { x with target := x.target ++ [requestOf bs] })
  else
    let r := t.sendOn d 0x40 0 h (BitVec.ofNat 8 h.cls) bs
    if r.2 then some r.1 else none

/-- An item goes to a peer: it is in flight from then on, but an expert send awaits no response (R395, R431). -/
def State.goAway (s : State) (core : Fin 256) (bank : Bool) (n : Nat) (c : FCmd) (x : Context) (i : FItem) (len : Nat)
    (peer : BitVec 12) (target : Nat) : State :=
  let d := coreDie core
  let tx := s.nextTx d
  let h := c.packetHead (s.dies[d]).self peer (clusterOf core) x.partId tx target len
  match (s.settleItem core bank n len (if c.kind = 2 then .done else .sent s.now) tx (some peer) [] 0).sendItem core h (c.itemData i.off len) with
  | some t => t
  | none => (if c.circ then s.missCircuit d else s).settleItem core bank n len (.failed 6) tx (some peer) [] 0

/-- An item is performed on this module's memory (R448, R449, R451, R452). -/
def State.goHome (s : State) (core : Fin 256) (bank : Bool) (n : Nat) (c : FCmd) (x : Context) (i : FItem) (len pa : Nat)
    (leaf : Word) : State :=
  let p : Perform := ⟨c.type, c.itemData i.off len, c.atop, c.ty, c.rmode, c.fs[4], c.fs[5]⟩
  let u := s.cachePages (coreDie core) x.partId (c.va + i.off) len
  let r := if s.severed (coreDie core) pa len then (u, ⟨2, 0, []⟩) else u.perform [(pa, len, leaf)] p
  r.1.settleItem core bank n len (if r.2.status = 0 then .done else .failed r.2.status) 0 none r.2.data r.2.flags

/-- The first waiting item of a command is translated and performed or sent; a fault holds it (R447, R455). -/
def State.sendFirst (s : State) (core : Fin 256) (bank : Bool) (n : Nat) (c : FCmd) (x : Context) (i : FItem) : State :=
  let d := coreDie core
  if c.kind = 2 then
    match i.peer with
    | some p => s.goAway core bank n c x i i.len p 0
    | none => s.settleItem core bank n i.len (.failed 3) 0 none [] 0
  else
    let va := c.va + i.off
    let a := s.aim d x c.access va i.len
    match a.2 with
    | .home pa leaf => s.goHome core bank n c x i a.1 pa leaf
    | .away peer target => (s.cacheLeaf d x.partId va).goAway core bank n c x i a.1 peer target
    | .held cause peer =>
      (s.postFault d x.partId va c.access cause).settleItem core bank n a.1 (.held ⟨va, BitVec.ofNat 2 (c.access.kind - 1)⟩) 0 peer [] 0
    | .fail peer => s.settleItem core bank n a.1 (.failed 3) 0 peer [] 0
    | .lost => s.settleItem core bank n a.1 (.failed 2) 0 none [] 0

/-- The translation of an item that cannot be sent yet: a fault holds it with the others of its page (R246, R455). -/
def State.aimOnly (s : State) (core : Fin 256) (bank : Bool) (n : Nat) (c : FCmd) (x : Context) (i : FItem) : State :=
  if c.kind = 2 then s
  else
    let a := s.aim (coreDie core) x c.access (c.va + i.off) i.len
    match a.2 with | .held _ _ => s.sendFirst core bank n c x i | _ => s

/-- The next item of the command at a place of a bank's queue is sent, if it can be (R447) and the task is not cancelled
(R327). -/
def State.fabricSend (s : State) (core : Fin 256) (bank : Bool) (n : Nat) : State :=
  match (s.cores[core]).ctx? bank with
  | some x =>
    match x.fabric[n]? with
    | some c => match c.items.find? FItem.waits with
      | some i => if (s.cores[core]).cancelled bank then s else if x.canSend n then s.sendFirst core bank n c x i else if x.canAim n then s.aimOnly core bank n c x i else s
      | none => s
    | none => s
  | none => s

/-- R447: a fabric item is translated and its packet sent. -/
def execFabricItemSend (core : Fin 256) (bank : Bool) (n : Nat) : State → Out := runEvent fun s => s.fabricSend core bank n

/-! ### The target agent (R441, R442) -/

/-- The bytes that a request covers. -/
def TReq.bytes (r : TReq) : Nat :=
  if r.kind = 0x12 then atomicSize (BitVec.ofNat 5 r.atype) else if r.kind = 0x14 then 8 else r.len

/-- The access of a request at the target (R346). -/
def TReq.access (r : TReq) : Access := if r.kind = 0x10 || r.kind = 0x13 then .read else if r.kind = 0x11 then .write else .atomic

/-- The offset of a request in its window (R429). -/
def TReq.offset (r : TReq) : Nat := wbits r.target 0 52

/-- The virtual address of a request, none where the window does not grant it (R441, R442 steps 1 and 2). -/
def Die.window? (d : Die) (r : TReq) : Option Nat :=
  let n := 256 * r.part.toNat + wbits r.target 56 8
  let base := wordAt d.winbase n
  let ctl := wordAt d.winctl n
  let perm := match r.access with | .read | .fetch => ctl.getLsbD 0 | .write => ctl.getLsbD 1 | .atomic => ctl.getLsbD 2
  if base.getLsbD 63 && decide (r.offset + r.bytes ≤ wbits ctl 4 36 * 65536) && perm then some (wbits base 16 36 * 65536 + r.offset)
  else none

/-- The header fields that an answer to a request is formed from. -/
def TReq.head (r : TReq) : FHead :=
  { dpeer := 0, dloc := r.dloc.toNat, type := r.kind.toNat, speer := r.speer.toNat, sloc := r.sloc.toNat, part := r.part.toNat, cong := 0, cls := r.cls.toNat, circ := false, circid := 0, xtag := 0, tx := r.tx, atop := 0, atype := 0, mode := 0, status := 0, target := r.target.toNat, opnd := 0, cmpv := 0 }

/-- A request is over: it leaves the agent and its response goes back (R442 step 5). -/
def State.respond (s : State) (d : Fin 2) (n : Nat) (r : TReq) (a : Answer) : State :=
  (s.updDie d fun x => { x with target := x.target.eraseIdx n }).reply d r.head 0x18 a.status.toNat a.flags a.data

/-- Whether a request must wait for an earlier one of its peer to the same line (R434). -/
def TReq.follows (r : TReq) (e : TReq) : Bool :=
  e.speer == r.speer && e.part == r.part && wbits e.target 56 8 == wbits r.target 56 8 &&
    decide (e.offset / 128 ≤ (r.offset + r.bytes - 1) / 128 ∧ r.offset / 128 ≤ (e.offset + e.bytes - 1) / 128)

/-- A request is translated and performed (R442 steps 2 to 5). -/
def State.performRequest (s : State) (d : Fin 2) (n : Nat) (r : TReq) (va : Nat) : State :=
  match s.resolve d r.part [] va r.bytes r.access with
  | .fail e => s.respond d n r ⟨if e = 2 then 2 else 3, 0, []⟩
  | .held at_ cause =>
    (s.postFault d r.part at_ r.access cause).updDie d fun x =>
      { x with target := updAt (fun q => { q with held := some ⟨at_, BitVec.ofNat 2 (r.access.kind - 1)⟩ }) n x.target }
  | .pieces ps =>
    let p : Perform := ⟨r.kind.toNat, r.data, r.atop, BitVec.ofNat 5 r.atype, r.mode.setWidth 3, r.opnd, r.cmpv⟩
    let t := (s.cachePages d r.part va r.bytes).perform ps p
    t.1.respond d n r t.2

/-- The request at a place of a target agent is checked, translated and performed (R442): one whose length no packet can
carry, or that is no operation, gets STATUS 4. -/
def State.targetRequest (s : State) (d : Fin 2) (n : Nat) : State :=
  match (s.dies[d]).target[n]? with
  | none => s
  | some r =>
    if r.refused then s.respond d n r ⟨3, 0, []⟩
    else if r.held.isSome || ((s.dies[d]).target.take n).any r.follows then s
    else if 4092 < r.bytes then s.respond d n r ⟨4, 0, []⟩
    else
      match (s.dies[d]).window? r with
      | none => s.respond d n r ⟨3, 0, []⟩
      | some va => s.performRequest d n r va

/-- R442: the target agent performs a request and responds, unless the boot has failed (R415). -/
def execTargetRequest (die : Fin 2) (n : Nat) : State → Out := runEvent fun s => if s.pkg.halted then s else s.targetRequest die n

/-- R442: a hold notice goes to the source of every request that is held on a fault. -/
def execHoldNoticeSend (die : Fin 2) : State → Out :=
  runEvent fun s =>
    ((s.dies[die]).target.filter fun r => r.held.isSome && !r.refused).foldl (fun acc r => acc.reply die r.head 0x1A 0 0 []) s

/-! ### Links (R424-R427, R436, R438) -/

/-- Changes a port. -/
def State.updPort (s : State) (p : Nat) (f : Port → Port) : State :=
  if h : p < 64 then { s with pkg := { s.pkg with ports := s.pkg.ports.set p (f s.pkg.ports[p]) } } else s

/-- A link begins to train again (R425, R426). -/
def Port.retrain (p : Port) : Port := { p with up := false, retrains := p.retrains + 1, fails := 0 }

/-- A flit at the receiver (R425): the next one is taken, one already taken is discarded, and one that fails its CRC, or that
comes after such a one, is sent again; the flit that is awaited, failing its first sending and 16 replays in a row, retrains the
link. -/
def Port.flit (p : Port) (seq : Nat) (good : Bool) : Port :=
  if !p.up then p
  else if good && seq == p.expected then { p with expected := p.expected + 1, fails := 0 }
  else if good && decide (seq < p.expected) then p
  else if good || seq != p.expected then { p with replays := p.replays + 1 }
  else
    let q := { p with replays := p.replays + 1, fails := p.fails + 1 }
    if 17 ≤ q.fails then q.retrain else q

/-- A flit at the receiver of the die-to-die link (R402): one that still fails after 16 replays makes accesses fail until a flit
passes again. -/
def Package.d2dFlit (p : Package) (seq : Nat) (good : Bool) : Package :=
  if good && seq == p.d2dNext then { p with d2dNext := p.d2dNext + 1, d2dFails := 0, d2dLost := false }
  else if good || seq != p.d2dNext then p
  else { p with d2dFails := p.d2dFails + 1, d2dLost := p.d2dLost || decide (17 ≤ p.d2dFails + 1) }

/-- R402, R425: a flit is checked. -/
def execFlitReceive (port : Fin 49) (seq : Nat) (good : Bool) : State → Out :=
  runEvent fun s => if port.val = 48 then { s with pkg := s.pkg.d2dFlit seq good } else s.updPort port.val fun p => p.flit seq good

/-- A lane fails (R426, R438): the link retrains at the next lower width, or goes down with its last lane. -/
def Port.loseLane (p : Port) : Port :=
  if p.width = 0 then p
  else if p.width = 1 then { p with width := 0, up := false, cdeg := true, fails := 0 }
  else { p.retrain with width := p.width - 1, cdeg := true }

/-- R426: a lane fails. -/
def execLaneFailure (port : Fin 48) : State → Out := runEvent fun s => s.updPort port.val Port.loseLane

/-- R426, R438: a link has trained at a width. -/
def execLinkTrained (port : Fin 48) (lanes : BitVec 2) : State → Out :=
  runEvent fun s => s.updPort port.val fun p =>
    if lanes = 0 then p else { p with width := lanes, up := true, cdeg := lanes != 3, fails := 0 }

/-- R436: the router's slot counter aligns to a time code. -/
def execTimeCode (die : Fin 2) (slot : BitVec 8) : State → Out :=
  runEvent fun s => s.updDie die fun x => { x with slotNow := slot, slotAt := s.now }

/-- The frames that wait at an edge port for a class that is no longer paused leave (R424). -/
def State.letGo (s : State) (port : Nat) (paused : BitVec 8) : State :=
  { s with pkg := { s.pkg with egress := s.pkg.egress.map fun (o : OutPkt) =>
      if o.port = port && !paused.getLsbD o.qcls.toNat then { o with waits := false } else o } }

/-- R424: a priority flow control frame pauses or resumes the classes that it names. -/
def execPriorityFlowControl (port : Fin 16) (classes pause : BitVec 8) : State → Out :=
  runEvent fun s =>
    let paused := ((s.pkg.ports[48 + port.val]).paused &&& ~~~classes) ||| (classes &&& pause)
    (s.updPort (48 + port.val) fun p => { p with paused := paused }).letGo (48 + port.val) paused

end Sys2Proof.Machine
end

