-- ==== Sys2Proof/Machine/Batch.lean ====
section
/-! DEFINITION. Table updates (R288, R289, R377): TABLEUPD, the records of a batch and their checks, and CNTCLR (R293). The
byte layouts of the payloads that the spec only names are those of log entry 12. -/
namespace Sys2Proof.Machine

/-! ### Reading a batch (R377) -/

/-- Bytes of the payload that a record of a kind must have, none for a kind that fixes no length. -/
def payloadLength (kind : Nat) : Option Nat :=
  match kind with | 1 => some 64 | 2 => some 32 | 6 | 7 | 8 => some 8 | 9 | 0xFF => some 0 | _ => none

/-- Whether a record's header is well formed: KIND, STAGE, LEN and the reserved bytes (R377). -/
def recordHeadOk (h : List Byte) : Bool :=
  let kind := recNat h 0 1
  let len := recNat h 4 4
  (kind = 0xFF || (1 ≤ kind && kind ≤ 9)) && recNat h 1 1 < 16 && len % 8 = 0 && len ≤ 128 && recZero h 8 8 &&
    (match payloadLength kind with | some n => len = n | none => 8 ≤ len)

/-- Reads the records of a batch from an address on. -/
def State.readRecords (s : State) (d : Fin 2) (who : Asker) (part : BitVec 4) : Nat → Nat → State × Read (List BatchRec)
  | 0, _ => (s, .ok [])
  | n + 1, va =>
    let g := s.grRead d who part va 16
    match g.2 with
    | .held => (g.1, .held)
    | .bad => (g.1, .bad)
    | .bytes h =>
      if !recordHeadOk h then (g.1, .bad)
      else
        let len := recNat h 4 4
        let p := if len = 0 then (g.1, Got.bytes []) else g.1.grRead d who part (va + 16) len
        match p.2 with
        | .held => (p.1, .held)
        | .bad => (p.1, .bad)
        | .bytes bs =>
          let rest := p.1.readRecords d who part n (va + 16 + len)
          match rest.2 with
          | .ok rs => (rest.1, .ok (⟨recNat h 0 1, recNat h 1 1, recNat h 2 2, bs⟩ :: rs))
          | other => (rest.1, other)

/-- Whether the commit mark is the last record and no other (R377). -/
def marksOk (rs : List BatchRec) : Bool :=
  match rs.reverse with
  | r :: more => r.kind = 0xFF && r.index = 0 && more.all fun q => q.kind != 0xFF
  | [] => false

/-- Reads a batch (R377): the pipeline it names and its records, none where it is refused. -/
def State.readBatch (s : State) (d : Fin 2) (who : Asker) (part : BitVec 4) (va : Nat) : State × Read (Fin 8 × List BatchRec) :=
  let g := s.grRead d who part va 16
  match g.2 with
  | .held => (g.1, .held)
  | .bad => (g.1, .bad)
  | .bytes h =>
    let n := recNat h 0 4
    if hc : recNat h 4 1 < 8 then
      if n = 0 || 65535 < n || !recZero h 5 11 then (g.1, .bad)
      else
        let r := g.1.readRecords d who part n (va + 16)
        match r.2 with
        | .ok rs => (r.1, if marksOk rs then .ok (⟨recNat h 4 1, hc⟩, rs) else .bad)
        | .held => (r.1, .held)
        | .bad => (r.1, .bad)
    else (g.1, .bad)

/-- TABLEUPD (R316, R377): the batch is read and waits for its pipeline; one that cannot be read or is malformed is refused
with STATUS 1. -/
def tableupdFront (d : Fin 2) (c : QCmd) (s : State) : State :=
  let part := (s.queue d c.queue).part
  let r := s.readBatch d (.front c.queue) part (c.get 8 8)
  match r.2 with
  | .held => r.1
  | .bad => (r.1.finishCmd d c 4 1).fetch d c.queue
  | .ok (cl, rs) =>
    let home : Fin 16 := ⟨8 * d.val + cl.val, by omega⟩
    ((r.1.updCluster home fun k => { k with batches := k.batches ++ [⟨part, rs, c.queue, c.idx⟩] }).leaveFront d c).fetch d c.queue

/-- R377: a TABLEUPD at the front. -/
def execTableupd (die : Fin 2) (queue : Fin 64) : State → Out := runEvent fun s => s.atFront die queue 8 (tableupdFront die)

/-! ### Records (R271, R272, R274, R286, R377) -/

/-- The table kind of a code (log entry 12). -/
def kindOf (n : Nat) : TableKind := match n % 4 with | 0 => .exact | 1 => .longest | 2 => .range | _ => .direct

/-- The longest key of a kind in bytes (R271). -/
def TableKind.limit : TableKind → Nat
  | .exact => 32 | .longest => 16 | .range => 8 | .direct => 2

/-- A table descriptor's 32 bytes (log entry 12): VALID and KIND, four slices of offset and length, the default program and
the capacity. -/
def tableOf (part : BitVec 4) (index : Fin 4) (bs : List Byte) : STable :=
  { index := index, valid := (recNat bs 0 1).testBit 0, kind := kindOf (recBits bs 0 1 2), part := part,
    slices := ((List.range 4).map fun j => (recNat bs (1 + 2 * j) 1, recNat bs (2 + 2 * j) 1)).filter fun p => p.2 != 0,
    cap := recNat bs 12 4, deflt := recNat bs 10 2, entries := [] }

/-- The limits of a descriptor (R271). -/
def STable.ok (t : STable) : Bool :=
  t.slices.all (fun p => p.2 ≤ 16 && decide (p.1 + p.2 ≤ 128)) && t.bits ≤ 8 * t.kind.limit && t.deflt ≤ 1023

/-- The table of a stage at an index. -/
def Stage.table? (st : Stage) (n : Nat) : Option STable := st.tables.find? fun t => t.index.val == n

/-- Replaces the table at an index. -/
def Stage.setTable (st : Stage) (t : STable) : Stage := { st with tables := t :: st.tables.filter fun u => u.index != t.index }

/-- An entry of a table from a record's payload: key, prefix length or upper bound, program index, action data (log entry
12), none where it is malformed. -/
def entryOf (t : STable) (bs : List Byte) : Option SEntry :=
  let n := t.bits / 8
  let at_ := match t.kind with | .longest => n + 1 | .range => 2 * n | _ => n
  let total := (at_ + 2 + 7) / 8 * 8 + 8
  let key := beNat (bs.take n)
  let plen := recNat bs n 1
  let hi := beNat ((bs.drop n).take n)
  let prog := recNat bs at_ 2
  if bs.length != total || 1023 ≤ prog then none
  else
    match t.kind with
    | .exact => some ⟨key, 0, 0, prog, word (recNat bs (total - 8) 8)⟩
    | .longest => if 8 * n < plen then none else some ⟨key, plen, 0, prog, word (recNat bs (total - 8) 8)⟩
    | .range => some ⟨key, 0, hi, prog, word (recNat bs (total - 8) 8)⟩
    | .direct => if t.cap ≤ key then none else some ⟨key, 0, 0, prog, word (recNat bs (total - 8) 8)⟩

/-- Whether two entries of a table have one key, so that the later replaces the earlier (R272). -/
def STable.sameKey (t : STable) (a b : SEntry) : Bool :=
  match t.kind with
  | .longest => a.plen == b.plen && a.key / 2 ^ (t.bits - a.plen) == b.key / 2 ^ (t.bits - b.plen)
  | .range => a.key == b.key && a.hi == b.hi
  | _ => a.key == b.key

/-- An entry inserted behind the others, or replaced in its place (which index a range entry gets: log entry 84); a table that is full takes no more (R271), and an entry of a longest-prefix table
whose prefix it holds already is refused (R272). -/
def STable.insert (t : STable) (e : SEntry) : Option STable :=
  if t.kind = .longest && t.entries.any (t.sameKey e) then none
  else if t.entries.any (t.sameKey e) then some { t with entries := t.entries.map fun f => if t.sameKey e f then e else f }
  else if t.entries.length < t.cap then some { t with entries := t.entries ++ [e] }
  else none

/-- The words of a program. -/
def programWords (bs : List Byte) : List Word := (List.range (bs.length / 8)).map fun j => word (recNat bs (8 * j) 8)

/-- Whether every word of a program is defined, in a tenant header or in the system profile (R275). -/
def programOk (sys : Bool) (ws : List Word) : Bool :=
  1 ≤ ws.length && ws.length ≤ 6 && ws.all fun w => match decodePrim w with | .ok (.actMemop _) => sys | .ok _ => true | .error _ => false

/-- Whether a program slot of the stage is another partition's (R274, R288). -/
def Stage.foreignSlot (st : Stage) (part : BitVec 4) (slot : Nat) : Bool := st.programs.any fun p => p.slot == slot && p.part != part

/-- The bytes of table room that a partition's tables, programs and regions take in a stage (R271, R377, log entry 34): an entry as
its record holds it, six words a program, one a cell and two a counter pair. -/
def Stage.room (st : Stage) (part : BitVec 4) : Nat :=
  let tables := (st.tables.filter fun t => t.valid && t.part == part).map fun t => t.cap * ((t.bits / 8 * (if t.kind = .range then 2 else 1) + 10) / 8 * 8 + 8)
  tables.sum + 48 * (st.programs.filter fun p => p.part == part).length + 8 * (st.region part).cells + 16 * (st.region part).pairs

/-- Sets the region of a partition in a stage. -/
def Stage.setRegion (st : Stage) (r : Region) : Stage := { st with regions := r :: st.regions.filter fun q => q.part != r.part }

/-- One record's change of its stage (R377), none where it breaks a rule; for the system profile the partition is 0 and its programs
may hold `act.memop`. A deletion takes every entry with its key bytes, whatever its prefix length or upper bound (log entry 84). -/
def Stage.applyRec (st : Stage) (sys : Bool) (part : BitVec 4) (r : BatchRec) : Option Stage :=
  match r.kind with
  | 2 =>
    if h : r.index < 4 then
      let t := tableOf part ⟨r.index, h⟩ r.payload
      let foreign := match st.table? r.index with | some u => u.valid && u.part != part | none => false
      if t.ok && !foreign && !st.foreignSlot part t.deflt then some (st.setTable t) else none
    else none
  | 3 =>
    match st.table? r.index with
    | some t =>
      if t.part != part then none
      else (((entryOf t r.payload).filter fun e => !st.foreignSlot part e.prog).bind t.insert).map st.setTable
    | none => none
  | 4 =>
    match st.table? r.index with
    | some t =>
      let n := t.bits / 8
      if t.part != part || r.payload.length != (n + 7) / 8 * 8 then none
      else some (st.setTable { t with entries := t.entries.filter fun e => e.key != beNat (r.payload.take n) })
    | none => none
  | 5 =>
    let ws := programWords r.payload
    if 1023 ≤ r.index || !programOk sys ws || st.foreignSlot part r.index then none
    else some { st with programs := ⟨part, r.index, ws⟩ :: st.programs.filter fun p => p.slot != r.index }
  | 6 =>
    if r.index = 0 then some (st.setRegion { st.region part with cells := recNat r.payload 0 4, pairs := recNat r.payload 4 4 }) else none
  | 7 => if r.index = 0 then some (st.setRegion { st.region part with seed := BitVec.ofNat 32 (recNat r.payload 0 4) }) else none
  | 9 =>
    if r.index = 0 then some { st with cells := st.cells.filter fun c => c.part != part }
    else if r.index = 1 then some { st with pairs := st.pairs.filter fun c => c.part != part }
    else none
  | _ => none

/-- The physical address of a signal as a signal table installs it (R286), none where it has none. -/
def State.signalHome (s : State) (d : Fin 2) (part : BitVec 4) (va : Nat) : Option Nat :=
  match s.resolve d part [] va 8 .write with | .pieces ((pa, _, _) :: _) => some pa | _ => none

/-- The bytes of table room that a partition has in a stage (R377): its table tiles of the stage's core (R200, R271). -/
def State.tableRoom (s : State) (cl : Fin 16) (st : Fin 16) (part : BitVec 4) : Nat :=
  24576 * ((List.range 64).filter fun t => ((s.cores[coreOf cl st]).tile t).owner == 7 && ((s.cores[coreOf cl st]).tile t).part == part).length

/-- One record applied to a pipeline (R377); a change of its stage must leave room for what the partition has there. A signal whose
address does not translate leaves its entry not valid (R286, log entry 85). -/
def State.applyRec (s : State) (d : Fin 2) (cl : Fin 16) (part : BitVec 4) (k : Cluster) (r : BatchRec) : Option Cluster :=
  if r.kind = 0xFF then some k
  else if r.kind = 1 then
    if r.index < 64 && (k.allot[part.toFin]).getLsbD r.index then
      some { k with parser := (r.index, BitVec.ofNat 512 (leNat r.payload)) :: k.parser.filter fun p => p.1 != r.index }
    else none
  else if r.kind = 8 then
    let va := recNat r.payload 0 8
    if 256 ≤ r.index || va % 8 != 0 then none
    else
      let rest := k.signals.filter fun e => !(e.part == part && e.idx == r.index)
      if va = 0 then some { k with signals := rest }
      else match s.signalHome d part va with
        | some pa => some { k with signals := ⟨part, r.index, pa⟩ :: rest }
        | none => some { k with signals := rest }
  else if h : r.stage < 16 then
    (((k.stages[r.stage]).applyRec false part r).filter fun st =>
      decide (st.room part ≤ (k.stages[r.stage]).room part) || decide (st.room part ≤ s.tableRoom cl ⟨r.stage, h⟩ part)).map
      fun st => { k with stages := k.stages.set r.stage st }
  else none

/-- Whether a record inserts a key that an earlier record of its batch has put into the same table, with no deletion of it and no new
descriptor between them: the duplicate keys that the loader refuses (R272). -/
def duplicateKey (n : Nat) (earlier : List BatchRec) (r : BatchRec) : Bool :=
  r.kind = 3 && match earlier.reverse.find? fun e => e.stage = r.stage && e.index = r.index &&
      (e.kind = 2 || ((e.kind = 3 || e.kind = 4) && e.payload.take n == r.payload.take n)) with
    | some e => e.kind = 3
    | none => false

/-- The bytes of a key of a record's table, none where that is no table of exact keys, the only kind whose duplicate keys are
refused (R272). -/
def Cluster.keyBytes (k : Cluster) (r : BatchRec) : Option Nat :=
  if h : r.stage < 16 then ((k.stages[r.stage]).table? r.index).bind fun t => if t.kind = .exact then some (t.bits / 8) else none else none

/-- The records of a batch applied in their order, none where one breaks a rule (R377). -/
def State.applyBatch (s : State) (d : Fin 2) (cl : Fin 16) (part : BitVec 4) : List BatchRec → List BatchRec → Cluster → Option Cluster
  | _, [], k => some k
  | earlier, r :: rs, k =>
    if (k.keyBytes r).any fun n => duplicateKey n earlier r then none
    else (s.applyRec d cl part k r).bind fun x => s.applyBatch d cl part (earlier ++ [r]) rs x

/-- Whether no tenant header of a pipeline is before its disposition, so that a change lies between two headers at parser
entry (R289). -/
def Cluster.quiet (k : Cluster) : Bool := k.headers.all fun p => p.sys || p.fate != .flowing

/-- The oldest batch of a pipeline takes effect whole, or is refused whole (R289, R377). -/
def State.batchApply (s : State) (cl : Fin 16) : State :=
  let d := clusterDie cl
  let k := s.clusters[cl]
  match k.batches with
  | [] => s
  | b :: bs =>
    if !k.quiet then s
    else
      let done (t : State) (st status : Nat) : State :=
        match (t.granger d).cmd? b.queue b.cmd with | some c => t.finishCmd d c st status | none => t
      match s.applyBatch d cl b.part [] b.recs { k with batches := bs } with
      | some k' => (done (s.updCluster cl fun _ => k') 3 0).fetch d b.queue
      | none => (done (s.updCluster cl fun x => { x with batches := bs }) 4 1).fetch d b.queue

/-- R289: a batch takes effect between two headers at parser entry. -/
def execBatchApply (cluster : Fin 16) : State → Out := runEvent fun s => s.batchApply cluster

/-! ### CNTCLR (R293) -/

/-- The counters that a write of CNTCLR selects are cleared. -/
def Cluster.clearCounters (k : Cluster) (value : Word) : Cluster :=
  { k with counters := Vector.ofFn fun n => if value.getLsbD n.val then 0 else k.counters[n] }

/-- R293: a write of CNTCLR. -/
def execCntclrWrite (cluster : Fin 16) (value : BitVec 64) : State → Out :=
  runLoaded fun s => s.updCluster cluster fun k => k.clearCounters value

end Sys2Proof.Machine
end

