-- ==== Sys2Proof/Machine/CoreEvents.lean ====
section
/-! DEFINITION. The events of one core that need no other unit (spec/03, 07, 08, 11): landings, granary accesses, the entry
of a trap, instruction-store fills, waking quarters, switches of banks, and the completion of a barrier. -/
namespace Sys2Proof.Machine

/-- R95: the fixed-latency results that are due land, and their flags are set. -/
def execResultLand (core : Fin 256) : State → Out := runEvent fun s => s.updCore core Core.landDue

/-- R98: the granary accesses of the bundle issued two bc ago take place, reads before writes; a freeze keeps them back
(R102, R205). -/
def execGranaryAccess (core : Fin 256) : State → Out :=
  runEvent fun s => s.updCore core fun k => if k.freeze = 0 && !k.wakeFreeze then k.granaryAccess else k

/-- A bank whose trap waits for the drain enters its handler once it has drained (R237). -/
def Context.trapReady (x : Context) : Option Drain :=
  match x.status with
  | .draining (.trap c p v) => if x.drained then some (.trap c p v) else none
  | _ => none

/-- R237: after the drain, TEPC, TCAUSE and TVAL are written and the handler begins, or the task fails. -/
def execTrapEntry (core : Fin 256) : State → Out :=
  runEvent fun s => s.updCore core fun k =>
    k.modCtx k.bank fun x => match x.trapReady with | some d => x.afterDrain d | none => x

/-- R230: the row fill of a core ends, or its page faults. -/
def execIstoreFill (core : Fin 256) : State → Out := runEvent fun s => s.istoreFill core

/-- A waking quarter is awake: every word of it is zero with valid check bits (R204). -/
def Core.wakeQuarter (k : Core) (q : Fin 4) : Core :=
  if k.quarters[q] = .waking then
    { k with quarters := k.quarters.set q .awake, granary := zeroCells k.granary (393216 * q.val) 393216,
             badWords := k.badWords.filter fun w => w / 24576 != q.val }
  else k

/-- R204: a waking quarter is awake. -/
def execQuarterWake (core : Fin 256) (quarter : Fin 4) : State → Out :=
  runEvent fun s => s.updCore core fun k => k.wakeQuarter quarter

/-- R307: the last arrival has completed the generation. -/
def execBarGenerationComplete (cluster : Fin 16) (ctx : Fin 4) : State → Out :=
  runEvent fun s => s.updCluster cluster fun k =>
    k.modBarrier ctx fun b => if b.full && !b.members.isEmpty then b.complete else b

end Sys2Proof.Machine
end

