-- ==== Sys2Proof/Machine/Scalar.lean ====
section
/-! DEFINITION. The scalar words of spec/04_scalar_and_control.md: integer, logic and bit-field arithmetic, scalar floating
point, tails, staging, control registers, granary loads and stores, branches and `loop`. The encodings and latencies
are those of R81 to R85. -/
namespace Sys2Proof.Machine

/-! ### Register form (R112, R113, R116) -/

/-- R112: a + b. -/
def execAdd (g : BitVec 4) (rd rs rt : BitVec 5) : State → Out :=
  scalarBin g rd rs rt 1 fun a b => a + b

/-- R112: a − b. -/
def execSub (g : BitVec 4) (rd rs rt : BitVec 5) : State → Out :=
  scalarBin g rd rs rt 1 fun a b => a - b

/-- R112: bitwise AND. -/
def execAnd (g : BitVec 4) (rd rs rt : BitVec 5) : State → Out :=
  scalarBin g rd rs rt 1 fun a b => a &&& b

/-- R112: bitwise OR. -/
def execOr (g : BitVec 4) (rd rs rt : BitVec 5) : State → Out :=
  scalarBin g rd rs rt 1 fun a b => a ||| b

/-- R112: bitwise exclusive OR. -/
def execXor (g : BitVec 4) (rd rs rt : BitVec 5) : State → Out :=
  scalarBin g rd rs rt 1 fun a b => a ^^^ b

/-- R112: a AND NOT b. -/
def execAndn (g : BitVec 4) (rd rs rt : BitVec 5) : State → Out :=
  scalarBin g rd rs rt 1 fun a b => a &&& ~~~b

/-- R112: a shifted left by b[5:0]. -/
def execSll (g : BitVec 4) (rd rs rt : BitVec 5) : State → Out :=
  scalarBin g rd rs rt 1 fun a b => shiftWord 0 a (shiftAmt b)

/-- R112: a shifted right by b[5:0], zeros in. -/
def execSrl (g : BitVec 4) (rd rs rt : BitVec 5) : State → Out :=
  scalarBin g rd rs rt 1 fun a b => shiftWord 1 a (shiftAmt b)

/-- R112: a shifted right by b[5:0], sign in. -/
def execSra (g : BitVec 4) (rd rs rt : BitVec 5) : State → Out :=
  scalarBin g rd rs rt 1 fun a b => shiftWord 2 a (shiftAmt b)

/-- R112: a rotated right by b[5:0]. -/
def execRor (g : BitVec 4) (rd rs rt : BitVec 5) : State → Out :=
  scalarBin g rd rs rt 1 fun a b => shiftWord 3 a (shiftAmt b)

/-- R112: 1 if i(a) < i(b), else 0. -/
def execSlt (g : BitVec 4) (rd rs rt : BitVec 5) : State → Out :=
  scalarBin g rd rs rt 1 fun a b => flagWord (a.slt b)

/-- R112: 1 if u(a) < u(b), else 0. -/
def execSltn (g : BitVec 4) (rd rs rt : BitVec 5) : State → Out :=
  scalarBin g rd rs rt 1 fun a b => flagWord (a.ult b)

/-- R112: 1 if a = b, else 0. -/
def execSeq (g : BitVec 4) (rd rs rt : BitVec 5) : State → Out :=
  scalarBin g rd rs rt 1 fun a b => flagWord (a == b)

/-- R112: 1 if a ≠ b, else 0. -/
def execSne (g : BitVec 4) (rd rs rt : BitVec 5) : State → Out :=
  scalarBin g rd rs rt 1 fun a b => flagWord (a != b)

/-- R112: the smaller of i(a) and i(b). -/
def execMin (g : BitVec 4) (rd rs rt : BitVec 5) : State → Out :=
  scalarBin g rd rs rt 1 fun a b => if a.slt b then a else b

/-- R112: the larger of i(a) and i(b). -/
def execMax (g : BitVec 4) (rd rs rt : BitVec 5) : State → Out :=
  scalarBin g rd rs rt 1 fun a b => if a.slt b then b else a

/-- R112: the smaller of u(a) and u(b). -/
def execMinn (g : BitVec 4) (rd rs rt : BitVec 5) : State → Out :=
  scalarBin g rd rs rt 1 fun a b => if a.ult b then a else b

/-- R112: the larger of u(a) and u(b). -/
def execMaxn (g : BitVec 4) (rd rs rt : BitVec 5) : State → Out :=
  scalarBin g rd rs rt 1 fun a b => if a.ult b then b else a

/-- R112: the low 64 bits of a × b. -/
def execMul (g : BitVec 4) (rd rs rt : BitVec 5) : State → Out :=
  scalarBin g rd rs rt 3 fun a b => a * b

/-- R112: bits 127:64 of i(a) × i(b). -/
def execMulh (g : BitVec 4) (rd rs rt : BitVec 5) : State → Out :=
  scalarBin g rd rs rt 3 fun a b => mulHigh a b

/-- R112: bits 127:64 of u(a) × u(b). -/
def execMulhn (g : BitVec 4) (rd rs rt : BitVec 5) : State → Out :=
  scalarBin g rd rs rt 3 fun a b => mulHighN a b

/-- R112, R113: the signed quotient, truncated towards zero. -/
def execDiv (g : BitVec 4) (rd rs rt : BitVec 5) : State → Out :=
  scalarBin g rd rs rt 16 fun a b => quotS a b

/-- R112, R113: the unsigned quotient. -/
def execDivn (g : BitVec 4) (rd rs rt : BitVec 5) : State → Out :=
  scalarBin g rd rs rt 16 fun a b => quotN a b

/-- R112, R113: the signed remainder, with the sign of a or 0. -/
def execRem (g : BitVec 4) (rd rs rt : BitVec 5) : State → Out :=
  scalarBin g rd rs rt 16 fun a b => a - b * quotS a b

/-- R112, R113: the unsigned remainder. -/
def execRemn (g : BitVec 4) (rd rs rt : BitVec 5) : State → Out :=
  scalarBin g rd rs rt 16 fun a b => a - b * quotN a b

/-- R116: bit field extract, off in s[rt][7:0] and wid in s[rt][15:8]. -/
def execBfxr (g : BitVec 4) (rd rs rt : BitVec 5) : State → Out :=
  scalarBin g rd rs rt 1 fun a b => bfExtract a (wbits b 0 8) (wbits b 8 8)

/-- R116: bit field insert, off in s[rt][7:0] and wid in s[rt][15:8]; rd is a source. -/
def execBfir (g : BitVec 4) (rd rs rt : BitVec 5) : State → Out :=
  bfInsertWord (.scalar g) rd rs [rt] fun x => (wbits (x.sdata rt) 0 8, wbits (x.sdata rt) 8 8)

/-- R112: the number of 1 bits in a. -/
def execPopc (g : BitVec 4) (rd rs : BitVec 5) : State → Out :=
  scalarUn (.scalar g) rd rs 1 fun a => word (popCount a)

/-- R112: the number of leading 0 bits in a; 64 for 0. -/
def execClz (g : BitVec 4) (rd rs : BitVec 5) : State → Out :=
  scalarUn (.scalar g) rd rs 1 fun a => word (leadingZeros a)

/-! ### Immediate and upper forms (R114, R116, R117) -/

/-- R114: s[rs] + sext(imm12). -/
def execAddi (rd rs : BitVec 5) (imm : BitVec 12) : State → Out :=
  scalarUn .always rd rs 1 fun a => a + sext64 imm

/-- R114: s[rs] AND sext(imm12). -/
def execAndi (rd rs : BitVec 5) (imm : BitVec 12) : State → Out :=
  scalarUn .always rd rs 1 fun a => a &&& sext64 imm

/-- R114: s[rs] OR sext(imm12). -/
def execOri (rd rs : BitVec 5) (imm : BitVec 12) : State → Out :=
  scalarUn .always rd rs 1 fun a => a ||| sext64 imm

/-- R114: s[rs] exclusive OR sext(imm12). -/
def execXori (rd rs : BitVec 5) (imm : BitVec 12) : State → Out :=
  scalarUn .always rd rs 1 fun a => a ^^^ sext64 imm

/-- R114: 1 if i(s[rs]) < sext(imm12), else 0. -/
def execSlti (rd rs : BitVec 5) (imm : BitVec 12) : State → Out :=
  scalarUn .always rd rs 1 fun a => flagWord (a.slt (sext64 imm))

/-- R114: 1 if u(s[rs]) < u(sext(imm12)), else 0. -/
def execSltni (rd rs : BitVec 5) (imm : BitVec 12) : State → Out :=
  scalarUn .always rd rs 1 fun a => flagWord (a.ult (sext64 imm))

/-- R114: s[rs] shifted by the amount, left. -/
def execSlli (rd rs : BitVec 5) (amt : BitVec 6) : State → Out :=
  scalarUn .always rd rs 1 fun a => shiftWord 0 a amt.toNat

/-- R114: s[rs] shifted by the amount, right, zeros in. -/
def execSrli (rd rs : BitVec 5) (amt : BitVec 6) : State → Out :=
  scalarUn .always rd rs 1 fun a => shiftWord 1 a amt.toNat

/-- R114: s[rs] shifted by the amount, right, sign in. -/
def execSrai (rd rs : BitVec 5) (amt : BitVec 6) : State → Out :=
  scalarUn .always rd rs 1 fun a => shiftWord 2 a amt.toNat

/-- R114: s[rs] shifted by the amount, rotated right. -/
def execRori (rd rs : BitVec 5) (amt : BitVec 6) : State → Out :=
  scalarUn .always rd rs 1 fun a => shiftWord 3 a amt.toNat

/-- R116: bit field extract with immediate off and wid. -/
def execBfx (rd rs : BitVec 5) (wid off : BitVec 6) : State → Out :=
  scalarUn .always rd rs 1 fun a => bfExtract a off.toNat wid.toNat

/-- R116: bit field insert with immediate off and wid; rd is a source. -/
def execBfi (rd rs : BitVec 5) (wid off : BitVec 6) : State → Out :=
  bfInsertWord .always rd rs [] fun _ => (off.toNat, wid.toNat)

/-- R117: sext(imm20) × 2^12. -/
def execLui (rd : BitVec 5) (imm : BitVec 20) : State → Out :=
  scalarWord .always [] rd 1 fun _ => (intVal (sext64 imm <<< 12), 0)

/-- R117: the bundle's address plus sext(imm20) × 2^12. -/
def execAupc (rd : BitVec 5) (imm : BitVec 20) : State → Out :=
  scalarWord .always [] rd 1 fun x => (intVal (x.pc + (sext64 imm <<< 12)), 0)

/-! ### Scalar floating point (R118, R119) -/

/-- R118: carry(x + y, T). -/
def execFadd (g : BitVec 4) (rd rs rt : BitVec 5) (fmt : BitVec 2) : State → Out :=
  scalarFloat g rd [rs, rt] 4 fun x => carryOp (scalarFmt fmt) ((x.fval (scalarFmt fmt) rs).add (x.fval (scalarFmt fmt) rt))

/-- R118: carry(x − y, T). -/
def execFsub (g : BitVec 4) (rd rs rt : BitVec 5) (fmt : BitVec 2) : State → Out :=
  scalarFloat g rd [rs, rt] 4 fun x => carryOp (scalarFmt fmt) ((x.fval (scalarFmt fmt) rs).sub (x.fval (scalarFmt fmt) rt))

/-- R118: carry(x × y, T). -/
def execFmul (g : BitVec 4) (rd rs rt : BitVec 5) (fmt : BitVec 2) : State → Out :=
  scalarFloat g rd [rs, rt] 4 fun x => carryOp (scalarFmt fmt) ((x.fval (scalarFmt fmt) rs).mul (x.fval (scalarFmt fmt) rt))

/-- R118: carry(z + x × y, T), one rounding; rd is a source. -/
def execFfma (g : BitVec 4) (rd rs rt : BitVec 5) (fmt : BitVec 2) : State → Out :=
  scalarFloat g rd [rd, rs, rt] 4 fun x =>
    carryOp (scalarFmt fmt)
      ((x.fval (scalarFmt fmt) rd).fma (x.fval (scalarFmt fmt) rs) (x.fval (scalarFmt fmt) rt))

/-- R119: the smaller operand, unchanged with its tail. -/
def execFmin (g : BitVec 4) (rd rs rt : BitVec 5) (fmt : BitVec 2) : State → Out :=
  scalarFloat g rd [rs, rt] 2 fun x => (fminmaxElem (scalarFmt fmt) false (x.elem (scalarFmt fmt) rs) (x.elem (scalarFmt fmt) rt), 0)

/-- R119: the larger operand, unchanged with its tail. -/
def execFmax (g : BitVec 4) (rd rs rt : BitVec 5) (fmt : BitVec 2) : State → Out :=
  scalarFloat g rd [rs, rt] 2 fun x => (fminmaxElem (scalarFmt fmt) true (x.elem (scalarFmt fmt) rs) (x.elem (scalarFmt fmt) rt), 0)

/-- R118: carry(x / y, T). -/
def execFdiv (g : BitVec 4) (rd rs rt : BitVec 5) (fmt : BitVec 2) : State → Out :=
  scalarFloat g rd [rs, rt] 8 fun x => fdivElem (scalarFmt fmt) (x.fval (scalarFmt fmt) rs) (x.fval (scalarFmt fmt) rt)

/-- R118: carry(sqrt(x), T). -/
def execFsqrt (g : BitVec 4) (rd rs : BitVec 5) (fmt : BitVec 2) : State → Out :=
  scalarFloat g rd [rs] 8 fun x => fsqrtElem (scalarFmt fmt) (x.fval (scalarFmt fmt) rs)

/-- R119: 1 if x = y, else 0; 0 with a NaN. -/
def execFceq (g : BitVec 4) (rd rs rt : BitVec 5) (fmt : BitVec 2) : State → Out :=
  scalarWord (.scalar g) [rs, rt] rd 2 fun x =>
    (intVal (flagWord ((x.fval (scalarFmt fmt) rs).feq (x.fval (scalarFmt fmt) rt))), 0)

/-- R119: 1 if x < y, else 0; 0 with a NaN. -/
def execFclt (g : BitVec 4) (rd rs rt : BitVec 5) (fmt : BitVec 2) : State → Out :=
  scalarWord (.scalar g) [rs, rt] rd 2 fun x =>
    (intVal (flagWord ((x.fval (scalarFmt fmt) rs).flt (x.fval (scalarFmt fmt) rt))), 0)

/-- R119: 1 if x ≤ y, else 0; 0 with a NaN. -/
def execFcle (g : BitVec 4) (rd rs rt : BitVec 5) (fmt : BitVec 2) : State → Out :=
  scalarWord (.scalar g) [rs, rt] rd 2 fun x =>
    (intVal (flagWord ((x.fval (scalarFmt fmt) rs).fle (x.fval (scalarFmt fmt) rt))), 0)

/-- R120: conversion by the selector of R82. -/
def execFcvt (g : BitVec 4) (rd rs sel : BitVec 5) : State → Out :=
  runWord ⟨.scalar g, [.s rs], [(.s rd, 3)]⟩ (fun _ _ x => if 12 ≤ sel.toNat then modeCheck x else .ok)
    fun _ x s =>
      let r := scalarConvert sel.toNat x.rmode (x.sget rs)
      s.sresult 3 rd r.1 r.2

/-! ### Tails and staging (R121, R122) -/

/-- R121: data and tail of rs. -/
def execFmov (g : BitVec 4) (rd rs : BitVec 5) : State → Out :=
  scalarWord (.scalar g) [rs] rd 1 fun x => (x.sget rs, 0)

/-- R121: the tail of rs as an integer. -/
def execGtail (g : BitVec 4) (rd rs : BitVec 5) : State → Out :=
  scalarWord (.scalar g) [rs] rd 1 fun x => (intVal (zext64 (x.sget rs).tail), 0)

/-- R121: the data rd held at issue, with the tail s[rs][1:0]; a whole-register result. -/
def execStail (g : BitVec 4) (rd rs : BitVec 5) : State → Out :=
  scalarWord (.scalar g) [rd, rs] rd 1 fun x => (⟨x.sdata rd, (x.sdata rs).setWidth 2⟩, 0)

/-- R122: a matrix staging register. -/
def execStageMs (g : BitVec 4) (num : BitVec 3) (rs : BitVec 5) : State → Out := stageWord g 0 num rs

/-- R122: a Wain staging register. -/
def execStageWs (g : BitVec 4) (num : BitVec 3) (rs : BitVec 5) : State → Out := stageWord g 1 num rs

/-- R122: a fabric staging register. -/
def execStageFs (g : BitVec 4) (num : BitVec 3) (rs : BitVec 5) : State → Out := stageWord g 2 num rs

/-! ### Control registers (R123) -/

/-- R123: the control register's value in force at issue, with tail 00. -/
def execCrd (rd : BitVec 5) (cidx : BitVec 12) : State → Out :=
  runWord ⟨.always, [], [(.s rd, 1)]⟩ noCheck fun k x s =>
    s.sresult 1 rd (intVal (controlRead s.cur k x cidx)) 0

/-- R123: written from the next bundle in issue order. -/
def execCwr (rs : BitVec 5) (cidx : BitVec 12) : State → Out :=
  runWord ⟨.always, [.s rs], []⟩ noCheck fun _ x s => s.defer (.creg cidx (x.sdata rs))

/-! ### Granary loads and stores (R124, R125) -/

/-- R125: sz bytes, sign- or zero-extended. -/
def execLd (rd rs : BitVec 5) (ty : BitVec 3) (off : BitVec 9) : State → Out :=
  runWord ⟨.always, [.s rs], [(.s rd, 4)]⟩
    (fun _ k x => scalarAccess k (scalarAddr (x.sdata rs) off (ldSize ty)) (ldSize ty))
    fun _ x s => s.load 4 (scalarAddr (x.sdata rs) off (ldSize ty)).toNat (ldSize ty) (.scalar rd (ldSigned ty)) (.s rd)

/-- R125: the low sz bytes of s[rd]; rd is a source. -/
def execSt (rd rs : BitVec 5) (ty : BitVec 3) (off : BitVec 9) : State → Out :=
  runWord ⟨.always, [.s rs, .s rd], []⟩
    (fun _ k x => scalarAccess k (scalarAddr (x.sdata rs) off (stSize ty)) (stSize ty))
    fun _ x s => s.store (scalarAddr (x.sdata rs) off (stSize ty)).toNat (bvBytes (x.sdata rd) (stSize ty)) 0

/-- R125: final(carried value, T, RMODE); the illegal-mode check comes first (R124). -/
def execStf (rd rs : BitVec 5) (ty : BitVec 3) (off : BitVec 9) : State → Out :=
  runWord ⟨.always, [.s rs, .s rd], []⟩
    (fun _ k x => (modeCheck x).andThen
      (scalarAccess k (scalarAddr (x.sdata rs) off (stfSize ty)) (stfSize ty)))
    fun _ x s =>
      let r := final (floatFmt ty) (storeMode x).single (x.fval (floatFmt ty) rd)
      s.store (scalarAddr (x.sdata rs) off (stfSize ty)).toNat (leBytes (stfSize ty) r.1) r.2

/-! ### Transfers of control (R127-R129) -/

/-- R127: always taken. -/
def execBr (g : BitVec 4) (imm : BitVec 17) : State → Out :=
  branchWord g [] noCheck fun x => (true, x.pc + sext64 imm * 4)

/-- R127: taken when s[rs] = 0. -/
def execBz (g : BitVec 4) (rs : BitVec 5) (imm : BitVec 12) : State → Out :=
  branchWord g [.s rs] noCheck fun x => (x.sdata rs == 0, x.pc + sext64 imm * 4)

/-- R127: taken when s[rs] ≠ 0. -/
def execBnz (g : BitVec 4) (rs : BitVec 5) (imm : BitVec 12) : State → Out :=
  branchWord g [.s rs] noCheck fun x => (x.sdata rs != 0, x.pc + sext64 imm * 4)

/-- R127: taken when the bit of s[rs] is 1. -/
def execBbs (g : BitVec 4) (rs : BitVec 5) (bitn imm : BitVec 6) : State → Out :=
  branchWord g [.s rs] noCheck fun x => ((x.sdata rs).getLsbD bitn.toNat, x.pc + sext64 imm * 4)

/-- R127: taken when the bit of s[rs] is 0. -/
def execBbc (g : BitVec 4) (rs : BitVec 5) (bitn imm : BitVec 6) : State → Out :=
  branchWord g [.s rs] noCheck fun x => (!(x.sdata rs).getLsbD bitn.toNat, x.pc + sext64 imm * 4)

/-- R127: always taken; s1 receives the address after the delay bundle. -/
def execCall (g : BitVec 4) (imm : BitVec 17) : State → Out :=
  runWord ⟨.scalar g, [], [(.s 1, 1)]⟩ noCheck fun _ x s =>
    (s.branch true (x.pc + sext64 imm * 4)).sresult 1 1 (intVal s.issue.after) 0

/-- R127, R128: always taken, to s[rs]; a target that is no code address traps at the branch bundle. -/
def execJr (g : BitVec 4) (rs : BitVec 5) : State → Out :=
  branchWord g [.s rs] (fun _ _ x => transferCheck (x.sdata rs)) fun x => (true, x.sdata rs)

/-- R127, R128: to s[rs], read before the write of s1. -/
def execCallr (g : BitVec 4) (rs : BitVec 5) : State → Out :=
  runWord ⟨.scalar g, [.s rs], [(.s 1, 1)]⟩ (fun _ _ x => transferCheck (x.sdata rs)) fun _ x s =>
    (s.branch true (x.sdata rs)).sresult 1 1 (intVal s.issue.after) 0

/-- R129: counts s[rs] down, rotates VBASE and PBASE from the next bundle, and is taken while the counter is not 0. -/
def execLoop (g : BitVec 4) (rs : BitVec 5) (imm : BitVec 12) : State → Out :=
  runWord ⟨.scalar g, [.s rs], [(.s rs, 1)]⟩ noCheck fun _ x s =>
    ((s.branch (x.sdata rs - 1 != 0) (x.pc + sext64 imm * 4)).defer .rotate).sresult 1 rs (intVal (x.sdata rs - 1)) 0

end Sys2Proof.Machine
end

