-- ==== Sys2Proof/Machine/Words.lean ====
section
/-! DEFINITION. The meanings of the bundle words as one function, for the events that issue a held bundle (R132, R208, R333,
R357): the same meanings that the dispatch calls. -/
namespace Sys2Proof.Machine

/-- The meaning of a bundle word; an instruction that is no word of a bundle changes nothing. -/
def wordMeaning (i : Instr) (s : State) : Out :=
  match i with
  | .add g rd rs rt => execAdd g rd rs rt s
  | .sub g rd rs rt => execSub g rd rs rt s
  | .and g rd rs rt => execAnd g rd rs rt s
  | .or g rd rs rt => execOr g rd rs rt s
  | .xor g rd rs rt => execXor g rd rs rt s
  | .andn g rd rs rt => execAndn g rd rs rt s
  | .sll g rd rs rt => execSll g rd rs rt s
  | .srl g rd rs rt => execSrl g rd rs rt s
  | .sra g rd rs rt => execSra g rd rs rt s
  | .ror g rd rs rt => execRor g rd rs rt s
  | .slt g rd rs rt => execSlt g rd rs rt s
  | .sltn g rd rs rt => execSltn g rd rs rt s
  | .seq g rd rs rt => execSeq g rd rs rt s
  | .sne g rd rs rt => execSne g rd rs rt s
  | .min g rd rs rt => execMin g rd rs rt s
  | .max g rd rs rt => execMax g rd rs rt s
  | .minn g rd rs rt => execMinn g rd rs rt s
  | .maxn g rd rs rt => execMaxn g rd rs rt s
  | .mul g rd rs rt => execMul g rd rs rt s
  | .mulh g rd rs rt => execMulh g rd rs rt s
  | .mulhn g rd rs rt => execMulhn g rd rs rt s
  | .div g rd rs rt => execDiv g rd rs rt s
  | .divn g rd rs rt => execDivn g rd rs rt s
  | .rem g rd rs rt => execRem g rd rs rt s
  | .remn g rd rs rt => execRemn g rd rs rt s
  | .bfxr g rd rs rt => execBfxr g rd rs rt s
  | .bfir g rd rs rt => execBfir g rd rs rt s
  | .popc g rd rs => execPopc g rd rs s
  | .clz g rd rs => execClz g rd rs s
  | .fadd g rd rs rt fmt => execFadd g rd rs rt fmt s
  | .fsub g rd rs rt fmt => execFsub g rd rs rt fmt s
  | .fmul g rd rs rt fmt => execFmul g rd rs rt fmt s
  | .ffma g rd rs rt fmt => execFfma g rd rs rt fmt s
  | .fmin g rd rs rt fmt => execFmin g rd rs rt fmt s
  | .fmax g rd rs rt fmt => execFmax g rd rs rt fmt s
  | .fdiv g rd rs rt fmt => execFdiv g rd rs rt fmt s
  | .fsqrt g rd rs fmt => execFsqrt g rd rs fmt s
  | .fceq g rd rs rt fmt => execFceq g rd rs rt fmt s
  | .fclt g rd rs rt fmt => execFclt g rd rs rt fmt s
  | .fcle g rd rs rt fmt => execFcle g rd rs rt fmt s
  | .fcvt g rd rs sel => execFcvt g rd rs sel s
  | .fmov g rd rs => execFmov g rd rs s
  | .gtail g rd rs => execGtail g rd rs s
  | .stail g rd rs => execStail g rd rs s
  | .stageMs g num rs => execStageMs g num rs s
  | .stageWs g num rs => execStageWs g num rs s
  | .stageFs g num rs => execStageFs g num rs s
  | .addi rd rs imm => execAddi rd rs imm s
  | .andi rd rs imm => execAndi rd rs imm s
  | .ori rd rs imm => execOri rd rs imm s
  | .xori rd rs imm => execXori rd rs imm s
  | .slli rd rs amt => execSlli rd rs amt s
  | .srli rd rs amt => execSrli rd rs amt s
  | .srai rd rs amt => execSrai rd rs amt s
  | .rori rd rs amt => execRori rd rs amt s
  | .slti rd rs imm => execSlti rd rs imm s
  | .sltni rd rs imm => execSltni rd rs imm s
  | .bfx rd rs wid off => execBfx rd rs wid off s
  | .bfi rd rs wid off => execBfi rd rs wid off s
  | .ld rd rs ty off => execLd rd rs ty off s
  | .st rd rs ty off => execSt rd rs ty off s
  | .stf rd rs ty off => execStf rd rs ty off s
  | .crd rd cidx => execCrd rd cidx s
  | .cwr rs cidx => execCwr rs cidx s
  | .lui rd imm => execLui rd imm s
  | .aupc rd imm => execAupc rd imm s
  | .br g imm => execBr g imm s
  | .call g imm => execCall g imm s
  | .jr g rs => execJr g rs s
  | .callr g rs => execCallr g rs s
  | .bz g rs imm => execBz g rs imm s
  | .bnz g rs imm => execBnz g rs imm s
  | .bbs g rs bitn imm => execBbs g rs bitn imm s
  | .bbc g rs bitn imm => execBbc g rs bitn imm s
  | .loop g rs imm => execLoop g rs imm s
  | .wait g k thr => execWait g k thr s
  | .waitr g k rs => execWaitr g k rs s
  | .tkset g k imm => execTkset g k imm s
  | .dly g num => execDly g num s
  | .bar g => execBar g s
  | .sysLaunch g rs => execSysLaunch g rs s
  | .sigDec g rs rt => execSigDec g rs rt s
  | .sigWait g rs rt => execSigWait g rs rt s
  | .trap g code => execTrap g code s
  | .tret g => execTret g s
  | .ilock g rd rs => execIlock g rd rs s
  | .iunlk g rs => execIunlk g rs s
  | .fence g scope => execFence g scope s
  | .tgive g tile owner => execTgive g tile owner s
  | .endTask g => execEndTask g s
  | .vadd g ty vd va vb => execVadd g ty vd va vb s
  | .vsub g ty vd va vb => execVsub g ty vd va vb s
  | .vmul g ty vd va vb => execVmul g ty vd va vb s
  | .vmulh g ty vd va vb => execVmulh g ty vd va vb s
  | .vsadd g ty vd va vb => execVsadd g ty vd va vb s
  | .vssub g ty vd va vb => execVssub g ty vd va vb s
  | .vabs g ty vd va => execVabs g ty vd va s
  | .vneg g ty vd va => execVneg g ty vd va s
  | .vand g ty vd va vb => execVand g ty vd va vb s
  | .vor g ty vd va vb => execVor g ty vd va vb s
  | .vxor g ty vd va vb => execVxor g ty vd va vb s
  | .vandn g ty vd va vb => execVandn g ty vd va vb s
  | .vshl g ty vd va vb => execVshl g ty vd va vb s
  | .vshr g ty vd va vb => execVshr g ty vd va vb s
  | .vmin g ty vd va vb => execVmin g ty vd va vb s
  | .vmax g ty vd va vb => execVmax g ty vd va vb s
  | .vfadd g ty vd va vb => execVfadd g ty vd va vb s
  | .vfsub g ty vd va vb => execVfsub g ty vd va vb s
  | .vfmul g ty vd va vb => execVfmul g ty vd va vb s
  | .vfma g ty vd va vb => execVfma g ty vd va vb s
  | .vfms g ty vd va vb => execVfms g ty vd va vb s
  | .vfmin g ty vd va vb => execVfmin g ty vd va vb s
  | .vfmax g ty vd va vb => execVfmax g ty vd va vb s
  | .vfneg g ty vd va => execVfneg g ty vd va s
  | .vfabs g ty vd va => execVfabs g ty vd va s
  | .vfredsum g ty vd va => execVfredsum g ty vd va s
  | .vfredmax g ty vd va => execVfredmax g ty vd va s
  | .vfredmin g ty vd va => execVfredmin g ty vd va s
  | .vredsum g ty vd va => execVredsum g ty vd va s
  | .vredmax g ty vd va => execVredmax g ty vd va s
  | .vredmin g ty vd va => execVredmin g ty vd va s
  | .vsel g sz vd va vb => execVsel g sz vd va vb s
  | .vceq g ty vd va vb => execVceq g ty vd va vb s
  | .vcne g ty vd va vb => execVcne g ty vd va vb s
  | .vclt g ty vd va vb => execVclt g ty vd va vb s
  | .vcle g ty vd va vb => execVcle g ty vd va vb s
  | .vfceq g ty vd va vb => execVfceq g ty vd va vb s
  | .vfclt g ty vd va vb => execVfclt g ty vd va vb s
  | .vfcle g ty vd va vb => execVfcle g ty vd va vb s
  | .vfcun g ty vd va vb => execVfcun g ty vd va vb s
  | .vperm g sz vd va vb => execVperm g sz vd va vb s
  | .vzip g sz vd va vb => execVzip g sz vd va vb s
  | .vunzip g sz vd va vb => execVunzip g sz vd va vb s
  | .vrot g sz vd va rs => execVrot g sz vd va rs s
  | .vbcast g sz vd rs => execVbcast g sz vd rs s
  | .vext g sz vd va rs => execVext g sz vd va rs s
  | .vins g sz vd va rs => execVins g sz vd va rs s
  | .vmov g sz vd va => execVmov g sz vd va s
  | .vwadd g ty vd va vb => execVwadd g ty vd va vb s
  | .vwmul g ty vd va vb => execVwmul g ty vd va vb s
  | .vfwma g ty vd va vb => execVfwma g ty vd va vb s
  | .pand g vd va vb => execPand g vd va vb s
  | .por g vd va vb => execPor g vd va vb s
  | .pxor g vd va vb => execPxor g vd va vb s
  | .pandn g vd va vb => execPandn g vd va vb s
  | .vcvtFloat g fmt vd va sty => execVcvtFloat g fmt vd va sty s
  | .vcvtInt g fmt vd va sty => execVcvtInt g fmt vd va sty s
  | .qmax g va => execQmax g va s
  | .qcvt g vd va => execQcvt g vd va s
  | .vrcp g fmt vd va => execVrcp g fmt vd va s
  | .vrsqrt g fmt vd va => execVrsqrt g fmt vd va s
  | .vsqrt g fmt vd va => execVsqrt g fmt vd va s
  | .vdiv g fmt vd va vb => execVdiv g fmt vd va vb s
  | .vexp2 g fmt vd va => execVexp2 g fmt vd va s
  | .vlog2 g fmt vd va => execVlog2 g fmt vd va s
  | .vexp g fmt vd va => execVexp g fmt vd va s
  | .vlog g fmt vd va => execVlog g fmt vd va s
  | .vsin g fmt vd va => execVsin g fmt vd va s
  | .vcos g fmt vd va => execVcos g fmt vd va s
  | .vtanh g fmt vd va => execVtanh g fmt vd va s
  | .vsigm g fmt vd va => execVsigm g fmt vd va s
  | .verf g fmt vd va => execVerf g fmt vd va s
  | .vrint g fmt vd va => execVrint g fmt vd va s
  | .vscl g fmt vd va vb => execVscl g fmt vd va vb s
  | .mload g k tile => execMload g k tile s
  | .mswap g k => execMswap g k s
  | .mstream g k tile => execMstream g k tile s
  | .mstreamz g k tile => execMstreamz g k tile s
  | .mstore g k tile => execMstore g k tile s
  | .mzero g k => execMzero g k s
  | .mscaleW g k tile => execMscaleW g k tile s
  | .mscaleA g k tile => execMscaleA g k tile s
  | .mread g k vd => execMread g k vd s
  | .mwrite g k va => execMwrite g k va s
  | .mdrain g k => execMdrain g k s
  | .ldV slot g reg base off => execLdV slot g reg base off s
  | .stV slot g reg base off => execStV slot g reg base off s
  | .stVF32 slot g reg base off => execStVF32 slot g reg base off s
  | .stVF16 slot g reg base off => execStVF16 slot g reg base off s
  | .stVBf16 slot g reg base off => execStVBf16 slot g reg base off s
  | .stVE4m3 slot g reg base off => execStVE4m3 slot g reg base off s
  | .stVE5m2 slot g reg base off => execStVE5m2 slot g reg base off s
  | .ldP slot g reg base off => execLdP slot g reg base off s
  | .stP slot g reg base off => execStP slot g reg base off s
  | .vspill slot g reg base off => execVspill slot g reg base off s
  | .vfill slot g reg base off => execVfill slot g reg base off s
  | .ldVb slot g reg base off => execLdVb slot g reg base off s
  | .wnCopy g k => execWnCopy g k s
  | .wnGather g k => execWnGather g k s
  | .wnScatter g k => execWnScatter g k s
  | .wnDecode g k => execWnDecode g k s
  | .wnEncode g k => execWnEncode g k s
  | .wnExpand g k => execWnExpand g k s
  | .wnFlush g k => execWnFlush g k s
  | .wnFar g k sd => execWnFar g k sd s
  | .vspillM g k vfirst vlast => execVspillM g k vfirst vlast s
  | .vfillM g k vfirst vlast => execVfillM g k vfirst vlast s
  | .fxLd g k => execFxLd g k s
  | .fxSt g k => execFxSt g k s
  | .fxAdd g k ty => execFxAdd g k ty s
  | .fxMin g k ty => execFxMin g k ty s
  | .fxMax g k ty => execFxMax g k ty s
  | .fxSwap g k ty => execFxSwap g k ty s
  | .fxCas g k ty => execFxCas g k ty s
  | .fxAnd g k ty => execFxAnd g k ty s
  | .fxOr g k ty => execFxOr g k ty s
  | .fxFlush g k => execFxFlush g k s
  | .fxFence g k vd scope => execFxFence g k vd scope s
  | .fxSdec g k => execFxSdec g k s
  | _ => .next s

end Sys2Proof.Machine
end

