-- ==== Sys2Proof/Machine/Held.lean ====
section
/-! DEFINITION. The events in which a bundle that has been held issues (R132, R208, R333, R357): one bc of its core; and the
switch of a core to its other bank (R245). -/
namespace Sys2Proof.Machine

/-- Whether a core's current bank stands at a bundle that it could issue now, if nothing held it. -/
def Core.canIssue (k : Core) : Bool :=
  k.freeze = 0 && k.missing.isNone && !k.wakeFreeze && k.switching = 0 && !k.disabled &&
    match k.ctx? k.bank with | some x => x.status == .running && x.dly = 0 | none => false

/-- The core's next bundle issues if it holds a word that `sel` selects and nothing holds it any longer; else nothing
happens. -/
def issueHeld (sel : Instr → Bool) (c : Fin 256) (s : State) : State :=
  let k := s.cores[c]
  match k.ctx? k.bank with
  | none => s
  | some x =>
    match front k x with
    | .ready is _ =>
      if k.canIssue && is.any sel then
        let t := clockOf wordMeaning c s
        if t.issue.stop = .held then s else t
      else s
    | _ => s

/-- R208: the held `wait` or `waitr` bundle issues once its token has reached the threshold. -/
def execWaitSatisfied (core : Fin 256) : State → Out :=
  runEvent (issueHeld (fun i => match i with | .wait .. | .waitr .. => true | _ => false) core)

/-- R132: after the holds, the signal is decremented. -/
def execSigDecPerform (core : Fin 256) : State → Out :=
  runEvent (issueHeld (fun i => match i with | .sigDec .. => true | _ => false) core)

/-- R357: a held fence issues once every earlier Wain and fabric command has completed. -/
def execFenceRelease (core : Fin 256) : State → Out :=
  runEvent (issueHeld (fun i => match i with | .fence .. => true | _ => false) core)

/-- R333: after the release hold, the LAUNCH packet is written at QTAIL and QTAIL rises. -/
def execSysLaunchWrite (core : Fin 256) : State → Out :=
  runEvent (issueHeld (fun i => match i with | .sysLaunch .. => true | _ => false) core)

/-- Whether the current core switches banks now (R245): the current bank is parked, or holds or has issued long enough and
has drained, and the other bank is ready. -/
def State.switches (s : State) : Bool :=
  let k := s.core
  k.freeze = 0 && k.missing.isNone && s.otherReady wordMeaning &&
    (0 < k.switching || k.parked || (match k.ctx? k.bank with
      | some x => x.drained && x.delay.isNone && x.dly = 0 && (k.wantsSwitch || x.status == .draining .switch)
      | none => true))

/-- The two hold clocks of a switch, or the one that is left of them, and the other bank issues (R245). -/
def Core.switchBank (k : Core) : Core :=
  let k' := k.modCtx k.bank fun x => if x.status == .draining .switch then x.afterDrain .switch else x
  (if k'.switching = 0 then k'.holdCycle.holdCycle else k'.holdCycle).toggle

/-- R245: the core switches issue to its other bank. -/
def execBankSwitch (core : Fin 256) : State → Out :=
  runEvent fun s => if { s with cur := core }.switches then s.updCore core Core.switchBank else s

end Sys2Proof.Machine
end

