-- ==== Sys2Proof/Machine/Service.lean ====
section
/-! DEFINITION. The fault service's answers (R246, R247, R350, R455, R459), invalidations (R353) and the gating of Barn ways
(R355). -/
namespace Sys2Proof.Machine

/-! ### Answers (R246, R247, R350) -/

/-- What an answer means for a held access: it stays held, replays, or fails. -/
inductive Ruling where
  | stay
  | replay
  | refuse
  deriving DecidableEq, Repr

/-- The ruling for an access of a page, partition and kind, once the answered request is gone: refused with it, or to walk
again where no request is outstanding for it (R246, R350). -/
def State.ruling (s : State) (d : Fin 2) (refused : Option FaultReq) (part : BitVec 4) (page kind : Nat) : Ruling :=
  if refused.any fun f => f.page == page && f.part == part && f.kind == kind then .refuse
  else if ((s.dies[d]).request page part kind).isSome then .stay
  else .replay

/-- The ruling for an engine item that is held (R223, R455). -/
def State.heldRuling (s : State) (d : Fin 2) (refused : Option FaultReq) (part : BitVec 4) (f : HeldFault) : Ruling :=
  s.ruling d refused part (f.addr / 65536) (f.kind.toNat + 1)

/-- A bank that waits on a synchronous fault (R243, R247). -/
def Context.answerSync (x : Context) (r : Nat → Nat → Ruling) : Context :=
  match x.status with
  | .faultWaiting cause addr kind pos =>
    match r (addr.toNat / 65536) kind.toNat with
    | .stay => x
    | .replay => { x with status := .running }
    | .refuse => { x with status := .refused cause addr pos }
  | _ => x

/-- A fabric item that is held (R455). -/
def FItem.answered (i : FItem) (r : HeldFault → Ruling) : FItem :=
  match i.state with
  | .held f => (match r f with | .stay => i | .replay => { i with state := .waiting, peer := none } | .refuse => { i with state := .failed 3 })
  | _ => i

/-- The Wain command of a bank that is held on an answered fault goes on from its item, or behind it (R223, R247). -/
def State.answerWain (s : State) (c : Fin 256) (bank : Bool) (r : HeldFault → Ruling) : State :=
  match (s.cores[c]).ctx? bank with
  | some x =>
    match x.wain with
    | w :: _ =>
      match w.held with
      | some f =>
        match r f with
        | .stay => s
        | .replay => s.runWain c bank { w with held := none } x
        | .refuse => s.runWain c bank ({ w with held := none }.failItem 3 w.heldItems) x
      | none => s
    | [] => s
  | none => s

/-- A bank that waits for its held items is ready once none is left (R244). -/
def Context.wakeHeld (x : Context) : Context :=
  if x.status == .heldWaiting && !x.hasHeldItem then { x with status := .running } else x

/-- The held accesses of a bank at an answer. -/
def State.answerBank (s : State) (d : Fin 2) (refused : Option FaultReq) (c : Fin 256) (bank : Bool) : State :=
  match (s.cores[c]).ctx? bank with
  | none => s
  | some x =>
    let r := fun (f : HeldFault) => s.heldRuling d refused x.partId f
    let s1 := s.updCore c fun k => k.modCtx bank fun y =>
      { y.answerSync (s.ruling d refused x.partId) with fabric := y.fabric.map fun f => { f with items := f.items.map fun i => i.answered r } }
    (s1.answerWain c bank r).updCore c fun k => k.modCtx bank Context.wakeHeld

/-- A request at a target agent that is held (R442). -/
def TReq.answered (q : TReq) (r : HeldFault → Ruling) : TReq :=
  match q.held with
  | some f => (match r f with | .stay => q | .replay => { q with held := none } | .refuse => { q with held := none, refused := true })
  | none => q

/-- Accesses of the Granger that are held (R459). -/
def answerHolds (r : GHold → Ruling) (hs : List GHold) : List GHold :=
  hs.filterMap fun h => if h.refused then some h else match r h with | .stay => some h | .replay => none | .refuse => some { h with refused := true }

/-- Every access of a die that an answer concerns, and every one that waits for room in the service (R246). -/
def State.answerAll (s : State) (d : Fin 2) (refused : Option FaultReq) : State :=
  let s1 := s.updDie d fun x =>
    { x with target := x.target.map (fun q => q.answered (s.heldRuling d refused q.part)),
             granger := { x.granger with holds := answerHolds (fun h => s.ruling d refused h.part h.page h.kind) x.granger.holds } }
  (dieCores d).foldl (fun acc c => (acc.answerBank d refused c false).answerBank d refused c true) s1

/-- The outstanding request that a FANS write answers (R349, R350). -/
def Die.answered? (d : Die) (answer : Word) : Option FaultReq := d.faults.find? fun f => f.gen * 4096 + f.slot == wbits answer 32 32

/-- No cached translation of a page is used by the accesses that an answer replays: they walk the tables again (R350). -/
def Die.walkAgain (d : Die) (part : BitVec 4) (page : Nat) : Die :=
  { d with tlb := d.tlb.map fun t => if t.part == part && t.page == page then { t with live := false } else t }

/-- A write of FANS (R350): OUTCOME 01 resolves and 10 refuses an outstanding request; any other write is ignored. -/
def State.writeFans (s : State) (d : Fin 2) (answer : Word) : State :=
  match (s.dies[d]).answered? answer with
  | none => s
  | some f =>
    let s1 := s.updDie d fun x => { x with faults := x.faults.filter fun g => g.slot != f.slot }
    if wbits answer 0 2 = 1 then (s1.updDie d fun x => x.walkAgain f.part f.page).answerAll d none
    else if wbits answer 0 2 = 2 then s1.answerAll d (some f)
    else s

/-- A write of FANS that reaches the service (R350): one that comes while the clocks stand waits for them (R420). -/
def State.fansWrite (s : State) (d : Fin 2) (value : Word) : State :=
  if s.pkg.frz = 0 then s.writeFans d value else s.updDie d fun x => { x with answers := x.answers ++ [value] }

/-- R350: a FANS write that answers "resolved". -/
def execFaultResolve (die : Fin 2) (answer : BitVec 64) : State → Out :=
  runLoaded fun s => if wbits answer 0 2 = 1 then s.fansWrite die answer else s

/-- R350: a FANS write that answers "refused". -/
def execFaultRefuse (die : Fin 2) (answer : BitVec 64) : State → Out :=
  runLoaded fun s => if wbits answer 0 2 = 2 then s.fansWrite die answer else s

/-! ### Invalidation (R352, R353) -/

/-- The first of the 64 KiB pages that a translation's page is made of, and how many they are. -/
def TlbEntry.span (t : TlbEntry) : Nat × Nat :=
  let n := 2 ^ (levelBits t.level - 16)
  (t.page / n * n, n)

/-- Whether an invalidation covers a translation: a large page is covered when any 64 KiB of it is (R353). -/
def Invalidation.covers (i : Invalidation) (t : TlbEntry) : Bool :=
  t.part == i.part && (i.count = 0 || decide (t.span.1 < i.page + i.count ∧ i.page < t.span.1 + t.span.2))

/-- Whether a translation's frame holds a line. -/
def TlbEntry.holds (t : TlbEntry) (line : Nat) : Bool :=
  let f := (Leaf.ofWord t.leaf).frame * 65536
  (Leaf.ofWord t.leaf).aper = 0 && decide (f ≤ 128 * line ∧ 128 * line < f + 2 ^ levelBits t.level)

/-- A write of INVCTL (R353): its fields, and GO unless an invalidation runs. -/
def Die.writeInvctl (d : Die) (value : Word) : Die :=
  let kept := value &&& 0x0000000FFFFFFF02
  let x := { d with invctl := kept }
  if value.getLsbD 0 && d.invRun.isNone then
    { x with invRun := some ⟨BitVec.ofNat 4 (wbits value 32 4), wbits d.invaddr 16 36, wbits value 8 24, value.getLsbD 1⟩ }
  else x

/-- R353: a write of INVCTL. -/
def execInvalidate (die : Fin 2) (value : BitVec 64) : State → Out := runLoaded fun s => s.updDie die fun x => x.writeInvctl value

/-- Whether an access of a bank that used a translation of a partition has not completed: a fabric item in flight, or a push
that has not entered (R353). -/
def Context.inUse (x : Context) (part : BitVec 4) : Bool :=
  x.partId == part && (x.wain.any (fun w => w.push) || x.fabric.any fun f => f.items.any FItem.inFlight)

/-- Whether an access of a die that used a translation of a partition has not completed. -/
def State.inUse (s : State) (d : Fin 2) (part : BitVec 4) : Bool :=
  (dieCores d).any fun c => [(s.cores[c]).ctxA, (s.cores[c]).ctxB].any fun x => x.any fun y => y.inUse part

/-- The leaves that the tables hold from a table of a level on, each as a translation of its page (R342, R343). -/
def State.tableLeaves (s : State) (part : BitVec 4) : Nat → Nat → Nat → Nat → List TlbEntry
  | 0, _, _, _ => []
  | fuel + 1, level, table, va =>
    (List.range 512).flatMap fun j =>
      let page := va + j * 2 ^ (43 - 9 * level)
      let e := s.tableEntry table page level
      if !e.getLsbD 0 then []
      else if e.getLsbD 1 then
        if level == 0 || leafMalformed e level then [] else [⟨part, page / 65536, e, level, true⟩]
      else if level == 3 || wbits e 50 14 != 0 || wbits e 2 10 != 0 then []
      else s.tableLeaves part fuel (level + 1) (wbits e 12 38 * 4096) page

/-- The pages of a partition that a die's tables map (R341, R342). -/
def State.mapped (s : State) (d : Fin 2) (part : BitVec 4) : List TlbEntry :=
  let root := (s.dies[d]).troot[part.toFin]
  if root.getLsbD 0 then s.tableLeaves part 4 0 (wbits root 12 38 * 4096) 0 else []

/-- Whether an invalidation with WB takes a Barn line (R353): a covered page that the tables hold or that was used lies on it, or
no page is known that does (log entry 49). -/
def State.takesLine (s : State) (d : Fin 2) (i : Invalidation) (line : Nat) : Bool :=
  let pages := (s.dies[0]).tlb ++ (s.dies[1]).tlb ++ s.mapped d i.part
  (pages.any fun t => i.covers t && t.holds line) || !pages.any fun t => t.holds line

/-- What an invalidation leaves (R353): no covered translation of the die is used again, and with WB the lines of covered
host-side pages are written back and dropped from the Barn that holds them: a page's lines have both dies as homes (R336). -/
def State.invalidated (s : State) (d : Fin 2) (i : Invalidation) : State :=
  let s1 := if i.wb then (s.barnDrop 0 fun l => s.takesLine d i l.line).barnDrop 1 fun l => s.takesLine d i l.line else s
  s1.updDie d fun x => { x with tlb := x.tlb.map (fun t => if i.covers t then { t with live := false } else t), invRun := none }

/-- R353: an invalidation ends once every access that used a covered translation has. -/
def execInvalidateDone (die : Fin 2) : State → Out :=
  runEvent fun s =>
    match (s.dies[die]).invRun with
    | some i => if s.inUse die i.part then s else s.invalidated die i
    | none => s

/-! ### Barn ways (R355) -/

/-- R355: a way is written back and gated, or woken empty. -/
def execBarnWayGate (die : Fin 2) (way : Fin 16) (gate : Bool) : State → Out :=
  runEvent fun s =>
    (s.barnDrop die fun l => l.way == way).updDie die fun x =>
      { x with gatedWays := if gate then x.gatedWays ||| (1#16 <<< way.val) else x.gatedWays &&& ~~~(1#16 <<< way.val) }

end Sys2Proof.Machine
end

