-- ==== Sys2Proof/Machine/Thresher.lean ====
section
/-! DEFINITION. The Thresher (spec/15): pushes into the gate queue (R379, R380), pops with routing, weights, records and seals
(R383-R390), arm requests (R391, R392), and the commands LAYER, ROUTE, EVICT and OVERRIDE (R396-R399). -/
namespace Sys2Proof.Machine

/-- Changes a die's Thresher. -/
def State.updThresher (s : State) (d : Fin 2) (f : Thresher → Thresher) : State := s.updDie d fun x => { x with thresher := f x.thresher }

/-- A die's Thresher. -/
def State.thresher (s : State) (d : Fin 2) : Thresher := (s.dies[d]).thresher

/-- Changes a layer. -/
def State.updLayer (s : State) (d : Fin 2) (n : Nat) (f : Layer → Layer) : State :=
  s.updThresher d fun t => { t with layers := t.layers.map fun l => if l.index == n then f l else l }

/-! ### The gate queue (R379, R380) -/

/-- The words of a gate entry. -/
def GateEntry.words (e : GateEntry) : Nat := 1 + e.logits.length / 4

/-- GQOCC: the words in the gate queue (R398). -/
def Thresher.occupancy (t : Thresher) : Nat := (t.gq.map GateEntry.words).sum

/-- The words that the gate queue holds (R379). -/
def gateWords : Nat := 8192

/-- A bank's push enters, if it is the oldest and the queue has room for all of it; its command is then done (R380). -/
def State.enterPush (s : State) (c : Fin 256) (bank : Bool) (d : Fin 2) : State :=
  let t := s.thresher d
  match t.pushes with
  | p :: ps =>
    if p.core == c && p.bank == bank && decide (t.occupancy + (p.entries.map GateEntry.words).sum ≤ gateWords) then
      (s.updThresher d fun t => { t with pushes := ps, gq := t.gq ++ p.entries }).updCore c fun k =>
        k.modCtx bank fun x => { x with wain := updAt (fun w => if w.push then { w with push := false, done := true } else w) 0 x.wain }
    else s
  | [] => s

/-- R380: a push enters the gate queue. -/
def execGatePushEnter (core : Fin 256) (bank : Bool) : State → Out :=
  runEvent fun s => (s.enterPush core bank 0).enterPush core bank 1

/-! ### Weights (R385) -/

/-- e^d for a finite d of at most 256, enclosed in units of 2^-n. -/
def expIv (n : Nat) (neg : Bool) (mag : Nat) (exp : Int) : Iv :=
  if mag = 0 then Iv.exact (2 ^ n)
  else
    let m := Iv.ofFin n mag exp
    if neg && decide ((n : Int) * 2 ^ n < m.lo) then ⟨0, 1⟩
    else
      let r := expScaled n (if neg then m.neg else m)
      if 0 ≤ r.2 then ⟨r.1.lo * 2 ^ r.2.toNat, r.1.hi * 2 ^ r.2.toNat⟩
      else ⟨r.1.lo / 2 ^ (-r.2).toNat, cdiv r.1.hi (2 ^ (-r.2).toNat)⟩

/-- Whether e^d is so large that a weight under it rounds to +0. -/
def hugeDiff : FVal → Bool
  | .fin false mag exp => mag != 0 && decide (8 ≤ log2Floor mag exp)
  | _ => false

/-- The code of a positive number whose enclosure decides its rounding to FP32 (R385). -/
def roundIv (n : Nat) (r : Iv) : Option Nat :=
  let lo := (final .f32 .rne (.fin false r.lo.toNat (-(n : Int)))).1
  let hi := (final .f32 .rne (.fin false r.hi.toNat (-(n : Int)))).1
  if lo = hi then some lo else none

/-- The weight of a finite logit among the chosen ones, at precision n (R385). -/
def softAt (n : Nat) (l : FVal) (ls : List FVal) : Option Nat :=
  let ds := ls.map fun x => (x.sub l).1
  if ds.any hugeDiff then some 0
  else
    let sum := ds.foldl (fun acc d => match d with | .fin neg mag exp => acc.add (expIv n neg mag exp) | _ => acc) (Iv.exact 0)
    roundIv n ((Iv.exact (2 ^ n)).div n sum)

/-- The weight of a finite logit (R385): rising precision until the rounding is decided, else a free value (log entry 7). -/
def softWeight (l : FVal) (ls : List FVal) : Nat :=
  match [256, 512, 1024].findSome? fun n => softAt n l ls with
  | some w => w
  | none => (Config.specialFallback 12 0 (final .f32 .rne l).1 ls.length).1 % 2 ^ 32

/-- 1/m in FP32. -/
def oneOver (m : Nat) : Nat := (roundIv 256 (Iv.ofRat 256 1 m)).getD 0

/-- Whether a value is +∞. -/
def isPosInf : FVal → Bool
  | .inf n => !n
  | _ => false

/-- The weight of one chosen logit (R385). -/
def chosenWeight (c : List FVal) (l : FVal) : Nat :=
  let m := (c.filter isPosInf).length
  if m != 0 then (if isPosInf l then oneOver m else 0)
  else if c.all FVal.isInf then oneOver c.length
  else if l.isInf then 0
  else softWeight l (c.filter fun x => !x.isInf)

/-- The largest logit that is not taken yet, ties to the lower expert number (R385). -/
def largest : List (Nat × FVal) → Option (Nat × FVal)
  | [] => none
  | x :: xs => match largest xs with | none => some x | some y => if x.2.flt y.2 then some y else some x

/-- The first k logits in rank order (R385). -/
def ranked : Nat → List (Nat × FVal) → List (Nat × FVal)
  | 0, _ => []
  | k + 1, xs => match largest xs with | none => [] | some x => x :: ranked k (xs.filter fun y => y.1 != x.1)

/-! ### Records (R388, R389) -/

/-- A routing record (R388). -/
def recordBytes (token expert slot weight rank flags : Nat) (epoch : BitVec 16) : List Byte :=
  leBytes 4 token ++ leBytes 2 expert ++ leBytes 2 slot ++ leBytes 4 weight ++ [byte rank, byte flags] ++ leBytes 2 epoch.toNat

/-- The records of an entry are written and TAIL rises (R389). -/
def State.writeRecords (s : State) (l : Layer) (rs : List (List Byte)) : State :=
  let tail := s.devNat l.ring 8
  let t := rs.zipIdx.foldl (fun acc r => acc.devWrite (l.ring + 64 + 16 * ((tail + r.2) % 2 ^ l.rsize)) r.1) s
  t.devWrite l.ring (leBytes 8 (tail + rs.length))

/-- Whether an entry's records fit into the ring (R389). -/
def State.ringFits (s : State) (l : Layer) (n : Nat) : Bool := decide (s.devNat l.ring 8 + n ≤ s.devNat (l.ring + 8) 8 + 2 ^ l.rsize)

/-- What a pop does that writes n records: it reads the ring's TAIL and HEAD, taking the line back from the host (R407), and does no
more where they do not fit. While the ring is out of the die's reach it waits (log entry 89). -/
def State.withRing (s : State) (d : Fin 2) (l : Layer) (n : Nat) (f : State → State) : State :=
  if s.severed d l.ring 16 then s
  else
    let u := s.touch l.ring 16
    if u.ringFits l n then f u else u

/-! ### Routing (R384-R387) -/

/-- The layer at the start of an epoch (R383, R384). -/
def Layer.restart (l : Layer) (epoch : BitVec 16) : Layer :=
  { l with cur := epoch, closed := false, recs := 0, cnt := List.replicate l.nexp 0, hist := List.replicate l.nexp 0, ovf := List.replicate l.nexp false, hovf := List.replicate l.nexp false }

/-- One rank is placed with an expert (R387): the layer, and SLOT, none where the token is dropped. -/
def Layer.placeRank (l : Layer) (e : Nat) : Layer × Option Nat :=
  let h := l.hist.getD e 0
  let c := l.cnt.getD e 0
  let l1 := { l with hist := l.hist.set e (min (h + 1) (2 ^ 32 - 1)), hovf := if h = 2 ^ 32 - 1 then l.hovf.set e true else l.hovf }
  if e < l.nexp && c < l.cap then
    ({ l1 with cnt := l1.cnt.set e (c + 1), ovf := if c + 1 = l.cap then l1.ovf.set e true else l1.ovf }, some c)
  else (l1, none)

/-- Ranks placed in ascending order: expert (none for a missing rank), weight and flags in, the layer and its records out
(R385, R387, R388). -/
def Layer.placeRanks (l : Layer) (e : GateEntry) : Nat → List (Option Nat × Nat × Nat) → Layer × List (List Byte)
  | _, [] => (l, [])
  | r, (none, w, fl) :: more =>
    let t := l.placeRanks e (r + 1) more
    (t.1, recordBytes e.token.toNat 0xFFFF 0xFFFF w r (fl + 1) e.epoch :: t.2)
  | r, (some x, w, fl) :: more =>
    let p := l.placeRank x
    let t := p.1.placeRanks e (r + 1) more
    (t.1, recordBytes e.token.toNat (l.route0 + x) (p.2.getD 0xFFFF) w r (fl + if p.2.isSome then 0 else 1) e.epoch :: t.2)

/-- The ranks of a top-k entry (R385). -/
def topRanks (l : Layer) (e : GateEntry) : List (Option Nat × Nat × Nat) :=
  let vs := ((e.logits.take l.nexp).zipIdx.map fun x => (x.2, valueOf .f32 x.1.toNat)).filter fun x => !x.2.isNan
  let rs := ranked l.k vs
  let c := rs.map (·.2)
  rs.map (fun x => (some x.1, chosenWeight c x.2, 0)) ++ List.replicate (l.k - rs.length) (none, 0, 0)

/-- The one rank of a hash entry (R386). -/
def hashRank (t : Thresher) (l : Layer) (e : GateEntry) : Option Nat × Nat × Nat :=
  match t.overrides.find? fun o => o.token == e.token && o.layer == l.index with
  | some o => (some o.expert, 0x3F800000, 6)
  | none =>
    let h := crc32c l.seed (leBytes 4 e.token.toNat ++ [byte l.index, 0])
    (some (h.toNat % l.nexp), 0x3F800000, 2)

/-- Records that carry no expert (R384). -/
def emptyRecords (l : Layer) (e : GateEntry) (flags : Nat) : List (List Byte) :=
  (List.range l.k).map fun r => recordBytes e.token.toNat 0xFFFF 0xFFFF 0 r flags e.epoch

/-! ### Thresher messages and the seal (R390, R391) -/

/-- A Thresher message to a die of a peer (R391, R431, log entry 20). -/
def threshMessage (self peer : BitVec 12) (d : Fin 2) (die : Nat) (index thr ended signal : Nat) : FHead × List Byte :=
  ({ dpeer := peer.toNat, dloc := 8 * die, type := 0x20, speer := self.toNat, sloc := 8 * d.val, part := 0, cong := 0, cls := 0, circ := false, circid := 0, xtag := 0, tx := 0, atop := 0, atype := 0, mode := 0, status := 0, target := 0, opnd := 0, cmpv := 0 },
   leBytes 2 index ++ leBytes 2 thr ++ leBytes 4 ended ++ leBytes 8 signal)

/-- A done signal falls by 1, here or at the module whose seal named it (R391). -/
def State.doneSignal (s : State) (d : Fin 2) (r : ArmReq) : State :=
  let self := (s.dies[d]).self
  if r.peer == self then s.decrement d r.signal 1
  else
    let m := threshMessage self r.peer d r.die.val r.index r.thr 1 r.signal
    (s.sendOn d 0x40 0 m.1 0 (fabricPacket m.1 m.2)).1

/-- A failed arm request is counted (R391). -/
def State.armFailed (s : State) (d : Fin 2) : State := s.updThresher d fun t => { t with armfail := t.armfail + 1 }

/-- An arm request goes to the Thresher of its entry's DEST (R391); one that reaches no peer has failed. -/
def State.sendArm (s : State) (d : Fin 2) (dest : Word) (index thr signal : Nat) : State :=
  let self := (s.dies[d]).self
  let r : ArmReq := ⟨index, thr, signal, self, d, 0⟩
  if destPeer dest == self then s.updThresher (dieOf (dest.getLsbD 51)) fun t => t.arrive r
  else
    let m := threshMessage self (destPeer dest) d (wbits dest 51 1) index thr 0 signal
    let u := s.sendOn d 0x40 0 m.1 0 (fabricPacket m.1 m.2)
    if u.2 then u.1 else (s.armFailed d).doneSignal d r

/-- DEST of an index, 0 for one that was never written (R393). -/
def Die.destOf (d : Die) (index : Nat) : Word := match d.entry? index with | some e => e.dest | none => 0

/-- The count block of a layer (R390). -/
def Layer.countBlock (l : Layer) : List Byte :=
  (List.range l.nexp).flatMap fun e =>
    leBytes 2 (l.cnt.getD e 0) ++ leBytes 2 ((if l.ovf.getD e false then 1 else 0) + if l.hovf.getD e false then 2 else 0) ++ leBytes 4 (l.hist.getD e 0)

/-- The experts that a seal arms (R390). -/
def Layer.armed (l : Layer) : List Nat := if l.arm then (List.range l.nexp).filter fun e => l.cnt.getD e 0 != 0 else []

/-- A seal (R390): the count block, the seal record, the arm requests, and SEAL. -/
def State.sealLayer (s : State) (d : Fin 2) (l : Layer) (e : GateEntry) : State :=
  let es := l.armed
  let s1 := (s.devWrite l.cblk l.countBlock).writeRecords l [recordBytes (l.recs % 2 ^ 32) 0xFFFF 0 es.length 0 0x80 e.epoch]
  let s2 := if l.arm then s1.devWrite l.sealAddr (leBytes 8 (s1.devNat l.sealAddr 8 + es.length)) else s1
  let s3 := es.foldl (fun acc x => acc.sendArm d ((s.dies[d]).destOf (l.route0 + x)) (l.route0 + x) (l.cnt.getD x 0) l.sealAddr) s2
  (s3.signalDec l.sealAddr 1).updLayer d l.index fun _ => { l with closed := true }

/-- An entry leaves the gate queue. -/
def State.dropEntry (s : State) (d : Fin 2) : State := s.updThresher d fun t => { t with gq := t.gq.drop 1 }

/-- A discarded seal entry is counted (R384). -/
def State.discardSeal (s : State) (d : Fin 2) : State := (s.dropEntry d).updThresher d fun t => { t with disc := t.disc + 1 }

/-- An entry of the current epoch, not sealed yet (R384): routed, or the seal. -/
def State.routeEntry (s : State) (d : Fin 2) (l : Layer) (e : GateEntry) : State :=
  if e.isSeal then s.withRing d l 1 fun u => (u.dropEntry d).sealLayer d l e
  else
    let p := l.placeRanks e 0 (if l.mode = 2 then [hashRank (s.thresher d) l e] else topRanks l e)
    s.withRing d l l.k fun u => ((u.dropEntry d).writeRecords l p.2).updLayer d l.index fun _ => { p.1 with recs := l.recs + p.2.length }

/-- One pop (R384, R389): an entry whose records do not fit stays, and with it every pop; an entry of a layer that has been
disabled is discarded. An arm request is handled between two pops (R391). -/
def State.popEntry (s : State) (d : Fin 2) : State :=
  if (s.thresher d).arm.isSome then s
  else match (s.thresher d).gq with
  | [] => s
  | e :: _ =>
    match layerOf (s.thresher d).layers e.layer with
    | none => s.dropEntry d
    | some l =>
      let delta := (e.epoch - l.cur).toNat
      let spent (flags : Nat) : State :=
        if e.isSeal then s.discardSeal d
        else s.withRing d l l.k fun u => (u.dropEntry d).writeRecords l (emptyRecords l e flags)
      if delta = 0 then (if l.closed then spent 0x11 else s.routeEntry d l e)
      else if delta < 2 ^ 15 then s.routeEntry d (l.restart e.epoch) e
      else spent 0x09

/-- R384: the Thresher pops one gate entry. -/
def execGateEntryPop (die : Fin 2) : State → Out := runEvent fun s => s.popEntry die

/-! ### Arm requests (R391, R392) -/

/-- Adds to a word at a virtual address of a partition, atomically; a page that takes no such access is left alone (log
entry 17). -/
def State.addWord (s : State) (d : Fin 2) (part : BitVec 4) (va : Nat) (amount : Word) : State :=
  match s.signalHome d part va with | some pa => s.signalDec pa (-amount) | none => s

/-- Whether a destination names a die of this module. -/
def State.namesDie (s : State) (d : Fin 2) (dest : Word) : Bool := destPeer dest == (s.dies[d]).self && dest.getLsbD 51 == (d.val == 1)

/-- The queue of an entry's arm data. -/
def REntry.armQueue (e : REntry) : Fin 64 := ⟨e.queue.toNat % 64, Nat.mod_lt _ (by decide)⟩

/-- Whether a queue can take the arms of a partition (R392). -/
def Queue.takesArms (u : Queue) (part : BitVec 4) : Bool := u.kind && u.en && u.part == part && u.size.toNat ≤ 12

/-- The CRIBARM packet of an entry (R299, R391). -/
def armPacket (e : REntry) (thr : Nat) : List Byte :=
  [6, 0, 0, 0, 0, 0, 0, 0, byte (wbits e.dest 48 3), byte (wbits e.dest 44 4), byte (wbits e.dest 38 6), byte (e.mode.toNat + 8 * e.argslot.toNat)] ++
    leBytes 2 thr ++ leBytes 2 e.tmpl.toNat ++ List.replicate 48 0

/-- The number of commands that have been taken up: an EVICT that holds counts as one of them (R397, R399). -/
def Thresher.taken (t : Thresher) : Nat := t.tchead + if t.evict.isSome then 1 else 0

/-- Whether the commands that arrived before an arm request have been taken up (R399); a ring of no legal size has none. -/
def Thresher.armTurn (t : Thresher) (r : ArmReq) : Bool := decide (8 < wbits t.tcbase 0 4) || decide (r.after ≤ t.taken)

/-- The CRIBARM of the arm request in hand is placed once the ring has room (R392). -/
def State.placeArm (s : State) (d : Fin 2) : State :=
  match (s.thresher d).arm with
  | some a =>
    let u := s.queue d a.queue
    let settle (t : State) (b : ArmRun) : State := t.updThresher d fun t => { t with arm := some b }
    if a.placed.isSome || a.status.isSome then s
    else if !u.takesArms a.part then settle s { a with status := some 2 }
    else if ringSize u.size ≤ u.qtail - u.qhead then s
    else settle (s.enqueue d a.queue a.packet) { a with placed := some (a.queue, u.qtail) }
  | none => s

/-- The oldest arm request is taken up, in the order in which commands and requests arrive (R391, R392, R399): its entry is read,
the INUSE word rises, and the CRIBARM goes to the entry's queue, or waits for room there. -/
def State.takeArm (s : State) (d : Fin 2) : State :=
  let t := s.thresher d
  match t.arm, t.arms with
  | none, r :: rs =>
    let settle (u : State) (a : ArmRun) : State := u.updThresher d fun t => { t with arms := rs, arm := some a }
    let refused : ArmRun := ⟨r, 0, [], none, some 1, 0, 0⟩
    if !t.armTurn r then s
    else
      match (s.dies[d]).entry? r.index with
      | none => settle s refused
      | some e =>
        if !e.valid || !s.namesDie d e.dest then settle s refused
        else
          let a : ArmRun := ⟨r, e.armQueue, armPacket e r.thr, none, if 64 ≤ e.queue.toNat then some 2 else none, e.inuse, e.part⟩
          (settle (s.addWord d e.part e.inuse.toNat 1) a).placeArm d
  | some _, _ => s.placeArm d
  | none, [] => s

/-- R391: an arm request is taken up, or its command is placed. -/
def execArmRequest (die : Fin 2) : State → Out := runEvent fun s => s.takeArm die

/-- The arm request in hand ends once its status is known (R391): status 1 has raised no INUSE word. -/
def State.endArm (s : State) (d : Fin 2) : State :=
  match (s.thresher d).arm with
  | some a =>
    match a.status with
    | some st =>
      let s1 := if 2 ≤ st then s.addWord d a.part a.inuse.toNat (-1) else s
      let s2 := if st != 0 then s1.armFailed d else s1
      (s2.updThresher d fun t => { t with arm := none }).doneSignal d a.req
    | none => s
  | none => s

/-- R391: an arm request ends. -/
def execArmRequestDone (die : Fin 2) : State → Out := runEvent fun s => s.endArm die

/-! ### Commands (R398, R399) -/

/-- The ring of commands. -/
def Thresher.ring (t : Thresher) : Nat := 2 ^ (wbits t.tcbase 0 4 + 4)

/-- The address of the command at TCHEAD. -/
def Thresher.commandAt (t : Thresher) : Nat := wbits t.tcbase 6 44 * 64 + 64 * (t.tchead % t.ring)

/-- Whether a command stands at TCHEAD and may be taken: SIZE is legal, no EVICT holds, and no arm request that arrived before it
is still to be handled (R397-R399). -/
def Thresher.hasCommand (t : Thresher) : Bool :=
  wbits t.tcbase 0 4 ≤ 8 && decide (t.tchead < t.tctail) && t.evict.isNone && t.arm.isNone && t.arms.all fun r => decide (t.tchead < r.after)

/-- A command completes (R398): STATUS, then the signal, and TCHEAD rises. -/
def State.endCommand (s : State) (d : Fin 2) (status : Nat) : State :=
  let a := (s.thresher d).commandAt
  let sig := s.devNat (a + 8) 8
  let s1 := s.devWrite (a + 1) [byte status]
  (if sig = 0 then s1 else s1.decrement d sig 1).updThresher d fun t => { t with tchead := t.tchead + 1 }

/-- The bytes that a command's TYPE leaves reserved must be 0 (R398). -/
def commandOk (c : List Byte) : Bool :=
  recZero c 2 6 &&
    match recNat c 0 1 with
    | 1 => recZero c 25 39
    | 2 | 3 => recZero c 18 6 && recZero c 44 4 && recZero c 56 8
    | 4 => recZero c 24 40
    | _ => false

/-- Whether the Thresher of a die reads a command at TCHEAD: there is one, its ring is in reach (log entry 89), and the Thresher's
firmware is loaded (R415). -/
def State.readsCommand (s : State) (d : Fin 2) : Bool :=
  (s.thresher d).hasCommand && !s.severed d (s.thresher d).commandAt 64 && !s.pkg.halted

/-- The commands at TCHEAD that are none end with STATUS 0xFF (R398); the line of each command that is read is taken back from the
host (R407). -/
def State.skipBad (s : State) (d : Fin 2) : Nat → State
  | 0 => s
  | n + 1 =>
    if s.readsCommand d then
      let a := (s.thresher d).commandAt
      let u := s.touch a 64
      if commandOk (u.devRead a 64) then u else (u.endCommand d 0xFF).skipBad d n
    else s

/-- The command at TCHEAD, if it is one of a TYPE that `sel` selects. -/
def State.atHead (s : State) (d : Fin 2) (sel : List Byte → Bool) (f : List Byte → State → State) : State :=
  let n := (s.thresher d).tctail - (s.thresher d).tchead
  let u := s.skipBad d n
  let c := u.devRead (u.thresher d).commandAt 64
  if u.readsCommand d && sel c then f c u else u

/-- A write of TCTAIL (R4, R398). -/
def Thresher.doorbell (t : Thresher) (value : Word) : Thresher := { t with tctail := value.toNat }

/-- R398: a write to TCTAIL submits commands. -/
def execTctailDoorbell (die : Fin 2) (value : BitVec 64) : State → Out :=
  runLoaded fun s => s.updThresher die fun t => t.doorbell value

/-- A layer from its descriptor (R383), at the start of its epoch. -/
def layerFrom (index : Nat) (b : List Byte) : Layer :=
  let l : Layer := { index := index, mode := recNat b 0 1, k := recNat b 1 1, nexp := recNat b 2 2, cap := recNat b 4 2, route0 := recNat b 6 2, ring := recNat b 8 8, rsize := recNat b 16 1, arm := recBits b 17 0 1 = 1, seed := BitVec.ofNat 32 (recNat b 20 4), sealAddr := recNat b 24 8, cblk := recNat b 32 8, cur := 0, closed := false, recs := 0, cnt := [], hist := [], ovf := [], hovf := [] }
  l.restart (BitVec.ofNat 16 (recNat b 40 2))

/-- Whether an address lies in the Loft (R336). -/
def inLoft (a : Nat) : Bool := match physKind a with | .loft => true | _ => false

/-- The limits of a descriptor (R383): those of K and NEXP by MODE, and the others for every MODE. -/
def layerOk (b : List Byte) (l : Layer) : Bool :=
  recBits b 17 1 7 = 0 && recZero b 18 2 && recZero b 42 22 &&
    (l.mode = 0 || (l.mode = 1 && 1 ≤ l.k && l.k ≤ 8 && 4 ≤ l.nexp && l.nexp ≤ 256 && l.nexp % 4 = 0) ||
      (l.mode = 2 && l.k = 1 && 1 ≤ l.nexp && l.nexp ≤ 4096)) &&
    1 ≤ l.cap && l.route0 + l.nexp ≤ 4096 && l.ring % 64 = 0 && inLoft l.ring && 4 ≤ l.rsize && l.rsize ≤ 16 && l.sealAddr % 8 = 0 &&
    inLoft l.sealAddr && l.cblk % 8 = 0 && inLoft l.cblk

/-- LAYER (R383, R398, R399); a descriptor out of the die's reach is waited for (log entry 89). -/
def layerCommand (d : Fin 2) (c : List Byte) (s : State) : State :=
  let a := recNat c 16 8
  let n := recNat c 24 1
  if 63 < n then s.endCommand d 1
  else if s.severed d a 64 then s
  else
    let u := s.touch a 64
    let b := u.devRead a 64
    let l := layerFrom n b
    if !layerOk b l then u.endCommand d 1
    else (u.updThresher d fun t => { t with layers := l :: t.layers.filter fun x => x.index != n }).endCommand d 0

/-- R383: a LAYER command. -/
def execLayer (die : Fin 2) : State → Out := runEvent fun s => s.atHead die (fun c => recNat c 0 1 = 1) (layerCommand die)

/-- The limits of a ROUTE's or EVICT's payload (R393, R398). -/
def routeOk (c : List Byte) : Bool := recNat c 16 2 < 4096 && recNat c 42 1 < 64 && recBits c 43 0 2 != 3 && recBits c 43 5 3 = 0 && recNat c 48 8 % 8 = 0

/-- A model-routing entry as a ROUTE or EVICT writes it, with a generation (R393, R396). -/
def routeEntryOf (c : List Byte) (gen : Nat) : REntry :=
  { index := recNat c 16 2, dest := word (bitsOf (recNat c 24 8) 38 26 * 2 ^ 38 + gen % 2 ^ 16 * 2 ^ 16 + recNat c 16 2),
    ctrl := word (bitsOf (recNat c 32 8) 63 1 * 2 ^ 63 + bitsOf (recNat c 32 8) 56 4 * 2 ^ 56), tmpl := BitVec.ofNat 16 (recNat c 40 2),
    queue := BitVec.ofNat 8 (recNat c 42 1), mode := BitVec.ofNat 2 (recBits c 43 0 2), argslot := BitVec.ofNat 3 (recBits c 43 2 3),
    inuse := word (recNat c 48 8) }

/-- Writes an entry whole (R396). -/
def State.writeRoute (s : State) (d : Fin 2) (e : REntry) : State :=
  s.updThresher d fun t => { t with routes := e :: t.routes.filter fun x => x.index != e.index }

/-- Whether every pipeline of a die lies between two headers at parser entry (R396). -/
def State.dieQuiet (s : State) (d : Fin 2) : Bool := (List.finRange 16).all fun cl => clusterDie cl != d || (s.clusters[cl]).quiet

/-- GEN of a destination word (R393). -/
def destGen (w : Word) : Nat := wbits w 16 16

/-- ROUTE (R396, R398). -/
def routeCommand (d : Fin 2) (c : List Byte) (s : State) : State :=
  if !routeOk c then s.endCommand d 1
  else if !s.dieQuiet d then s
  else (s.writeRoute d (routeEntryOf c (destGen ((s.dies[d]).destOf (recNat c 16 2))))).endCommand d 0

/-- R396: a ROUTE command. -/
def execRoute (die : Fin 2) : State → Out := runEvent fun s => s.atHead die (fun c => recNat c 0 1 = 2) (routeCommand die)

/-- The crib of a destination on a die. -/
def destCrib (d : Fin 2) (dest : Word) : Fin 16 × Nat :=
  (⟨8 * d.val + wbits dest 48 3 % 8, by omega⟩, 64 * (wbits dest 44 4 % 16) + wbits dest 38 6 % 64)

/-- The old crib of an EVICT is disarmed if it is OPEN or ARMING and of the entry's partition, and INUSE falls by 1 (R397). -/
def State.evictCrib (s : State) (d : Fin 2) (e : REntry) : State :=
  let p := destCrib d e.dest
  let k := (s.clusters[p.1]).crib p.2
  let core := coreOf p.1 ⟨p.2 / 64 % 16, Nat.mod_lt _ (by decide)⟩
  if !s.namesDie d e.dest || k.part != e.part then s
  else if k.state = 2 then
    ((s.updCluster p.1 fun x => x.setCrib p.2 k.freed).updCore core fun x => x.giveTile (p.2 % 64) 0 false s.now).addWord d e.part e.inuse.toNat (-1)
  else if k.state = 1 then
    (s.updCluster p.1 fun x => x.setCrib p.2 { k with disarming := true }).addWord d e.part e.inuse.toNat (-1)
  else s

/-- EVICT (R397, R398). -/
def evictCommand (d : Fin 2) (c : List Byte) (s : State) : State :=
  if !routeOk c then s.endCommand d 1
  else
    match (s.dies[d]).entry? (recNat c 16 2) with
    | none => s.endCommand d 2
    | some e =>
      if !e.valid then s.endCommand d 2
      else if !s.dieQuiet d then s
      else
        ((s.writeRoute d (routeEntryOf c (destGen e.dest + 1))).evictCrib d e).updThresher d fun t => { t with evict := some ⟨e.inuse, e.part⟩ }

/-- R397: an EVICT command. -/
def execEvict (die : Fin 2) : State → Out := runEvent fun s => s.atHead die (fun c => recNat c 0 1 = 3) (evictCommand die)

/-- The INUSE word reads 0 and the EVICT completes (R397). -/
def State.evictDone (s : State) (d : Fin 2) : State :=
  match (s.thresher d).evict with
  | some e =>
    match s.signalHome d e.part e.inuse.toNat with
    | some pa =>
      let u := s.touch pa 8
      if u.devNat pa 8 = 0 then (u.updThresher d fun t => { t with evict := none }).endCommand d 0 else u
    | none => s
  | none => s

/-- R397: an EVICT completes. -/
def execEvictComplete (die : Fin 2) : State → Out := runEvent fun s => s.evictDone die

/-- Whether a key is the one of an OVERRIDE command. -/
def Override.named (o : Override) (c : List Byte) : Bool := o.token.toNat == recNat c 16 4 && o.layer == recNat c 20 1

/-- OVERRIDE with action 0 (R386, R398): an expert beyond the layer's, or another action than set and delete, is malformed. -/
def overrideSet (d : Fin 2) (c : List Byte) (s : State) : State :=
  let t := s.thresher d
  let nexp := match layerOf t.layers (recNat c 20 1) with | some l => l.nexp | none => 0
  let rest := t.overrides.filter fun o => !o.named c
  if recNat c 21 1 != 0 || nexp ≤ recNat c 22 2 then s.endCommand d 1
  else if 1024 ≤ rest.length then s.endCommand d 2
  else
    (s.updThresher d fun t => { t with overrides := ⟨BitVec.ofNat 32 (recNat c 16 4), recNat c 20 1, recNat c 22 2⟩ :: rest }).endCommand d 0

/-- R399: an OVERRIDE command that sets a key. -/
def execOverrideSet (die : Fin 2) : State → Out :=
  runEvent fun s => s.atHead die (fun c => recNat c 0 1 = 4 && recNat c 21 1 != 1) (overrideSet die)

/-- OVERRIDE with action 1 (R386, R398). -/
def overrideDelete (d : Fin 2) (c : List Byte) (s : State) : State :=
  let t := s.thresher d
  if t.overrides.any fun o => o.named c then
    (s.updThresher d fun t => { t with overrides := t.overrides.filter fun o => !o.named c }).endCommand d 0
  else s.endCommand d 3

/-- R399: an OVERRIDE command that deletes a key. -/
def execOverrideDelete (die : Fin 2) : State → Out :=
  runEvent fun s => s.atHead die (fun c => recNat c 0 1 = 4 && recNat c 21 1 = 1) (overrideDelete die)

end Sys2Proof.Machine
end

