-- ==== Sys2Proof/Machine/Package.lean ====
section
/-! DEFINITION. The package (spec/16): the management registers (R409, with those of the other chapters), partitions (R411,
R412), host memory accesses and links (R404, R407), boot, measurement and SPDM (R415, R416), ageing and power (R417-R419),
freeze and readout (R420). -/
namespace Sys2Proof.Machine

/-- Changes the package. -/
def State.updPkg (s : State) (f : Package → Package) : State := { s with pkg := f s.pkg }

/-! ### The host's memory (R404, R407) -/

/-- A host reaches the memory whose home is a die: the die's link is up, or the other one is and the die-to-die link carries on,
the boot has not failed, and the clocks run (R402, R404, R415, R420). -/
def Package.hostReaches (p : Package) (d : Fin 2) : Bool :=
  (p.links[d] || (p.links[1 - d] && !p.d2dLost)) && !p.halted && p.frz = 0

/-- One byte that the host writes (R354, R407): HBM and the Loft through their home, host memory behind every Barn; there is
no path to the gate windows. A write of the Loft may satisfy a task that waits for a signal (R133). -/
def State.hostWriteByte (s : State) (a : Nat) (b : Byte) : State :=
  match physKind a with
  | .hbm d => if s.pkg.hostReaches d then s.devWriteByte a b else s
  | .loft => if s.pkg.hostReaches 0 then { s.devWriteByte a b with reread := true } else s
  | .host _ => { s with mem := writeCell s.mem a b }
  | _ => s

/-- The 64-byte lines of the Loft that some bytes lie in. -/
def loftLines (a n : Nat) : List Nat :=
  (((List.range n).filter fun k => match physKind (a + k) with | .loft => true | _ => false).map fun k => hostLineOf (a + k)).eraseDups

/-- Whether the host holds a line of the Loft in modified or exclusive state (R407). -/
def Package.hostOwns (p : Package) (line : Nat) : Bool := p.hostLines.any fun l => l.1 == line && l.2

/-- The host holds a copy of the lines of the Loft that it has accessed: modified where it wrote them, else shared unless it held
them modified before (R407, log entry 61). -/
def State.hostHolds (s : State) (a n : Nat) (wrote : Bool) : State :=
  let ls := loftLines a n
  if ls.isEmpty || !s.pkg.hostReaches 0 then s
  else s.updPkg fun p =>
    { p with hostLines := ls.map (fun l => (l, wrote || p.hostOwns l)) ++ p.hostLines.filter fun l => !ls.contains l.1 }

/-- Bytes that the host writes. -/
def State.hostWrite (s : State) (a : Nat) (bs : List Byte) : State := (cellsAt a bs).foldl (fun acc c => acc.hostWriteByte c.1 c.2) s

/-- One byte that the host reads (R354, R407): host memory behind every Barn, the device's memory through its home. -/
def State.hostByte (s : State) (a : Nat) : Byte := match physKind a with | .host _ => readCell s.mem a | _ => s.devByte a

/-- What a host atomic on a word of `w` bits leaves there, none where it does not write (R363). -/
def hostAtomic (w : Nat) (op : HostOp) (old v : Nat) : Option Nat :=
  match op with
  | .add => some ((old + v) % 2 ^ w)
  | .swap => some v
  | .cas c => if old = c.toNat % 2 ^ w then some v else none
  | .and => some (old &&& v)
  | .or => some (old ||| v)
  | .read | .write => none

/-- What a host access does to memory: a read nothing, and an atomic, which is one on an aligned word of 4 or 8 bytes, one
step between its read and its write (R363, R407). -/
def State.hostAccess (s : State) (a : Nat) (op : HostOp) (data : List Byte) : State :=
  match op with
  | .read => s
  | .write => s.hostWrite a data
  | op =>
    let n := data.length
    if (n != 4 && n != 8) || a % n != 0 then s
    else
      match hostAtomic (8 * n) op (leNat ((List.range n).map fun k => s.hostByte (a + k))) (leNat data) with
      | some v => s.hostWrite a (leBytes n v)
      | none => s

/-- R407: a host access; the host's own memory takes it while the module's clocks stand, too (R420). -/
def execHostMemoryAccess (addr : Nat) (op : HostOp) (data : List Byte) : State → Out :=
  runService fun s => (s.hostAccess addr op data).hostHolds addr data.length (op != .read)

/-- R404: a host link changes its state. -/
def execCxlLinkChange (link : Fin 2) (up : Bool) : State → Out :=
  runService fun s => if s.pkg.links[link] = up then s else s.updPkg fun p => { p.interrupt 4 with links := p.links.set link up }

/-! ### Partitions (R411, R412) -/

/-- A write of PARTMAP (R411): it takes effect once both banks of the core are empty. -/
def State.writePartmap (s : State) (c : Fin 256) (value : Word) : State :=
  (s.updPkg fun p => { p with partNext := (p.partNext.filter fun w => w.1 != c) ++ [(c, value.setWidth 8 &&& 0x8F)] }).settlePartmap

/-- R411: a core is assigned to a partition. -/
def execPartmapWrite (core : Fin 256) (value : BitVec 64) : State → Out := runLoaded fun s => s.writePartmap core value

/-- The first step of a reset (R412): the partition's job is cancelled on both dies, once the clocks run (R420). -/
def State.resetCancel (s : State) : State :=
  match s.pkg.rstRun with
  | some part =>
    if s.pkg.rstCancel && s.pkg.frz = 0 then
      ((s.updPkg fun p => { p with rstCancel := false }).cancelBy 0 part 4 part.toNat 0).cancelBy 1 part 4 part.toNat 0
    else s
  | none => s

/-- A write of RSTPART (R412): PART takes the value, and GO starts a reset unless one runs. -/
def State.writeRstpart (s : State) (value : Word) : State :=
  let part := BitVec.ofNat 4 (wbits value 0 4)
  let s1 := s.updPkg fun p => { p with rstPart := part }
  if value.getLsbD 4 && s.pkg.rstRun.isNone then (s1.updPkg fun p => { p with rstRun := some part, rstCancel := true }).resetCancel
  else s1

/-- R412: a partition's reset begins. -/
def execPartitionReset (value : BitVec 64) : State → Out := runLoaded fun s => s.writeRstpart value

/-- Whether a task of a partition is not RETIRED on a die. -/
def Granger.busy (g : Granger) (part : BitVec 4) : Bool :=
  g.tasks.any fun t => match g.launch? t.lid with | some l => l.part == part | none => false

/-- A stage without a partition's tables, programs and regions (R412). -/
def Stage.forget (st : Stage) (part : BitVec 4) : Stage :=
  { tables := st.tables.filter fun t => t.part != part, programs := st.programs.filter fun p => p.part != part,
    regions := st.regions.filter fun r => r.part != part, cells := st.cells.filter fun c => c.part != part,
    pairs := st.pairs.filter fun c => c.part != part }

/-- A pipeline without a partition's tables, programs, regions and signal table (R412). -/
def Cluster.forget (k : Cluster) (part : BitVec 4) : Cluster :=
  { k with stages := k.stages.map fun st => st.forget part, signals := k.signals.filter fun e => e.part != part }

/-- A core without a partition's instruction-store rows, leases and locks (R412). -/
def Core.forget (k : Core) (part : BitVec 4) : Core :=
  let rows := (k.istore.filter fun r => r.part == part).map fun r => r.addr
  let clear (x : Context) : Context := if x.partId == part then { x with locks := x.locks.filter fun a => !rows.contains a } else x
  { (k.modCtx false clear).modCtx true clear with
      istore := k.istore.filter (fun r => r.part != part), leases := k.leases.filter fun l => l.part != part }

/-- Whether an override key belongs to a partition: that of the model-routing entry of its expert (R393, R412). -/
def Thresher.overrideOf (t : Thresher) (part : BitVec 4) (o : Override) : Bool :=
  match t.layers.find? fun l => l.index == o.layer with
  | some l => (match t.routes.find? fun e => e.index == l.route0 + o.expert with | some e => e.part == part | none => false)
  | none => false

/-- A die without a partition's override keys and with its job counter clear (R412). -/
def Die.forget (d : Die) (part : BitVec 4) : Die :=
  { d with thresher := { d.thresher with overrides := d.thresher.overrides.filter fun o => !d.thresher.overrideOf part o },
           granger := { d.granger with jobs := d.granger.jobs.set part.toFin { d.granger.jobs[part.toFin] with cancel := false } } }

/-- The end of a partition's reset, once every task of it has retired (R412). -/
def State.resetPartition (s0 : State) : State :=
  let s := s0.resetCancel
  match s.pkg.rstRun with
  | some part =>
    if (s.granger 0).busy part || (s.granger 1).busy part then s
    else
      { s with clusters := s.clusters.map (fun k => k.forget part), cores := s.cores.map (fun k => k.forget part),
               dies := s.dies.map (fun d => d.forget part), pkg := { s.pkg with rstRun := none } }
  | none => s

/-- R412: a partition's reset ends. -/
def execPartitionResetDone : State → Out := runEvent State.resetPartition

/-! ### Freeze and readout (R420) -/

/-- REQ: every clock stops. -/
def Package.freezeNow (p : Package) : Package := if p.frz = 0 then { p with frz := 1 } else p

/-- SCAN: a non-destructive readout starts in state 1. -/
def Package.scanNow (p : Package) : Package := if p.frz = 1 then { p with frz := 2, dscan := false } else p

/-- THAW: in state 3 every clock restarts, and the links retrain. -/
def Package.thawNow (p : Package) : Package :=
  if p.frz = 3 then { p with frz := 0, ports := p.ports.map fun q => if q.width = 0 then q else q.retrain } else p

/-- DSCAN: a destructive readout starts in state 1 or 3. -/
def Package.dscanNow (p : Package) : Package := if p.frz = 1 || p.frz = 3 then { p with frz := 2, dscan := true } else p

/-- Once the clocks run again, the fault service takes up the answers that came while they stood, in their order (R350, R420). -/
def State.answersDue (s : State) (d : Fin 2) : State :=
  if s.pkg.frz = 0 then (s.dies[d]).answers.foldl (fun acc w => acc.writeFans d w) (s.updDie d fun x => { x with answers := [] }) else s

/-- What follows a thaw. -/
def State.thawed (s : State) : State := ((s.answersDue 0).answersDue 1).resetCancel

/-- R420: the FREEZE pin or REQ. -/
def execFreeze : State → Out := runService fun s => s.updPkg Package.freezeNow

/-- R420: SCAN. -/
def execScan : State → Out := runLoaded fun s => s.updPkg Package.scanNow

/-- R420: DSCAN. -/
def execDscan : State → Out := runLoaded fun s => s.updPkg Package.dscanNow

/-- R420: THAW. -/
def execThaw : State → Out := runLoaded fun s => (s.updPkg Package.thawNow).thawed

/-- R420: a readout ends; what it brings is read from its first word on. -/
def execReadoutDone : State → Out :=
  runService fun s =>
    if s.pkg.frz = 2 then (s.updPkg fun p => { p with frz := if p.dscan then 4 else 3, scanRun := s.free, scanPos := 0 }).draw else s

/-- A write of FRZCTL (R420). -/
def Package.writeFrzctl (p : Package) (value : Word) : Package :=
  let p1 := if value.getLsbD 0 then p.freezeNow else p
  let p2 := if value.getLsbD 1 then p1.scanNow else p1
  let p3 := if value.getLsbD 2 then p2.thawNow else p2
  if value.getLsbD 3 then p3.dscanNow else p3

/-! ### Registers without a behaviour of their own (R4, R409) -/

/-- Sets a numbered word; one that is 0 is not listed. -/
def setWordAt (ws : List (Nat × Word)) (n : Nat) (w : Word) : List (Nat × Word) :=
  let rest := ws.filter fun e => e.1 != n
  if w = 0 then rest else (n, w) :: rest

/-- A write of QBASE or JBASE is ignored while EN or ACT is 1 (R314). -/
def State.writeQueueBase (s : State) (d : Fin 2) (q : Fin 64) (f : Queue → Queue) : State :=
  if (s.queue d q).en || (s.granger d).active q then s else s.updQueue d q f

/-- Bits 51:6 of a register. -/
def maskRing : Word := 0x000FFFFFFFFFFFC0

/-- A write of a slot cell (R435): slot 255 is ignored, and an IN that names no port is refused. -/
def Die.writeSlot (d : Die) (slot : BitVec 8) (port : BitVec 5) (value : Word) : Die :=
  if slot = 255 || 64 < wbits value 24 7 then d else { d with slots := setWordAt d.slots (32 * slot.toNat + port.toNat) (value &&& 0xFFF000FF) }

/-- A write of HIRQEN (R410): a cause that stands in HIRQ and becomes enabled raises its vector (log entry 78). -/
def Package.writeHirqen (p : Package) (value : BitVec 6) : Package :=
  { p with hirqen := value, msix := p.msix ++ (List.range 6).filter fun n => p.hirq.getLsbD n && value.getLsbD n && !p.hirqen.getLsbD n }

/-- The registers that a device offers after its boot has failed (R415): those of CXL.io's interrupts, and the recovery upload
region. -/
def regAfterHalt : MgmtReg → Bool
  | .hirq | .hirqen | .bootst | .recovery _ => true
  | _ => false

/-- A management write of 8 bytes (R4, R409): fields of read-only registers and reserved bits do not change. -/
def State.writeReg (s : State) (r : MgmtReg) (value : Word) : State :=
  match r with
  | .hirq => s.updPkg fun p => { p with hirq := p.hirq &&& ~~~(value.setWidth 6) }
  | .hirqen => s.updPkg fun p => p.writeHirqen (value.setWidth 6)
  | .discovery _ => s
  | .measurement _ => s
  | .scanWindow => s
  | .recovery n => if s.pkg.halted then s.updPkg fun p => { p with recovery := setWordAt p.recovery n value } else s
  | .partmap c => s.writePartmap c value
  | .rstpart => s.writeRstpart value
  | .bootst => s
  | .clkstat _ => s
  | .pwrcap => s.updPkg fun p => { p with pwrcap := value.setWidth 12 }
  | .frzctl => (s.updPkg fun p => p.writeFrzctl value).thawed
  | .qbase d q => s.writeQueueBase d q fun u => { u with qbase := value &&& maskRing }
  | .jbase d q => s.writeQueueBase d q fun u => { u with jbase := value &&& maskRing }
  | .qtail d q => (s.updQueue d q fun u => u.doorbell value).fetch d q
  | .qhead _ _ => s
  | .qcfg d q => (s.writeQcfg d q value).fetch d q
  | .troot d part => s.updDie d fun x => { x with troot := x.troot.set part.toFin (value &&& 0x0003FFFFFFFFF001) }
  | .frbase d => s.updDie d fun x => { x with frbase := value &&& 0x0003FFFFFFFE0000 }
  | .fans d => s.fansWrite d value
  | .invaddr d => s.updDie d fun x => { x with invaddr := value &&& 0x000FFFFFFFFF0000 }
  | .invctl d => s.updDie d fun x => x.writeInvctl value
  | .tcbase d => s.updThresher d fun t => { t with tcbase := value &&& 0x0003FFFFFFFFFFCF }
  | .tctail d => s.updThresher d fun t => t.doorbell value
  | .tchead _ => s
  | .tstat _ => s
  | .portcfg cl j => s.updCluster cl fun k => { k with portcfg := k.portcfg.set j (value &&& 0xF01) }
  | .pstart cl part => s.updCluster cl fun k => { k with pstart := k.pstart.set part.toFin (value &&& 0x7F) }
  | .counter _ _ => s
  | .cntclr cl => s.updCluster cl fun k => k.clearCounters value
  | .violrec cl => s.updCluster cl fun k => { k with violrec := k.violrec &&& ~~~(value &&& 1) }
  | .fabcfg _ => s
  | .portstat _ => s
  | .slot d slot port => s.updDie d fun x => x.writeSlot slot port value
  | .aptab d part a =>
    if a = 0 then s else s.updDie d fun x => { x with aptab := setWordAt x.aptab (32 * part.toNat + a.toNat) (value &&& 0x800000FF00000FFF) }
  | .winbase d part w =>
    s.updDie d fun x => { x with winbase := setWordAt x.winbase (256 * part.toNat + w.toNat) (value &&& 0x800FFFFFFFFF0000) }
  | .winctl d part w =>
    s.updDie d fun x => { x with winctl := setWordAt x.winctl (256 * part.toNat + w.toNat) (value &&& 0x000000FFFFFFFFF7) }
  | .allot _ _ => s

/-- R4, R409: a management write; one of another width or alignment writes nothing, and so does one to a unit that a failed boot has
left unloaded (R415). -/
def execRegisterWrite (reg : MgmtReg) (aligned : Bool) (value : BitVec 64) : State → Out :=
  runService fun s => if aligned && (!s.pkg.halted || regAfterHalt reg) then s.writeReg reg value else s

/-- A bit as a number. -/
def bitNat (b : Bool) : Nat := if b then 1 else 0

/-- QCFG as it reads (R313): ACT is 1 while a fetched command of the queue has no terminal journal state. -/
def Queue.readConfig (u : Queue) (active : Bool) : Word :=
  word (bitNat u.en + 2 * bitNat active + 2 ^ 20 * u.size.toNat + 2 ^ 24 * u.pmax.toNat + 2 ^ 27 * bitNat u.kind + 2 ^ 28 * u.part.toNat)

/-- TSTAT (R398): ARMFAIL, DISC and the words in the gate queue. -/
def Thresher.stat (t : Thresher) : Word := word (2 ^ 48 * t.armfail.toNat + 2 ^ 32 * t.disc.toNat + t.occupancy)

/-- PORTSTAT (R427). -/
def Port.stat (p : Port) : Word :=
  word (2 ^ 32 * p.replays.toNat + 2 ^ 16 * p.retrains.toNat + 128 * bitNat p.cdeg + 4 * p.width.toNat + bitNat p.up)

/-- CLKSTAT (R418). -/
def ClkStat.word (c : ClkStat) : Word := Machine.word (2 ^ 8 * c.vstep.toNat + 128 * bitNat c.off + c.freq.toNat)

/-- What the discovery table holds (R372). -/
def discovery : List (String × Nat) :=
  [("dev.hash", Config.deviceHash.toNat), ("granary.bytes", 1572864), ("granary.rows", 2048), ("tile.bytes", 24576), ("tile.count", 64),
   ("vreg.bytes", 512), ("vreg.count", 32), ("vreg.rot", 24), ("ilock.max", 32), ("gang.max", 16), ("acc.rows", 1024), ("mx.cols", 64),
   ("mx.k8", 192), ("mx.k4", 384), ("mx.k16", 96), ("mx.qdepth", 16), ("wain.qdepth", 16), ("tok.count", 32), ("seg.max", 64),
   ("cores.cluster", 16)]

/-- An entry of 64 bytes: a key of 32 bytes, a value of 8 bytes, and 24 bytes of 0 (R409, log entry 56). -/
def discoveryEntry (k : String) (v : Nat) : List Byte :=
  ((k.toList.map fun (c : Char) => byte c.toNat) ++ List.replicate 32 0).take 32 ++ leBytes 8 v ++ List.replicate 24 0

/-- What a management read of 8 bytes at an offset of the discovery table returns (R372, R409): beyond the last entry, 0. -/
def discoveryRead (off : Nat) : Word :=
  word (leNat (((discovery.flatMap fun e => discoveryEntry e.1 e.2).drop off).take 8))

/-- The measurement log as the management space shows it (R409, R416): for each extension the register's number in 8 bytes and
the digest in 48 (log entry 56); beyond the last, 0. -/
def Package.logRead (p : Package) (off : Nat) : Word :=
  word (leNat (((p.log.flatMap fun e => leBytes 8 e.1 ++ beBytes 48 e.2.toNat).drop off).take 8))

/-- What a management read of 8 bytes returns (R4, R409): a write-only field reads as 0, and PARTMAP reads as last written
(R411). What a readout brings to the scan window is free (R420, log entry 5): the word at the position that the reads before
have left. -/
def State.readReg (s : State) (r : MgmtReg) : Word :=
  match r with
  | .hirq => zext64 s.pkg.hirq
  | .hirqen => zext64 s.pkg.hirqen
  | .partmap c => zext64 (match s.pkg.partNext.find? fun w => w.1 == c with | some w => w.2 | none => s.pkg.partmap[c])
  | .rstpart => word (2 ^ 63 * bitNat s.pkg.rstRun.isSome + s.pkg.rstPart.toNat)
  | .bootst => s.pkg.bootst
  | .clkstat cl => (s.pkg.clk[cl]).word
  | .pwrcap => zext64 s.pkg.pwrcap
  | .frzctl => word (16 * s.pkg.frz.toNat)
  | .qbase d q => (s.queue d q).qbase
  | .jbase d q => (s.queue d q).jbase
  | .qtail d q => word (s.queue d q).qtail
  | .qhead d q => word (s.queue d q).qhead
  | .qcfg d q => (s.queue d q).readConfig ((s.granger d).active q)
  | .troot d part => (s.dies[d]).troot[part.toFin]
  | .frbase d => (s.dies[d]).frbase
  | .fans _ => 0
  | .invaddr d => (s.dies[d]).invaddr
  | .invctl d => (s.dies[d]).invctl ||| word (2 ^ 63 * bitNat (s.dies[d]).invRun.isSome)
  | .tcbase d => (s.dies[d]).thresher.tcbase
  | .tctail d => word (s.dies[d]).thresher.tctail
  | .tchead d => word (s.dies[d]).thresher.tchead
  | .tstat d => (s.dies[d]).thresher.stat
  | .portcfg cl j => (s.clusters[cl]).portcfg[j]
  | .pstart cl part => (s.clusters[cl]).pstart[part.toFin]
  | .counter cl n => (s.clusters[cl]).counters[n]
  | .cntclr _ => 0
  | .violrec cl => (s.clusters[cl]).violrec
  | .fabcfg d => (s.dies[d]).fabcfg
  | .portstat j => (s.pkg.ports[j]).stat
  | .slot d slot port => wordAt (s.dies[d]).slots (32 * slot.toNat + port.toNat)
  | .aptab d part a => (s.dies[d]).aperture part a.toNat
  | .winbase d part w => wordAt (s.dies[d]).winbase (256 * part.toNat + w.toNat)
  | .winctl d part w => wordAt (s.dies[d]).winctl (256 * part.toNat + w.toNat)
  | .allot cl part => (s.clusters[cl]).allot[part.toFin]
  | .discovery n => discoveryRead (8 * n)
  | .measurement n => s.pkg.logRead (8 * n)
  | .scanWindow => if s.pkg.frz = 3 || s.pkg.frz = 4 then Config.scanBits s.pkg.scanRun s.pkg.scanPos else 0
  | .recovery _ => 0

/-- The register at an offset of a die's region (R422, R427, R435, R440, R441), for those whose offset the spec gives. -/
def dieRegAt (d : Fin 2) (off : Nat) : Option MgmtReg :=
  if 0x800000 ≤ off && off < 0x801000 then some (.aptab d (BitVec.ofNat 4 (off / 256)) (BitVec.ofNat 5 (off / 8)))
  else if 0x810000 ≤ off && off < 0x820000 then
    let part := BitVec.ofNat 4 (off / 4096)
    let w := BitVec.ofNat 8 (off / 16)
    some (if off % 16 = 0 then .winbase d part w else .winctl d part w)
  else if 0x820000 ≤ off && off < 0x830000 then some (.slot d (BitVec.ofNat 8 (off / 256)) (BitVec.ofNat 5 (off / 8)))
  else if off = 0x830000 then some (.fabcfg d)
  else
    let j := (off - 0x830100) / 8
    if h : 0x830100 ≤ off ∧ j < 48 then (if decide (32 ≤ j) == (d.val == 1) then some (.portstat ⟨j, h.2⟩) else none) else none

/-- The register at an offset of the management space (R409), for those whose offset the spec gives. -/
def regAt (off : Nat) : Option MgmtReg :=
  if 0x10000 ≤ off && off < 0x20000 then some (.discovery ((off - 0x10000) / 8))
  else if 0x20000 ≤ off && off < 0x1000000 then some (.measurement ((off - 0x20000) / 8))
  else if 0x1000000 ≤ off && off < 0x2000000 then dieRegAt 0 (off - 0x1000000)
  else if 0x2000000 ≤ off && off < 0x3000000 then dieRegAt 1 (off - 0x2000000)
  else none

/-- A management read at an offset (R409): one of another width or alignment, or where no register lies, reads 0. -/
def State.readAt (s : State) (off width : Nat) : Word :=
  if width = 8 && off % 8 = 0 then (match regAt off with | some r => s.readReg r | none => 0) else 0

/-- What a management read leaves: one of the scan window moves on to the readout's next word (R420). -/
def State.afterRead (s : State) (r : MgmtReg) : State :=
  match r with
  | .scanWindow => if s.pkg.frz = 3 || s.pkg.frz = 4 then s.updPkg fun p => { p with scanPos := p.scanPos + 1 } else s
  | _ => s

/-! ### Boot and measurement (R415, R416) -/

/-- What the Reeve writes from a configuration blob (R377, R409, R415, R422). -/
def State.reeveWrite (s : State) (r : MgmtReg) (value : Word) : State :=
  match r with
  | .fabcfg d => s.updDie d fun x => { x with fabcfg := value &&& 0x0FFF0FFF }
  | .allot cl part => s.updCluster cl fun k => { k with allot := k.allot.set part.toFin value }
  | r => s.writeReg r value

/-- A measurement register is extended, and the log lists it (R416). -/
def Package.extend (p : Package) (n : Fin 16) (digest : BitVec 384) : Package :=
  { p with mr := p.mr.set n (sha384 (beBytes 48 (p.mr[n]).toNat ++ beBytes 48 digest.toNat)), log := p.log ++ [(n.val, digest)] }

/-- A failed verification (R415): the boot halts, and BOOTST holds what the spec does not state (log entry 5). -/
def State.haltBoot (s : State) : State := (s.updPkg fun p => { p.interrupt 5 with bootst := Config.freeBits 64 s.free, halted := true }).draw

/-- The table tiles of a partition in a core (R200, R377): a tile that is named and free becomes one, and one that is no longer named
becomes free. -/
def Core.tableTiles (k : Core) (part : BitVec 4) (tiles : Word) (now : Nat) : Core :=
  (List.finRange 64).foldl (fun acc t =>
    let x := acc.tiles[t]
    if tiles.getLsbD t.val then (if x.owner = 0 then acc.partTile t.val 7 part now else acc)
    else if x.owner = 7 && x.part == part then acc.giveTile t.val 0 false now else acc) k

/-- Whether the system profile's memory of a pipeline fits, 64 KiB a stage, the parser states with stage 0 (R263, log entry 30). -/
def Cluster.sysFits (k : Cluster) : Bool :=
  (List.finRange 16).all fun st => decide ((k.sysStages[st]).room 0 + (if st = 0 then 64 * k.sysParser.length else 0) ≤ 65536)

/-- A change of the system profile of a pipeline, made where it fits. -/
def State.sysWrite (s : State) (cl : Fin 16) (f : Cluster → Cluster) : State :=
  s.updCluster cl fun k => if (f k).sysFits then f k else k

/-- What the Reeve writes from a verified image (R263, R377, R409, R411, R415). -/
def State.reeveDo (s : State) (w : ReeveWrite) : State :=
  match w with
  | .reg r v => s.reeveWrite r v
  | .sysParser cl n v => s.sysWrite cl fun k => { k with sysParser := (n.toNat, v) :: k.sysParser.filter fun p => p.1 != n.toNat }
  | .sysRecord cl kind st index payload =>
    s.sysWrite cl fun k =>
      match (k.sysStages[st]).applyRec true 0 ⟨kind, st.val, index, payload⟩ with
      | some x => { k with sysStages := k.sysStages.set st x }
      | none => k
  | .tables cl st part tiles => s.updCore (coreOf cl st) fun k => k.tableTiles part tiles s.now

/-- The register that an image extends (R415, R416): that of its step, or the one from MR4 on that a configuration blob names. -/
def bootRegister (i : BootImage) : Fin 16 := if i.step = 2 ∧ 4 ≤ i.mr.toNat then i.mr.toFin else ⟨i.step.val, by omega⟩

/-- The images in the order of their steps (R415): a verification that fails halts the boot; a configuration blob below the security
version of the firmware's manifest is refused and loads nothing; any other image is measured and the Reeve writes what it holds. -/
def State.bootFrom (s : State) (floor : Nat) : List BootImage → State
  | [] => s
  | i :: more =>
    if !i.verified then s.haltBoot
    else if i.step = 2 && decide (i.version < floor) then s.bootFrom floor more
    else
      (i.writes.foldl State.reeveDo (s.updPkg fun p => { p.extend (bootRegister i) i.digest with booted := p.booted + 1 })).bootFrom
        (if i.step = 0 then i.version else floor) more

/-- The images of a boot in the order of their steps (R415), the configuration blobs in their step. -/
def bootOrder (images config : List BootImage) : List BootImage :=
  (List.finRange 4).flatMap fun n => (images.filter fun i => i.step == n) ++ if n = 2 then config.map fun i => { i with step := 2 } else []

/-- R415: the Reeve boots, once after a reset. -/
def execBoot (images config : List BootImage) : State → Out :=
  runService fun s => if s.pkg.booted = 0 && !s.pkg.halted then s.bootFrom 0 (bootOrder images config) else s

/-- A response on the DOE mailbox (R416): what the spec leaves to SPDM 1.3 is free (log entry 14). -/
def spdmWord (code : Nat) (measured : Bool) : State → Out :=
  runService fun s =>
    (s.updPkg fun p => { p with doe := some ⟨code, if measured then p.log else [], if measured then p.mr.toList else [], Config.freeBits 768 s.free⟩ }).draw

/-- R416: GET_VERSION. -/
def execGetVersion : State → Out := spdmWord 0x84 false

/-- R416: GET_CAPABILITIES. -/
def execGetCapabilities : State → Out := spdmWord 0xE1 false

/-- R416: NEGOTIATE_ALGORITHMS. -/
def execNegotiateAlgorithms : State → Out := spdmWord 0xE3 false

/-- R416: GET_DIGESTS. -/
def execGetDigests : State → Out := spdmWord 0x81 false

/-- R416: GET_CERTIFICATE. -/
def execGetCertificate : State → Out := spdmWord 0x82 false

/-- R416: CHALLENGE. -/
def execChallenge : State → Out := spdmWord 0x83 false

/-- R416: GET_MEASUREMENTS: the log and the registers, signed. -/
def execGetMeasurements : State → Out := spdmWord 0xE0 true

/-! ### Ageing and power (R417-R419) -/

/-- The cores of a cluster. -/
def clusterCores (cl : Fin 16) : List (Fin 256) := (List.finRange 16).map fun n => coreOf cl n

/-- A cluster is disabled (R417): its PARTMAP entries lose EN and its tasks are to be pre-empted. -/
def State.disableCluster (s : State) (cl : Fin 16) : State :=
  let s1 := (clusterCores cl).foldl (fun acc c =>
    acc.updCore c fun k =>
      { (k.modCtx false fun x => { x with preempt := true }).modCtx true fun x => { x with preempt := true } with disabled := true }) s
  s1.updPkg fun p =>
    { p.interrupt 2 with
        clk := p.clk.set cl { p.clk[cl] with off := true },
        partmap := Vector.ofFn (fun c => if clusterOf c = cl then p.partmap[c] &&& 0x7F else p.partmap[c]),
        partNext := p.partNext.map fun w => if clusterOf w.1 = cl then (w.1, w.2 &&& 0x7F) else w }

/-- A cluster's clock falls by 100 MHz (R417): its cores freeze for up to 2 µs, which the spec does not fix (log entry 5). -/
def State.slowCluster (s : State) (cl : Fin 16) : State :=
  let n := (Config.freeBits 16 s.free).toNat % 5401
  let s1 := (clusterCores cl).foldl (fun acc c => acc.updCore c fun k => { k with freeze := k.freeze + n }) s.draw
  s1.updPkg fun p => { p.interrupt 2 with clk := p.clk.set cl { p.clk[cl] with freq := p.clk[cl].freq - 1 } }

/-- R417: a re-plan raises the voltage, lowers the clock, or disables a cluster that would need less than 2.1 GHz. -/
def execAgeingReplan (cluster : Fin 16) (volts : Bool) : State → Out :=
  runEvent fun s =>
    let k := s.pkg.clk[cluster]
    if k.off then s
    else if volts then s.updPkg fun p => { p with clk := p.clk.set cluster { k with vstep := k.vstep + 1 } }
    else if k.freq.toNat ≤ 21 then s.disableCluster cluster
    else s.slowCluster cluster

/-- The power limit in watts (R419). -/
def Package.powerLimit (p : Package) : Nat := if p.pwrcap = 0 || 2600 < p.pwrcap.toNat then 2600 else p.pwrcap.toNat

/-- R419: power above the cap adds freeze clocks to a core. -/
def execPowerThrottle (watts : Nat) (core : Fin 256) (clocks : Nat) : State → Out :=
  runEvent fun s =>
    if s.pkg.powerLimit < watts then
      (s.updCore core fun k => { k with freeze := k.freeze + clocks }).updPkg fun p => p.interrupt 3
    else s

end Sys2Proof.Machine
end

