-- ==== Sys2Proof/Machine/Dispatch.lean ====
section
/-! DEFINITION. The dispatch: one arm per constructor of `Instr`, each a direct call of that instruction's meaning. -/
namespace Sys2Proof.Machine

def exec (i : Instr) (s : State) : Host.Outcome State Fault Refusal :=
  match i with
  | .add g rd rs rt => Sys2Proof.Machine.execAdd g rd rs rt s
  | .sub g rd rs rt => Sys2Proof.Machine.execSub g rd rs rt s
  | .and g rd rs rt => Sys2Proof.Machine.execAnd g rd rs rt s
  | .or g rd rs rt => Sys2Proof.Machine.execOr g rd rs rt s
  | .xor g rd rs rt => Sys2Proof.Machine.execXor g rd rs rt s
  | .andn g rd rs rt => Sys2Proof.Machine.execAndn g rd rs rt s
  | .sll g rd rs rt => Sys2Proof.Machine.execSll g rd rs rt s
  | .srl g rd rs rt => Sys2Proof.Machine.execSrl g rd rs rt s
  | .sra g rd rs rt => Sys2Proof.Machine.execSra g rd rs rt s
  | .ror g rd rs rt => Sys2Proof.Machine.execRor g rd rs rt s
  | .slt g rd rs rt => Sys2Proof.Machine.execSlt g rd rs rt s
  | .sltn g rd rs rt => Sys2Proof.Machine.execSltn g rd rs rt s
  | .seq g rd rs rt => Sys2Proof.Machine.execSeq g rd rs rt s
  | .sne g rd rs rt => Sys2Proof.Machine.execSne g rd rs rt s
  | .min g rd rs rt => Sys2Proof.Machine.execMin g rd rs rt s
  | .max g rd rs rt => Sys2Proof.Machine.execMax g rd rs rt s
  | .minn g rd rs rt => Sys2Proof.Machine.execMinn g rd rs rt s
  | .maxn g rd rs rt => Sys2Proof.Machine.execMaxn g rd rs rt s
  | .mul g rd rs rt => Sys2Proof.Machine.execMul g rd rs rt s
  | .mulh g rd rs rt => Sys2Proof.Machine.execMulh g rd rs rt s
  | .mulhn g rd rs rt => Sys2Proof.Machine.execMulhn g rd rs rt s
  | .div g rd rs rt => Sys2Proof.Machine.execDiv g rd rs rt s
  | .divn g rd rs rt => Sys2Proof.Machine.execDivn g rd rs rt s
  | .rem g rd rs rt => Sys2Proof.Machine.execRem g rd rs rt s
  | .remn g rd rs rt => Sys2Proof.Machine.execRemn g rd rs rt s
  | .bfxr g rd rs rt => Sys2Proof.Machine.execBfxr g rd rs rt s
  | .bfir g rd rs rt => Sys2Proof.Machine.execBfir g rd rs rt s
  | .popc g rd rs => Sys2Proof.Machine.execPopc g rd rs s
  | .clz g rd rs => Sys2Proof.Machine.execClz g rd rs s
  | .fadd g rd rs rt fmt => Sys2Proof.Machine.execFadd g rd rs rt fmt s
  | .fsub g rd rs rt fmt => Sys2Proof.Machine.execFsub g rd rs rt fmt s
  | .fmul g rd rs rt fmt => Sys2Proof.Machine.execFmul g rd rs rt fmt s
  | .ffma g rd rs rt fmt => Sys2Proof.Machine.execFfma g rd rs rt fmt s
  | .fmin g rd rs rt fmt => Sys2Proof.Machine.execFmin g rd rs rt fmt s
  | .fmax g rd rs rt fmt => Sys2Proof.Machine.execFmax g rd rs rt fmt s
  | .fdiv g rd rs rt fmt => Sys2Proof.Machine.execFdiv g rd rs rt fmt s
  | .fsqrt g rd rs fmt => Sys2Proof.Machine.execFsqrt g rd rs fmt s
  | .fceq g rd rs rt fmt => Sys2Proof.Machine.execFceq g rd rs rt fmt s
  | .fclt g rd rs rt fmt => Sys2Proof.Machine.execFclt g rd rs rt fmt s
  | .fcle g rd rs rt fmt => Sys2Proof.Machine.execFcle g rd rs rt fmt s
  | .fcvt g rd rs sel => Sys2Proof.Machine.execFcvt g rd rs sel s
  | .fmov g rd rs => Sys2Proof.Machine.execFmov g rd rs s
  | .gtail g rd rs => Sys2Proof.Machine.execGtail g rd rs s
  | .stail g rd rs => Sys2Proof.Machine.execStail g rd rs s
  | .stageMs g num rs => Sys2Proof.Machine.execStageMs g num rs s
  | .stageWs g num rs => Sys2Proof.Machine.execStageWs g num rs s
  | .stageFs g num rs => Sys2Proof.Machine.execStageFs g num rs s
  | .addi rd rs imm => Sys2Proof.Machine.execAddi rd rs imm s
  | .andi rd rs imm => Sys2Proof.Machine.execAndi rd rs imm s
  | .ori rd rs imm => Sys2Proof.Machine.execOri rd rs imm s
  | .xori rd rs imm => Sys2Proof.Machine.execXori rd rs imm s
  | .slli rd rs amt => Sys2Proof.Machine.execSlli rd rs amt s
  | .srli rd rs amt => Sys2Proof.Machine.execSrli rd rs amt s
  | .srai rd rs amt => Sys2Proof.Machine.execSrai rd rs amt s
  | .rori rd rs amt => Sys2Proof.Machine.execRori rd rs amt s
  | .slti rd rs imm => Sys2Proof.Machine.execSlti rd rs imm s
  | .sltni rd rs imm => Sys2Proof.Machine.execSltni rd rs imm s
  | .bfx rd rs wid off => Sys2Proof.Machine.execBfx rd rs wid off s
  | .bfi rd rs wid off => Sys2Proof.Machine.execBfi rd rs wid off s
  | .ld rd rs ty off => Sys2Proof.Machine.execLd rd rs ty off s
  | .st rd rs ty off => Sys2Proof.Machine.execSt rd rs ty off s
  | .stf rd rs ty off => Sys2Proof.Machine.execStf rd rs ty off s
  | .crd rd cidx => Sys2Proof.Machine.execCrd rd cidx s
  | .cwr rs cidx => Sys2Proof.Machine.execCwr rs cidx s
  | .lui rd imm => Sys2Proof.Machine.execLui rd imm s
  | .aupc rd imm => Sys2Proof.Machine.execAupc rd imm s
  | .br g imm => Sys2Proof.Machine.execBr g imm s
  | .call g imm => Sys2Proof.Machine.execCall g imm s
  | .jr g rs => Sys2Proof.Machine.execJr g rs s
  | .callr g rs => Sys2Proof.Machine.execCallr g rs s
  | .bz g rs imm => Sys2Proof.Machine.execBz g rs imm s
  | .bnz g rs imm => Sys2Proof.Machine.execBnz g rs imm s
  | .bbs g rs bitn imm => Sys2Proof.Machine.execBbs g rs bitn imm s
  | .bbc g rs bitn imm => Sys2Proof.Machine.execBbc g rs bitn imm s
  | .loop g rs imm => Sys2Proof.Machine.execLoop g rs imm s
  | .wait g k thr => Sys2Proof.Machine.execWait g k thr s
  | .waitr g k rs => Sys2Proof.Machine.execWaitr g k rs s
  | .tkset g k imm => Sys2Proof.Machine.execTkset g k imm s
  | .dly g num => Sys2Proof.Machine.execDly g num s
  | .bar g => Sys2Proof.Machine.execBar g s
  | .sysLaunch g rs => Sys2Proof.Machine.execSysLaunch g rs s
  | .sigDec g rs rt => Sys2Proof.Machine.execSigDec g rs rt s
  | .sigWait g rs rt => Sys2Proof.Machine.execSigWait g rs rt s
  | .trap g code => Sys2Proof.Machine.execTrap g code s
  | .tret g => Sys2Proof.Machine.execTret g s
  | .ilock g rd rs => Sys2Proof.Machine.execIlock g rd rs s
  | .iunlk g rs => Sys2Proof.Machine.execIunlk g rs s
  | .fence g scope => Sys2Proof.Machine.execFence g scope s
  | .tgive g tile owner => Sys2Proof.Machine.execTgive g tile owner s
  | .endTask g => Sys2Proof.Machine.execEndTask g s
  | .vadd g ty vd va vb => Sys2Proof.Machine.execVadd g ty vd va vb s
  | .vsub g ty vd va vb => Sys2Proof.Machine.execVsub g ty vd va vb s
  | .vmul g ty vd va vb => Sys2Proof.Machine.execVmul g ty vd va vb s
  | .vmulh g ty vd va vb => Sys2Proof.Machine.execVmulh g ty vd va vb s
  | .vsadd g ty vd va vb => Sys2Proof.Machine.execVsadd g ty vd va vb s
  | .vssub g ty vd va vb => Sys2Proof.Machine.execVssub g ty vd va vb s
  | .vabs g ty vd va => Sys2Proof.Machine.execVabs g ty vd va s
  | .vneg g ty vd va => Sys2Proof.Machine.execVneg g ty vd va s
  | .vand g ty vd va vb => Sys2Proof.Machine.execVand g ty vd va vb s
  | .vor g ty vd va vb => Sys2Proof.Machine.execVor g ty vd va vb s
  | .vxor g ty vd va vb => Sys2Proof.Machine.execVxor g ty vd va vb s
  | .vandn g ty vd va vb => Sys2Proof.Machine.execVandn g ty vd va vb s
  | .vshl g ty vd va vb => Sys2Proof.Machine.execVshl g ty vd va vb s
  | .vshr g ty vd va vb => Sys2Proof.Machine.execVshr g ty vd va vb s
  | .vmin g ty vd va vb => Sys2Proof.Machine.execVmin g ty vd va vb s
  | .vmax g ty vd va vb => Sys2Proof.Machine.execVmax g ty vd va vb s
  | .vfadd g ty vd va vb => Sys2Proof.Machine.execVfadd g ty vd va vb s
  | .vfsub g ty vd va vb => Sys2Proof.Machine.execVfsub g ty vd va vb s
  | .vfmul g ty vd va vb => Sys2Proof.Machine.execVfmul g ty vd va vb s
  | .vfma g ty vd va vb => Sys2Proof.Machine.execVfma g ty vd va vb s
  | .vfms g ty vd va vb => Sys2Proof.Machine.execVfms g ty vd va vb s
  | .vfmin g ty vd va vb => Sys2Proof.Machine.execVfmin g ty vd va vb s
  | .vfmax g ty vd va vb => Sys2Proof.Machine.execVfmax g ty vd va vb s
  | .vfneg g ty vd va => Sys2Proof.Machine.execVfneg g ty vd va s
  | .vfabs g ty vd va => Sys2Proof.Machine.execVfabs g ty vd va s
  | .vfredsum g ty vd va => Sys2Proof.Machine.execVfredsum g ty vd va s
  | .vfredmax g ty vd va => Sys2Proof.Machine.execVfredmax g ty vd va s
  | .vfredmin g ty vd va => Sys2Proof.Machine.execVfredmin g ty vd va s
  | .vredsum g ty vd va => Sys2Proof.Machine.execVredsum g ty vd va s
  | .vredmax g ty vd va => Sys2Proof.Machine.execVredmax g ty vd va s
  | .vredmin g ty vd va => Sys2Proof.Machine.execVredmin g ty vd va s
  | .vsel g sz vd va vb => Sys2Proof.Machine.execVsel g sz vd va vb s
  | .vceq g ty vd va vb => Sys2Proof.Machine.execVceq g ty vd va vb s
  | .vcne g ty vd va vb => Sys2Proof.Machine.execVcne g ty vd va vb s
  | .vclt g ty vd va vb => Sys2Proof.Machine.execVclt g ty vd va vb s
  | .vcle g ty vd va vb => Sys2Proof.Machine.execVcle g ty vd va vb s
  | .vfceq g ty vd va vb => Sys2Proof.Machine.execVfceq g ty vd va vb s
  | .vfclt g ty vd va vb => Sys2Proof.Machine.execVfclt g ty vd va vb s
  | .vfcle g ty vd va vb => Sys2Proof.Machine.execVfcle g ty vd va vb s
  | .vfcun g ty vd va vb => Sys2Proof.Machine.execVfcun g ty vd va vb s
  | .vperm g sz vd va vb => Sys2Proof.Machine.execVperm g sz vd va vb s
  | .vzip g sz vd va vb => Sys2Proof.Machine.execVzip g sz vd va vb s
  | .vunzip g sz vd va vb => Sys2Proof.Machine.execVunzip g sz vd va vb s
  | .vrot g sz vd va rs => Sys2Proof.Machine.execVrot g sz vd va rs s
  | .vbcast g sz vd rs => Sys2Proof.Machine.execVbcast g sz vd rs s
  | .vext g sz vd va rs => Sys2Proof.Machine.execVext g sz vd va rs s
  | .vins g sz vd va rs => Sys2Proof.Machine.execVins g sz vd va rs s
  | .vmov g sz vd va => Sys2Proof.Machine.execVmov g sz vd va s
  | .vwadd g ty vd va vb => Sys2Proof.Machine.execVwadd g ty vd va vb s
  | .vwmul g ty vd va vb => Sys2Proof.Machine.execVwmul g ty vd va vb s
  | .vfwma g ty vd va vb => Sys2Proof.Machine.execVfwma g ty vd va vb s
  | .pand g vd va vb => Sys2Proof.Machine.execPand g vd va vb s
  | .por g vd va vb => Sys2Proof.Machine.execPor g vd va vb s
  | .pxor g vd va vb => Sys2Proof.Machine.execPxor g vd va vb s
  | .pandn g vd va vb => Sys2Proof.Machine.execPandn g vd va vb s
  | .vcvtFloat g fmt vd va sty => Sys2Proof.Machine.execVcvtFloat g fmt vd va sty s
  | .vcvtInt g fmt vd va sty => Sys2Proof.Machine.execVcvtInt g fmt vd va sty s
  | .qmax g va => Sys2Proof.Machine.execQmax g va s
  | .qcvt g vd va => Sys2Proof.Machine.execQcvt g vd va s
  | .vrcp g fmt vd va => Sys2Proof.Machine.execVrcp g fmt vd va s
  | .vrsqrt g fmt vd va => Sys2Proof.Machine.execVrsqrt g fmt vd va s
  | .vsqrt g fmt vd va => Sys2Proof.Machine.execVsqrt g fmt vd va s
  | .vdiv g fmt vd va vb => Sys2Proof.Machine.execVdiv g fmt vd va vb s
  | .vexp2 g fmt vd va => Sys2Proof.Machine.execVexp2 g fmt vd va s
  | .vlog2 g fmt vd va => Sys2Proof.Machine.execVlog2 g fmt vd va s
  | .vexp g fmt vd va => Sys2Proof.Machine.execVexp g fmt vd va s
  | .vlog g fmt vd va => Sys2Proof.Machine.execVlog g fmt vd va s
  | .vsin g fmt vd va => Sys2Proof.Machine.execVsin g fmt vd va s
  | .vcos g fmt vd va => Sys2Proof.Machine.execVcos g fmt vd va s
  | .vtanh g fmt vd va => Sys2Proof.Machine.execVtanh g fmt vd va s
  | .vsigm g fmt vd va => Sys2Proof.Machine.execVsigm g fmt vd va s
  | .verf g fmt vd va => Sys2Proof.Machine.execVerf g fmt vd va s
  | .vrint g fmt vd va => Sys2Proof.Machine.execVrint g fmt vd va s
  | .vscl g fmt vd va vb => Sys2Proof.Machine.execVscl g fmt vd va vb s
  | .mload g k tile => Sys2Proof.Machine.execMload g k tile s
  | .mswap g k => Sys2Proof.Machine.execMswap g k s
  | .mstream g k tile => Sys2Proof.Machine.execMstream g k tile s
  | .mstreamz g k tile => Sys2Proof.Machine.execMstreamz g k tile s
  | .mstore g k tile => Sys2Proof.Machine.execMstore g k tile s
  | .mzero g k => Sys2Proof.Machine.execMzero g k s
  | .mscaleW g k tile => Sys2Proof.Machine.execMscaleW g k tile s
  | .mscaleA g k tile => Sys2Proof.Machine.execMscaleA g k tile s
  | .mread g k vd => Sys2Proof.Machine.execMread g k vd s
  | .mwrite g k va => Sys2Proof.Machine.execMwrite g k va s
  | .mdrain g k => Sys2Proof.Machine.execMdrain g k s
  | .ldV slot g reg base off => Sys2Proof.Machine.execLdV slot g reg base off s
  | .stV slot g reg base off => Sys2Proof.Machine.execStV slot g reg base off s
  | .stVF32 slot g reg base off => Sys2Proof.Machine.execStVF32 slot g reg base off s
  | .stVF16 slot g reg base off => Sys2Proof.Machine.execStVF16 slot g reg base off s
  | .stVBf16 slot g reg base off => Sys2Proof.Machine.execStVBf16 slot g reg base off s
  | .stVE4m3 slot g reg base off => Sys2Proof.Machine.execStVE4m3 slot g reg base off s
  | .stVE5m2 slot g reg base off => Sys2Proof.Machine.execStVE5m2 slot g reg base off s
  | .ldP slot g reg base off => Sys2Proof.Machine.execLdP slot g reg base off s
  | .stP slot g reg base off => Sys2Proof.Machine.execStP slot g reg base off s
  | .vspill slot g reg base off => Sys2Proof.Machine.execVspill slot g reg base off s
  | .vfill slot g reg base off => Sys2Proof.Machine.execVfill slot g reg base off s
  | .ldVb slot g reg base off => Sys2Proof.Machine.execLdVb slot g reg base off s
  | .wnCopy g k => Sys2Proof.Machine.execWnCopy g k s
  | .wnGather g k => Sys2Proof.Machine.execWnGather g k s
  | .wnScatter g k => Sys2Proof.Machine.execWnScatter g k s
  | .wnDecode g k => Sys2Proof.Machine.execWnDecode g k s
  | .wnEncode g k => Sys2Proof.Machine.execWnEncode g k s
  | .wnExpand g k => Sys2Proof.Machine.execWnExpand g k s
  | .wnFlush g k => Sys2Proof.Machine.execWnFlush g k s
  | .wnFar g k sd => Sys2Proof.Machine.execWnFar g k sd s
  | .vspillM g k vfirst vlast => Sys2Proof.Machine.execVspillM g k vfirst vlast s
  | .vfillM g k vfirst vlast => Sys2Proof.Machine.execVfillM g k vfirst vlast s
  | .fxLd g k => Sys2Proof.Machine.execFxLd g k s
  | .fxSt g k => Sys2Proof.Machine.execFxSt g k s
  | .fxAdd g k ty => Sys2Proof.Machine.execFxAdd g k ty s
  | .fxMin g k ty => Sys2Proof.Machine.execFxMin g k ty s
  | .fxMax g k ty => Sys2Proof.Machine.execFxMax g k ty s
  | .fxSwap g k ty => Sys2Proof.Machine.execFxSwap g k ty s
  | .fxCas g k ty => Sys2Proof.Machine.execFxCas g k ty s
  | .fxAnd g k ty => Sys2Proof.Machine.execFxAnd g k ty s
  | .fxOr g k ty => Sys2Proof.Machine.execFxOr g k ty s
  | .fxFlush g k => Sys2Proof.Machine.execFxFlush g k s
  | .fxFence g k vd scope => Sys2Proof.Machine.execFxFence g k vd scope s
  | .fxSdec g k => Sys2Proof.Machine.execFxSdec g k s
  | .actNop l => Sys2Proof.Machine.execActNop l s
  | .actSet l doff dw d imm => Sys2Proof.Machine.execActSet l doff dw d imm s
  | .actCopy l doff dw soff sw => Sys2Proof.Machine.execActCopy l doff dw soff sw s
  | .actAdd l doff dw d imm => Sys2Proof.Machine.execActAdd l doff dw d imm s
  | .actHash l doff dw fmask => Sys2Proof.Machine.execActHash l doff dw fmask s
  | .actRegAdd l doff dw soff sw d x wb base => Sys2Proof.Machine.execActRegAdd l doff dw soff sw d x wb base s
  | .actRegMax l doff dw soff sw d x wb base => Sys2Proof.Machine.execActRegMax l doff dw soff sw d x wb base s
  | .actCount l soff sw x base => Sys2Proof.Machine.execActCount l soff sw x base s
  | .actMark l bits => Sys2Proof.Machine.execActMark l bits s
  | .actFwd l soff x peer port => Sys2Proof.Machine.execActFwd l soff x peer port s
  | .actDrop l code => Sys2Proof.Machine.execActDrop l code s
  | .actRoute l doff soff sw base => Sys2Proof.Machine.execActRoute l doff soff sw base s
  | .actAbsorb l soff sw x core tile off => Sys2Proof.Machine.execActAbsorb l soff sw x core tile off s
  | .actMirror l soff sw x core tile off => Sys2Proof.Machine.execActMirror l soff sw x core tile off s
  | .actCribAdd l soff sw x core tile off => Sys2Proof.Machine.execActCribAdd l soff sw x core tile off s
  | .actCribBump l core tile num => Sys2Proof.Machine.execActCribBump l core tile num s
  | .actSigdec l idx num => Sys2Proof.Machine.execActSigdec l idx num s
  | .actMemop l => Sys2Proof.Machine.execActMemop l s
  | .trapEntry core => Sys2Proof.Machine.execTrapEntry core s
  | .barGenerationComplete cluster ctx => Sys2Proof.Machine.execBarGenerationComplete cluster ctx s
  | .taskRetire core => Sys2Proof.Machine.execTaskRetire core s
  | .istoreFill core => Sys2Proof.Machine.execIstoreFill core s
  | .quarterWake core quarter => Sys2Proof.Machine.execQuarterWake core quarter s
  | .bankSwitch core => Sys2Proof.Machine.execBankSwitch core s
  | .preempt core bank => Sys2Proof.Machine.execPreempt core bank s
  | .matrixCommandStart core n => Sys2Proof.Machine.execMatrixCommandStart core n s
  | .matrixCommandComplete core n => Sys2Proof.Machine.execMatrixCommandComplete core n s
  | .wainCommandStart core bank => Sys2Proof.Machine.execWainCommandStart core bank s
  | .wainCommandComplete core bank => Sys2Proof.Machine.execWainCommandComplete core bank s
  | .gatePushEnter core bank => Sys2Proof.Machine.execGatePushEnter core bank s
  | .fabricItemSend core bank n => Sys2Proof.Machine.execFabricItemSend core bank n s
  | .fabricCommandComplete core bank n => Sys2Proof.Machine.execFabricCommandComplete core bank n s
  | .resultLand core => Sys2Proof.Machine.execResultLand core s
  | .granaryAccess core => Sys2Proof.Machine.execGranaryAccess core s
  | .waitSatisfied core => Sys2Proof.Machine.execWaitSatisfied core s
  | .sigDecPerform core => Sys2Proof.Machine.execSigDecPerform core s
  | .fenceRelease core => Sys2Proof.Machine.execFenceRelease core s
  | .sysLaunchWrite core => Sys2Proof.Machine.execSysLaunchWrite core s
  | .quarterGate core quarter => Sys2Proof.Machine.execQuarterGate core quarter s
  | .faultResolve die answer => Sys2Proof.Machine.execFaultResolve die answer s
  | .faultRefuse die answer => Sys2Proof.Machine.execFaultRefuse die answer s
  | .resume task core => Sys2Proof.Machine.execResume task core s
  | .fabricResponse peer tag status flags data => Sys2Proof.Machine.execFabricResponse peer tag status flags data s
  | .failureNotice peer tag => Sys2Proof.Machine.execFailureNotice peer tag s
  | .holdNotice peer tag => Sys2Proof.Machine.execHoldNotice peer tag s
  | .fabricTimeout peer tag => Sys2Proof.Machine.execFabricTimeout peer tag s
  | .packetParse cluster port packet => Sys2Proof.Machine.execPacketParse cluster port packet s
  | .stagePass cluster n => Sys2Proof.Machine.execStagePass cluster n s
  | .tailCheck cluster n stomped => Sys2Proof.Machine.execTailCheck cluster n stomped s
  | .commit cluster sys => Sys2Proof.Machine.execCommit cluster sys s
  | .targetRequest die n => Sys2Proof.Machine.execTargetRequest die n s
  | .holdNoticeSend die => Sys2Proof.Machine.execHoldNoticeSend die s
  | .cntclrWrite cluster value => Sys2Proof.Machine.execCntclrWrite cluster value s
  | .qtailDoorbell die queue value => Sys2Proof.Machine.execQtailDoorbell die queue value s
  | .queueEnable die queue value => Sys2Proof.Machine.execQueueEnable die queue value s
  | .queueDisable die queue value => Sys2Proof.Machine.execQueueDisable die queue value s
  | .launch die queue => Sys2Proof.Machine.execLaunch die queue s
  | .launchAccept die ask => Sys2Proof.Machine.execLaunchAccept die ask s
  | .queueWait die queue => Sys2Proof.Machine.execQueueWait die queue s
  | .sigdec die queue => Sys2Proof.Machine.execSigdec die queue s
  | .cancel die queue => Sys2Proof.Machine.execCancel die queue s
  | .counterOpen die queue => Sys2Proof.Machine.execCounterOpen die queue s
  | .counterClose die queue => Sys2Proof.Machine.execCounterClose die queue s
  | .cribarm die queue => Sys2Proof.Machine.execCribarm die queue s
  | .cribFillDone cluster place => Sys2Proof.Machine.execCribFillDone cluster place s
  | .cribdisarm die queue => Sys2Proof.Machine.execCribdisarm die queue s
  | .tableupd die queue => Sys2Proof.Machine.execTableupd die queue s
  | .batchApply cluster => Sys2Proof.Machine.execBatchApply cluster s
  | .template die queue => Sys2Proof.Machine.execTemplate die queue s
  | .signalReread die => Sys2Proof.Machine.execSignalReread die s
  | .priorityAging die => Sys2Proof.Machine.execPriorityAging die s
  | .taskPlace core => Sys2Proof.Machine.execTaskPlace core s
  | .launchComplete die => Sys2Proof.Machine.execLaunchComplete die s
  | .invalidate die value => Sys2Proof.Machine.execInvalidate die value s
  | .invalidateDone die => Sys2Proof.Machine.execInvalidateDone die s
  | .gateEntryPop die => Sys2Proof.Machine.execGateEntryPop die s
  | .armRequest die => Sys2Proof.Machine.execArmRequest die s
  | .armRequestDone die => Sys2Proof.Machine.execArmRequestDone die s
  | .tctailDoorbell die value => Sys2Proof.Machine.execTctailDoorbell die value s
  | .layer die => Sys2Proof.Machine.execLayer die s
  | .route die => Sys2Proof.Machine.execRoute die s
  | .evict die => Sys2Proof.Machine.execEvict die s
  | .evictComplete die => Sys2Proof.Machine.execEvictComplete die s
  | .overrideSet die => Sys2Proof.Machine.execOverrideSet die s
  | .overrideDelete die => Sys2Proof.Machine.execOverrideDelete die s
  | .hostMemoryAccess addr op data => Sys2Proof.Machine.execHostMemoryAccess addr op data s
  | .cxlLinkChange link up => Sys2Proof.Machine.execCxlLinkChange link up s
  | .partmapWrite core value => Sys2Proof.Machine.execPartmapWrite core value s
  | .partitionReset value => Sys2Proof.Machine.execPartitionReset value s
  | .partitionResetDone => Sys2Proof.Machine.execPartitionResetDone s
  | .boot images config => Sys2Proof.Machine.execBoot images config s
  | .getVersion => Sys2Proof.Machine.execGetVersion s
  | .getCapabilities => Sys2Proof.Machine.execGetCapabilities s
  | .negotiateAlgorithms => Sys2Proof.Machine.execNegotiateAlgorithms s
  | .getDigests => Sys2Proof.Machine.execGetDigests s
  | .getCertificate => Sys2Proof.Machine.execGetCertificate s
  | .challenge => Sys2Proof.Machine.execChallenge s
  | .getMeasurements => Sys2Proof.Machine.execGetMeasurements s
  | .ageingReplan cluster volts => Sys2Proof.Machine.execAgeingReplan cluster volts s
  | .powerThrottle watts core clocks => Sys2Proof.Machine.execPowerThrottle watts core clocks s
  | .freeze => Sys2Proof.Machine.execFreeze s
  | .scan => Sys2Proof.Machine.execScan s
  | .dscan => Sys2Proof.Machine.execDscan s
  | .thaw => Sys2Proof.Machine.execThaw s
  | .readoutDone => Sys2Proof.Machine.execReadoutDone s
  | .flitReceive port seq good => Sys2Proof.Machine.execFlitReceive port seq good s
  | .laneFailure port => Sys2Proof.Machine.execLaneFailure port s
  | .timeCode die slot => Sys2Proof.Machine.execTimeCode die slot s
  | .registerWrite reg aligned value => Sys2Proof.Machine.execRegisterWrite reg aligned value s
  | .linkTrained port lanes => Sys2Proof.Machine.execLinkTrained port lanes s
  | .preemptRunElapsed core bank => Sys2Proof.Machine.execPreemptRunElapsed core bank s
  | .barnWayGate die way gate => Sys2Proof.Machine.execBarnWayGate die way gate s
  | .priorityFlowControl port classes pause => Sys2Proof.Machine.execPriorityFlowControl port classes pause s

end Sys2Proof.Machine
end

