-- ==== Sys2Proof/Machine/Turns.lean ====
section
/-! DEFINITION. Whose turn it is when the schedule lists none (log entry 1), the passing of time, and how the task of a
single instruction word is placed (log entry 2). -/
namespace Sys2Proof.Machine

/-- The clocks of 10 µs at 2.7 GHz (R1, R133). -/
def rereadClocks : Nat := 27000

/-- Clocks pass (R1: the clock is 2.7 GHz); a frozen module has none (R420). Every 10 µs the signals that tasks wait for are
read again (R133). -/
def State.passTime (s : State) (n : Nat) : State :=
  if s.pkg.frz = 0 then { s with now := s.now + n, reread := s.reread || s.now / rereadClocks != (s.now + n) / rereadClocks } else s

/-- The first quarter of a core that is waking. -/
def Core.waking (k : Core) : Option (Fin 4) := (List.finRange 4).find? fun q => k.quarters[q] == .waking

/-- The matrix command that can complete or start next, if any. -/
def State.matrixTurn (s : State) (c : Fin 256) : Option Instr :=
  let k := s.cores[c]
  let n := List.range k.matrix.queue.length
  match n.find? fun j => (k.completeMatrix j s.now).matrix.queue.length != k.matrix.queue.length with
  | some j => some (.matrixCommandComplete c j)
  | none => (n.find? fun j => (k.startMatrix j).matrix.queue != k.matrix.queue).map fun j => .matrixCommandStart c j

/-- The Wain command of a bank that can complete or start next, if any. -/
def State.wainTurn (s : State) (c : Fin 256) (bank : Bool) : Option Instr :=
  match (s.cores[c]).ctx? bank with
  | some x =>
    match x.wain with
    | w :: _ =>
      if w.done then some (.wainCommandComplete c bank)
      else if w.runs || (!w.started && (s.cores[c]).engineMay bank w.issue && !(s.cores[c]).cancelled bank && (s.cores[c]).awake (tilesOf w.spans)) then some (.wainCommandStart c bank)
      else none
    | [] => none
  | none => none

/-- The fabric command of a bank that can send an item or complete next, if any. -/
def State.fabricTurn (s : State) (c : Fin 256) (bank : Bool) : Option Instr :=
  let k := s.cores[c]
  match k.ctx? bank with
  | some x =>
    let n := List.range x.fabric.length
    match n.find? fun j => x.canSend j && !k.cancelled bank with
    | some j => some (.fabricItemSend c bank j)
    | none => (n.find? fun j => k.completeFabric (s.dies[coreDie c]).self bank j s.now != k).map fun j => .fabricCommandComplete c bank j
  | none => none

/-- A bank's task that can leave its core now: at its end (R130) or pre-empted (R249). -/
def State.leaveTurn (s : State) (c : Fin 256) (bank : Bool) : Option Instr :=
  let k := s.cores[c]
  match k.ctx? bank with
  | some x =>
    if x.ends && (k.bankIdle bank x || (s.retireIf c bank).cores[c] != k) then some (.taskRetire c)
    else if k.preemptable (s.dies[coreDie c]).self bank x then some (.preempt c bank)
    else none
  | none => none

/-- A barrier of the core's cluster whose last member has arrived (R307). -/
def State.barrierTurn (s : State) (c : Fin 256) : Option Instr :=
  let k := s.clusters[clusterOf c]
  ((List.finRange 4).find? fun n => match k.barriers[n] with | some b => b.full && !b.members.isEmpty | none => false).map fun n =>
    .barGenerationComplete (clusterOf c) n

/-- The turn that the state itself calls for: what the current core waits for, its engines, its tasks' ends, and else a
clock of it. -/
def State.autoTurn (s : State) : Turn :=
  let c := s.cur
  let k := s.core
  if k.missing.isSome then .event (.istoreFill c)
  else
    match k.waking with
    | some q => .event (.quarterWake c q)
    | none =>
      let engines := (s.matrixTurn c).or ((s.wainTurn c false).or ((s.wainTurn c true).or ((s.fabricTurn c false).or (s.fabricTurn c true))))
      match engines.or ((s.barrierTurn c).or ((s.leaveTurn c false).or (s.leaveTurn c true))) with
      | some e => .event e
      | none => .core c

/-- A row of code that holds a word at its start and `nop` (0x80000000) after it. -/
def wordRow (w : BitVec 32) : BitVec 16384 :=
  BitVec.ofNat 16384 ((w ||| 0x80000000).toNat + 2 ^ 32 * (0x80000000 * ((2 ^ 16352 - 1) / (2 ^ 32 - 1))))

/-- The start of the task that `placeWord` launches. -/
def wordStart : Start := ⟨0, 0, 0, 0, 0, 0, 0, [], false, 0, 0, 0, 0, [], none⟩

/-- Core 0 with a task in bank A that is about to issue the bundle of one word. -/
def Core.placeWord (k : Core) (w : BitVec 32) : Core :=
  { k with bank := false, switching := 0, freeze := 0, missing := none, sinceSwitch := 0, disabled := false, ctxA := some (Context.start wordStart),
           istore := ⟨0, 0, wordRow w, false, false, 0, []⟩ :: k.istore.filter fun r => !(r.addr == 0 && r.part == 0),
           quarters := Vector.replicate 4 .awake, matrix := { k.matrix with queue := [] } }

/-- A task in bank A of core 0 that is about to issue the bundle of one word, core 0's clock the next turn, and no freeze. -/
def State.placeWord (s : State) (w : BitVec 32) : State :=
  { s.updCore 0 fun k => k.placeWord w with sched := [.core 0], cur := 0, pkg := { s.pkg with frz := 0 } }

end Sys2Proof.Machine
end

