-- ==== Sys2Proof/Machine/Step.lean ====
section
/-! DEFINITION. One step of the module: the turn at the head of the schedule, or, with no turn listed, the turn that the
state itself calls for (log entry 1); and the placing of an instruction where the next step fetches it (log entry 2). -/
namespace Sys2Proof.Machine

/-- What one turn does: a core takes a clock, time passes, or an event happens. -/
def takeTurn (s : State) : Turn → Host.Outcome State Fault Refusal
  | .core c => .next (clockOf exec c s)
  | .clocks n => .next (s.passTime n)
  | .event e => exec e s

/-- What a turn leaves, once the signals that a task waits for have been read again where that is due (R133). -/
def rereadAfter : Host.Outcome State Fault Refusal → Host.Outcome State Fault Refusal
  | .next t => .next t.rereadDue
  | o => o

/-- One step: the turn at the head of the schedule, else the turn of `State.autoTurn`. -/
def step (s : State) : Host.Outcome State Fault Refusal :=
  rereadAfter (match s.sched with
  | t :: rest => takeTurn { s with sched := rest } t
  | [] =>
    match s.autoTurn with
    | .core c => takeTurn (s.passTime 1) (.core c)
    | t => takeTurn s t)

/-- s with an instruction word where the next step fetches its next instruction: a task is launched in bank A of core 0
whose instruction store holds the word, as a bundle of its own, and `nop`s after it (log entry 2). -/
def State.withFetchWord (s : State) (_nbits w : Nat) : State := s.placeWord (BitVec.ofNat 32 w)

end Sys2Proof.Machine
end

