-- ==== Sys2Proof/Safety.lean ====
section
/-! DEFINITION. What counts as a safe run: no step of it stops with a fault or a refusal, and memory keeps its canonical
form; and the words in which the statements about instructions are made. -/
namespace Sys2Proof.Machine

/-- Whether an outcome is a next state. -/
def isNext : Host.Outcome State Fault Refusal → Bool
  | .next _ => true
  | _ => false

/-- Every byte memory of the module is in its canonical form: global memory and each core's granary. -/
def State.memoryWf (s : State) : Bool := Memory.wf s.mem && s.cores.toList.all fun k => Memory.wf k.granary

/-- A word issues with nothing against it (R5, R72, R104, R235): the bank that issues holds task x, the word is looked at
outside any bundle's separate passes, its guard lets it run, and no schedule check fails. -/
def Issues (s : State) (x : Context) (u : Use) : Prop :=
  s.ctx? = some x ∧ s.issue.phase = .whole ∧ u.on x = true ∧
    scheduleCheck s.core s.core.bank x (u.allReads x) u.dests = none

/-- Every Barn line holds the 128 bytes of its line, a line of host memory (R354). -/
def State.barnWf (s : State) : Bool :=
  s.dies.toList.all fun d => d.barn.all fun l => l.data.length == 128 && match physKind (128 * l.line) with | .host _ => true | _ => false

/-- Whether an agent of the device finds memory at an address (R336): HBM, the Loft or host memory. -/
def hasMemory (a : Nat) : Bool := match physKind a with | .none | .gate _ => false | _ => true

/-- Every way of both Barns has room for the lines of a few accesses more, so that none makes a line leave (R1, log entry 49). -/
def State.barnRoomy (s : State) : Prop := ∀ (d : Fin 2) (w : Fin 16), ((s.dies[d]).barn.filter fun l => l.way == w).length + 64 ≤ wayLines

/-- What a device reads at an address is as before, but where a line has had to leave a full Barn way and brings older bytes of
host memory back (R354, log entry 49). -/
def State.sameByte (s t : State) (b : Nat) : Prop :=
  s.memoryWf = true → s.barnWf = true → (s.barnRoomy ∨ ∀ d, physKind b ≠ .host d) → t.devByte b = s.devByte b

/-- A bundle that holds in this bc: nothing of it has happened. -/
def State.held (s : State) : State := { s with issue := { s.issue with stop := .held } }

/-- Two contexts agree in every register that results, commands and deferred writes change (R13-R31, R445). -/
def Context.sameRegs (x y : Context) : Prop :=
  y.s = x.s ∧ y.v = x.v ∧ y.p = x.p ∧ y.vbase = x.vbase ∧ y.pbase = x.pbase ∧ y.k = x.k ∧ y.ms = x.ms ∧ y.ws = x.ws ∧
    y.fs = x.fs ∧ y.rmode = x.rmode ∧ y.fflags = x.fflags ∧ y.chkmode = x.chkmode ∧ y.livecnt = x.livecnt ∧
    y.tvec = x.tvec ∧ y.tscratch = x.tscratch ∧ y.partId = x.partId ∧ y.tindex = x.tindex ∧ y.latches = x.latches ∧
    y.pfs = x.pfs

/-- The guard of a word of the scalar register form or of the branch/system form (R71, R81, R85). -/
def guardOf : Instr → Option (BitVec 4)
  | .add g _ _ _ | .sub g _ _ _ | .and g _ _ _ | .or g _ _ _ | .xor g _ _ _ | .andn g _ _ _ | .sll g _ _ _
  | .srl g _ _ _ | .sra g _ _ _ | .ror g _ _ _ | .slt g _ _ _ | .sltn g _ _ _ | .seq g _ _ _ | .sne g _ _ _
  | .min g _ _ _ | .max g _ _ _ | .minn g _ _ _ | .maxn g _ _ _ | .mul g _ _ _ | .mulh g _ _ _ | .mulhn g _ _ _
  | .div g _ _ _ | .divn g _ _ _ | .rem g _ _ _ | .remn g _ _ _ | .bfxr g _ _ _ | .bfir g _ _ _ | .popc g _ _
  | .clz g _ _ | .fadd g _ _ _ _ | .fsub g _ _ _ _ | .fmul g _ _ _ _ | .ffma g _ _ _ _ | .fmin g _ _ _ _
  | .fmax g _ _ _ _ | .fdiv g _ _ _ _ | .fsqrt g _ _ _ | .fceq g _ _ _ _ | .fclt g _ _ _ _ | .fcle g _ _ _ _
  | .fcvt g _ _ _ | .fmov g _ _ | .gtail g _ _ | .stail g _ _ | .stageMs g _ _ | .stageWs g _ _ | .stageFs g _ _
  | .br g _ | .call g _ | .jr g _ | .callr g _ | .bz g _ _ | .bnz g _ _ | .bbs g _ _ _ | .bbc g _ _ _ | .loop g _ _
  | .wait g _ _ | .waitr g _ _ | .tkset g _ _ | .dly g _ | .bar g | .sysLaunch g _ | .sigDec g _ _ | .sigWait g _ _
  | .trap g _ | .tret g | .ilock g _ _ | .iunlk g _ | .fence g _ | .tgive g _ _ | .endTask g => some g
  | _ => none

/-- A run of `n` steps that never stops. -/
def SafeRun (n : Nat) (s : State) : Prop :=
  match n with
  | 0 => True
  | n + 1 => ∃ t, step s = .next t ∧ SafeRun n t

end Sys2Proof.Machine
end

