-- ==== Sys2Proof/Certificates/Slice0/Obligations.lean ====
section
/-! DEFINITION. The statements for the provers, from the numbered rules of spec/. Every `Obligations.<Name>` is a
proposition about the model; none is proved here. -/
open Sys2Proof Sys2Proof.Machine

/-! ### Bundle words: scalar results (spec/04)

`Issues s x u` says that a word issues: the bank that issues holds task `x`, its guard lets it run, and no schedule check
fails. `s.sresult lat rd v f` is the state in which the word has started one result: value `v` for scalar register `rd`,
landing at the end of bc t + lat − 1 with the flags `f`; `Obligations.ResultsAndTheEndOfABundleCycle` says what landing is. -/

/-- R112, R113 and the latencies of R81: the register form of the integer words, for every operand value. R112 and R116: bit counts, and the register forms of the bit-field words; an insertion of no field writes nothing. Division
never traps and never raises a flag; its boundary cases are those of R113. -/
def Obligations.IntegerRegisterWords : Prop :=
  (∀ (s : State) (x : Context) (g : BitVec 4) (rd rs rt : BitVec 5) (lat : Nat),
     Issues s x ⟨.scalar g, [.s rs, .s rt], [(.s rd, lat)]⟩ →
     let a := x.sdata rs
     let b := x.sdata rt
     let n := b.toNat % 64
     let gives (i : Instr) (v : Word) : Prop := exec i s = .next (s.sresult lat rd ⟨v, 0⟩ 0)
     (lat = 1 →
       gives (.add g rd rs rt) (word (a.toNat + b.toNat)) ∧
       gives (.sub g rd rs rt) (BitVec.ofInt 64 (a.toNat - b.toNat)) ∧
       gives (.and g rd rs rt) (BitVec.ofFnLE fun i : Fin 64 => a[i] && b[i]) ∧
       gives (.or g rd rs rt) (BitVec.ofFnLE fun i : Fin 64 => a[i] || b[i]) ∧
       gives (.xor g rd rs rt) (BitVec.ofFnLE fun i : Fin 64 => a[i] != b[i]) ∧
       gives (.andn g rd rs rt) (BitVec.ofFnLE fun i : Fin 64 => a[i] && !b[i]) ∧
       gives (.sll g rd rs rt) (word (a.toNat * 2 ^ n)) ∧
       gives (.srl g rd rs rt) (word (a.toNat / 2 ^ n)) ∧
       gives (.sra g rd rs rt) (BitVec.ofInt 64 (a.toInt / 2 ^ n)) ∧
       gives (.ror g rd rs rt) (word (a.toNat / 2 ^ n + a.toNat % 2 ^ n * 2 ^ (64 - n))) ∧
       gives (.slt g rd rs rt) (if a.toInt < b.toInt then 1 else 0) ∧
       gives (.sltn g rd rs rt) (if a.toNat < b.toNat then 1 else 0) ∧
       gives (.seq g rd rs rt) (if a = b then 1 else 0) ∧
       gives (.sne g rd rs rt) (if a = b then 0 else 1) ∧
       gives (.min g rd rs rt) (BitVec.ofInt 64 (min a.toInt b.toInt)) ∧
       gives (.max g rd rs rt) (BitVec.ofInt 64 (max a.toInt b.toInt)) ∧
       gives (.minn g rd rs rt) (word (min a.toNat b.toNat)) ∧
       gives (.maxn g rd rs rt) (word (max a.toNat b.toNat))) ∧
     (lat = 3 →
       gives (.mul g rd rs rt) (word (a.toNat * b.toNat)) ∧
       gives (.mulh g rd rs rt) (BitVec.ofInt 64 (a.toInt * b.toInt / 2 ^ 64)) ∧
       gives (.mulhn g rd rs rt) (word (a.toNat * b.toNat / 2 ^ 64))) ∧
     (lat = 16 → b ≠ 0 →
       gives (.div g rd rs rt) (BitVec.ofInt 64 (a.toInt.tdiv b.toInt)) ∧
       gives (.divn g rd rs rt) (word (a.toNat / b.toNat)) ∧
       gives (.rem g rd rs rt) (BitVec.ofInt 64 (a.toInt.tmod b.toInt)) ∧
       gives (.remn g rd rs rt) (word (a.toNat % b.toNat)))) ∧
  (∀ (s : State) (x : Context) (g : BitVec 4) (rd rs rt : BitVec 5) (off wid : BitVec 6),
     let a := x.sdata rs
     let ro := (x.sdata rt).toNat % 2 ^ 8
     let rw := (x.sdata rt).toNat / 2 ^ 8 % 2 ^ 8
     let extracted (o w : Nat) : Word := if w = 0 ∨ 64 ≤ o then 0 else word (a.toNat / 2 ^ o % 2 ^ min w (64 - o))
     let inserted (o w : Nat) : Word :=
       BitVec.ofFnLE fun i : Fin 64 => if o ≤ i.val ∧ i.val < o + w then a.getLsbD (i.val - o) else (x.sdata rd)[i]
     let gives (i : Instr) (v : Word) : Prop := exec i s = .next (s.sresult 1 rd ⟨v, 0⟩ 0)
     (Issues s x ⟨.scalar g, [.s rs], [(.s rd, 1)]⟩ →
       gives (.popc g rd rs) (word ((List.finRange 64).countP fun i => a[i])) ∧
       (∀ n, (∀ i : Nat, 64 - n ≤ i → a.getLsbD i = false) → (n < 64 → a.getLsbD (63 - n) = true) → n ≤ 64 →
         gives (.clz g rd rs) (word n))) ∧
     (Issues s x ⟨.scalar g, [.s rs, .s rt], [(.s rd, 1)]⟩ → gives (.bfxr g rd rs rt) (extracted ro rw)) ∧
     (Issues s x ⟨.always, [.s rs], [(.s rd, 1)]⟩ → gives (.bfx rd rs wid off) (extracted off.toNat wid.toNat)) ∧
     (Issues s x ⟨.scalar g, [.s rd, .s rs, .s rt], [(.s rd, 1)]⟩ →
       if rw = 0 ∨ 64 ≤ ro then exec (.bfir g rd rs rt) s = .next s else gives (.bfir g rd rs rt) (inserted ro rw)) ∧
     (Issues s x ⟨.always, [.s rd, .s rs], [(.s rd, 1)]⟩ →
       if wid.toNat = 0 then exec (.bfi rd rs wid off) s = .next s
       else gives (.bfi rd rs wid off) (inserted off.toNat wid.toNat))) ∧
  (∀ (s : State) (x : Context) (g : BitVec 4) (rd rs rt : BitVec 5),
     Issues s x ⟨.scalar g, [.s rs, .s rt], [(.s rd, 16)]⟩ →
     let gives (i : Instr) (v : Word) : Prop := exec i s = .next (s.sresult 16 rd ⟨v, 0⟩ 0)
     (∃ q qn r rn, gives (.div g rd rs rt) q ∧ gives (.divn g rd rs rt) qn ∧ gives (.rem g rd rs rt) r ∧
       gives (.remn g rd rs rt) rn) ∧
     (x.sdata rt = 0 →
       gives (.div g rd rs rt) (BitVec.ofInt 64 (-1)) ∧ gives (.divn g rd rs rt) (word (2 ^ 64 - 1)) ∧
       gives (.rem g rd rs rt) (x.sdata rs) ∧ gives (.remn g rd rs rt) (x.sdata rs)) ∧
     ((x.sdata rs).toInt = -2 ^ 63 → (x.sdata rt).toInt = -1 →
       gives (.div g rd rs rt) (BitVec.ofInt 64 (-2 ^ 63)) ∧ gives (.rem g rd rs rt) 0) ∧
     ((x.sdata rs).toInt = -7 → (x.sdata rt).toInt = 2 →
       gives (.div g rd rs rt) (BitVec.ofInt 64 (-3)) ∧ gives (.rem g rd rs rt) (BitVec.ofInt 64 (-1))) ∧
     ((x.sdata rs).toInt = 7 → (x.sdata rt).toInt = -2 →
       gives (.div g rd rs rt) (BitVec.ofInt 64 (-3)) ∧ gives (.rem g rd rs rt) 1))

/-- R114 and R117: the immediate forms and the upper form. -/
def Obligations.ImmediateWords : Prop :=
  ∀ (s : State) (x : Context) (rd rs : BitVec 5) (imm : BitVec 12) (amt : BitVec 6) (up : BitVec 20),
    let a := x.sdata rs
    let n := amt.toNat
    let c : Word := BitVec.ofInt 64 imm.toInt
    let gives (i : Instr) (v : Word) : Prop := exec i s = .next (s.sresult 1 rd ⟨v, 0⟩ 0)
    (Issues s x ⟨.always, [.s rs], [(.s rd, 1)]⟩ →
      gives (.addi rd rs imm) (BitVec.ofInt 64 (a.toInt + imm.toInt)) ∧
      gives (.andi rd rs imm) (a &&& c) ∧ gives (.ori rd rs imm) (a ||| c) ∧ gives (.xori rd rs imm) (a ^^^ c) ∧
      gives (.slti rd rs imm) (if a.toInt < imm.toInt then 1 else 0) ∧
      gives (.sltni rd rs imm) (if a.toNat < c.toNat then 1 else 0) ∧
      gives (.slli rd rs amt) (word (a.toNat * 2 ^ n)) ∧
      gives (.srli rd rs amt) (word (a.toNat / 2 ^ n)) ∧
      gives (.srai rd rs amt) (BitVec.ofInt 64 (a.toInt / 2 ^ n)) ∧
      gives (.rori rd rs amt) (word (a.toNat / 2 ^ n + a.toNat % 2 ^ n * 2 ^ (64 - n)))) ∧
    (Issues s x ⟨.always, [], [(.s rd, 1)]⟩ →
      gives (.lui rd up) (BitVec.ofInt 64 (up.toInt * 2 ^ 12)) ∧
      gives (.aupc rd up) (BitVec.ofInt 64 (x.pc.toNat + up.toInt * 2 ^ 12)))

/-- R118 and R119: scalar floating arithmetic, whose result is the carried form of the exact result, minimum and maximum,
and compares; every higher data bit of a floating result is 0 (R111). R120 and R121: conversions between scalar types, and access to tails; a conversion to an integer in MODE 110 or 111
traps instead. -/
def Obligations.ScalarFloatWords : Prop :=
  (∀ (s : State) (x : Context) (g : BitVec 4) (rd rs rt : BitVec 5) (fmt : BitVec 2),
     let f := scalarFmt fmt
     let u := x.fval f rs
     let v := x.fval f rt
     let gives (i : Instr) (lat : Nat) (e : Elem) (fl : Flags) : Prop :=
       exec i s = .next (s.sresult lat rd ⟨word e.code, BitVec.ofNat 2 e.tail⟩ fl)
     (Issues s x ⟨.scalar g, [.s rs, .s rt], [(.s rd, 4)]⟩ →
       gives (.fadd g rd rs rt fmt) 4 (carry f (u.add v).1) (u.add v).2 ∧
       gives (.fsub g rd rs rt fmt) 4 (carry f (u.add v.negate).1) (u.add v.negate).2 ∧
       gives (.fmul g rd rs rt fmt) 4 (carry f (u.mul v).1) (u.mul v).2) ∧
     (Issues s x ⟨.scalar g, [.s rd, .s rs, .s rt], [(.s rd, 4)]⟩ →
       gives (.ffma g rd rs rt fmt) 4 (carry f ((x.fval f rd).fma u v).1) ((x.fval f rd).fma u v).2) ∧
     (Issues s x ⟨.scalar g, [.s rs, .s rt], [(.s rd, 8)]⟩ →
       gives (.fdiv g rd rs rt fmt) 8 (fdivElem f u v).1 (fdivElem f u v).2) ∧
     (Issues s x ⟨.scalar g, [.s rs], [(.s rd, 8)]⟩ →
       gives (.fsqrt g rd rs fmt) 8 (fsqrtElem f u).1 (fsqrtElem f u).2) ∧
     (Issues s x ⟨.scalar g, [.s rs, .s rt], [(.s rd, 2)]⟩ →
       gives (.fmin g rd rs rt fmt) 2 (fminmaxElem f false (x.elem f rs) (x.elem f rt)) 0 ∧
       gives (.fmax g rd rs rt fmt) 2 (fminmaxElem f true (x.elem f rs) (x.elem f rt)) 0 ∧
       gives (.fceq g rd rs rt fmt) 2 ⟨if u.feq v then 1 else 0, 0⟩ 0 ∧
       gives (.fclt g rd rs rt fmt) 2 ⟨if u.flt v then 1 else 0, 0⟩ 0 ∧
       gives (.fcle g rd rs rt fmt) 2 ⟨if u.fle v then 1 else 0, 0⟩ 0)) ∧
  (∀ (s : State) (x : Context) (g : BitVec 4) (rd rs sel : BitVec 5),
     let r := scalarConvert sel.toNat x.rmode (x.sget rs)
     (Issues s x ⟨.scalar g, [.s rs], [(.s rd, 3)]⟩ →
       (sel.toNat < 12 ∨ x.rmode.toNat < 6 → exec (.fcvt g rd rs sel) s = .next (s.sresult 3 rd r.1 r.2)) ∧
       (12 ≤ sel.toNat → 6 ≤ x.rmode.toNat → exec (.fcvt g rd rs sel) s = .next (s.trap 0x07 s.issue.pos 0))) ∧
     (Issues s x ⟨.scalar g, [.s rs], [(.s rd, 1)]⟩ →
       exec (.fmov g rd rs) s = .next (s.sresult 1 rd (x.sget rs) 0) ∧
       exec (.gtail g rd rs) s = .next (s.sresult 1 rd ⟨word (x.sget rs).tail.toNat, 0⟩ 0)) ∧
     (Issues s x ⟨.scalar g, [.s rd, .s rs], [(.s rd, 1)]⟩ →
       exec (.stail g rd rs) s = .next (s.sresult 1 rd ⟨x.sdata rd, BitVec.ofNat 2 (x.sdata rs).toNat⟩ 0)))

/-! ### Bundle words: staging, control registers, granary access, transfers of control (spec/04, spec/07, spec/08) -/

/-- R122 and R123: `stage` starts a write of a staging register, `crd` reads a control register as it stands, and `cwr` puts
its write off to the next bundle. R123, the table of `cwr`: what the next bundle finds in each control register that was written. -/
def Obligations.StagingAndControlWords : Prop :=
  (∀ (s : State) (x : Context) (g : BitVec 4) (rd rs : BitVec 5) (num : BitVec 3) (cidx : BitVec 12),
     (Issues s x ⟨.scalar g, [.s rs], [(.stage 0 num, 1)]⟩ →
       exec (.stageMs g num rs) s = .next (s.result 1 [.stage 0 num (x.sdata rs)] 0)) ∧
     (Issues s x ⟨.scalar g, [.s rs], [(.stage 1 num, 1)]⟩ →
       exec (.stageWs g num rs) s = .next (s.result 1 [.stage 1 num (x.sdata rs)] 0)) ∧
     (Issues s x ⟨.scalar g, [.s rs], [(.stage 2 num, 1)]⟩ →
       exec (.stageFs g num rs) s = .next (s.result 1 [.stage 2 num (x.sdata rs)] 0)) ∧
     (Issues s x ⟨.always, [], [(.s rd, 1)]⟩ →
       let gives (v : Word) : Prop := exec (.crd rd cidx) s = .next (s.sresult 1 rd ⟨v, 0⟩ 0)
       (cidx = 0x000 → gives (word x.rmode.toNat)) ∧ (cidx = 0x001 → gives (word x.fflags.toNat)) ∧
       (cidx = 0x002 → gives (if x.chkmode then 1 else 0)) ∧ (cidx = 0x003 → gives (word x.vbase.val)) ∧
       (cidx = 0x004 → gives (word (2 * x.pbase.val))) ∧ (cidx = 0x005 → gives (word x.livecnt.toNat)) ∧
       (cidx = 0x010 → gives x.tvec) ∧ (cidx = 0x011 → gives x.tepc) ∧ (cidx = 0x012 → gives x.tcause) ∧
       (cidx = 0x013 → gives x.tval) ∧ (cidx = 0x014 → gives x.tscratch) ∧
       (cidx = 0x020 → gives (word ((if s.core.bank then 2048 else 0) + s.cur.val / 16 * 128 + s.cur.val % 16 * 8))) ∧
       (cidx = 0x021 → gives (word x.partId.toNat)) ∧ (cidx = 0x022 → gives (word x.tindex.toNat)) ∧
       (cidx = 0x023 → gives (word s.core.bc))) ∧
     (Issues s x ⟨.always, [.s rs], []⟩ →
       exec (.cwr rs cidx) s = .next (s.modCtx fun y => { y with deferred := y.deferred ++ [.creg cidx (x.sdata rs)] }))) ∧
  (∀ (x : Context) (w : Word),
     (x.controlWrite 0x000 w).rmode.toNat = w.toNat % 8 ∧
     (∀ i : Fin 5, (x.controlWrite 0x001 w).fflags[i] = (x.fflags[i] && !w.getLsbD i.val)) ∧
     (x.controlWrite 0x002 w).chkmode = w.getLsbD 0 ∧
     (x.controlWrite 0x003 w).vbase.val = w.toNat % 64 % 24 ∧
     2 * (x.controlWrite 0x004 w).pbase.val = w.toNat % 8 - w.toNat % 2 ∧
     (x.controlWrite 0x005 w).livecnt.toNat = w.toNat % 2 ^ 16 ∧
     (x.controlWrite 0x010 w).tvec.toNat = w.toNat % 2 ^ 52 - w.toNat % 4 ∧
     (x.controlWrite 0x011 w).tepc = w ∧ (x.controlWrite 0x012 w).tcause.toNat = w.toNat % 2 ^ 13 ∧
     (x.controlWrite 0x013 w).tval = w ∧ (x.controlWrite 0x014 w).tscratch = w ∧
     (∀ c ∈ [(0x020 : BitVec 12), 0x021, 0x022, 0x023], x.controlWrite c w = x))

/-- R124 and R125: a scalar load or store whose address is in range, aligned and in a tile of the issuing context puts down
its access; otherwise the first failing check traps with TVAL the address, and `stf` looks at the rounding mode before. -/
def Obligations.ScalarGranaryWords : Prop :=
  ∀ (s : State) (x : Context) (rd rs : BitVec 5) (ty : BitVec 3) (off : BitVec 9),
    let at_ (sz : Nat) : Word := BitVec.ofInt 64 ((x.sdata rs).toInt + off.toInt * sz)
    let outcome (i : Instr) (sz : Nat) (t : State) : Prop :=
      exec i s = .next
        (if 0x180000 ≤ (at_ sz).toNat then s.trap 0x04 s.issue.pos (at_ sz)
        else if (at_ sz).toNat % sz ≠ 0 then s.trap 0x05 s.issue.pos (at_ sz)
        else if (s.core.tile ((at_ sz).toNat / 24576)).owner ≠ (if s.core.bank then 2 else 1) then s.trap 0x06 s.issue.pos (at_ sz)
        else t)
    (Issues s x ⟨.always, [.s rs], [(.s rd, 4)]⟩ → ty ≠ 7 →
      let sz := 2 ^ (ty.toNat / 2)
      outcome (.ld rd rs ty off) sz (s.load 4 (at_ sz).toNat sz (.scalar rd (ty.toNat % 2 == 0)) (.s rd))) ∧
    (Issues s x ⟨.always, [.s rs, .s rd], []⟩ →
      (ty ∈ [(1 : BitVec 3), 3, 5, 6] →
        let sz := if ty = 6 then 8 else 2 ^ (ty.toNat / 2)
        outcome (.st rd rs ty off) sz (s.store (at_ sz).toNat (leBytes sz (x.sdata rd).toNat) 0)) ∧
      (ty.toNat < 5 →
        let f := floatFmt ty
        let sz := f.width / 8
        (6 ≤ x.rmode.toNat → exec (.stf rd rs ty off) s = .next (s.trap 0x07 s.issue.pos 0)) ∧
        (x.rmode.toNat < 6 →
          let r := final f (storeMode x).single (x.fval f rd)
          outcome (.stf rd rs ty off) sz (s.store (at_ sz).toNat (leBytes sz r.1) r.2))))

/-- R127, R128 and R129: where a transfer of control goes and whether it is taken; `call` and `callr` start the write of s1,
`loop` that of its counter and the rotation of VBASE and PBASE. R20, R99, R129: after a bundle that is no delay bundle issue goes on at the next word, with a decision pending if it held
a branch; after a delay bundle it goes on at the target of a taken branch, else at the next word; and a rotation lowers VBASE
by 1 modulo 24 and PBASE by 2 modulo 8. -/
def Obligations.BranchWords : Prop :=
  (∀ (s : State) (x : Context) (g : BitVec 4) (rs : BitVec 5) (bitn o6 : BitVec 6) (o12 : BitVec 12) (o17 : BitVec 17),
     let a := x.sdata rs
     let dest (o : Int) : Word := BitVec.ofInt 64 (x.pc.toNat + o * 4)
     let next : State := s.branch true a
     (Issues s x ⟨.scalar g, [], []⟩ → exec (.br g o17) s = .next (s.branch true (dest o17.toInt))) ∧
     (Issues s x ⟨.scalar g, [], [(.s 1, 1)]⟩ →
       exec (.call g o17) s = .next ((s.branch true (dest o17.toInt)).sresult 1 1 ⟨s.issue.after, 0⟩ 0)) ∧
     (Issues s x ⟨.scalar g, [.s rs], []⟩ →
       exec (.bz g rs o12) s = .next (s.branch (decide (a = 0)) (dest o12.toInt)) ∧
       exec (.bnz g rs o12) s = .next (s.branch (decide (a ≠ 0)) (dest o12.toInt)) ∧
       exec (.bbs g rs bitn o6) s = .next (s.branch (a.getLsbD bitn.toNat) (dest o6.toInt)) ∧
       exec (.bbc g rs bitn o6) s = .next (s.branch (!a.getLsbD bitn.toNat) (dest o6.toInt)) ∧
       exec (.jr g rs) s = .next (if a.toNat % 4 = 0 ∧ a.toNat < 2 ^ 52 then next else s.trap 0x08 s.issue.pos a)) ∧
     (Issues s x ⟨.scalar g, [.s rs], [(.s 1, 1)]⟩ →
       exec (.callr g rs) s = .next
         (if a.toNat % 4 = 0 ∧ a.toNat < 2 ^ 52 then next.sresult 1 1 ⟨s.issue.after, 0⟩ 0 else s.trap 0x08 s.issue.pos a)) ∧
     (Issues s x ⟨.scalar g, [.s rs], [(.s rs, 1)]⟩ →
       exec (.loop g rs o12) s = .next
         (((s.branch (decide (a ≠ 1)) (dest o12.toInt)).defer .rotate).sresult 1 rs ⟨a - 1, 0⟩ 0))) ∧
  (∀ (x : Context) (size : Nat),
     (∀ d : Delay, (x.advance size (some d) false).delay = none ∧
       (x.advance size (some d) false).pc = (if d.taken then d.target else x.pc + word size) ∧
       (x.advance size (some d) false).hact = (if d.taken ∧ d.tret then false else x.hact)) ∧
     (x.advance size none false).pc = x.pc + word size ∧ (x.advance size none false).delay = none ∧
     (x.advance size none true).pc = x.pc + word size ∧ (x.advance size none true).delay = some (x.delay.getD ⟨false, 0, false⟩) ∧
     (x.rotate.vbase.val + 1) % 24 = x.vbase.val ∧ (2 * x.rotate.pbase.val + 2) % 8 = 2 * x.pbase.val)

/-- R101, R208, R209 and R210: `wait` and `waitr` go on once (COUNT − threshold) mod 2^16 is below 2^15, trap when the token
carries an error, and else hold the bundle; `tkset` sets the token and `dly` the empty cycles. -/
def Obligations.TokenWords : Prop :=
  ∀ (s : State) (x : Context) (g : BitVec 4) (k rs : BitVec 5) (thr : BitVec 12) (num : BitVec 8),
    let t := x.k[k.toFin]
    let outcome (i : Instr) (n : Nat) : Prop :=
      exec i s = .next
        (if (t.count.toNat + 2 ^ 16 - n) % 2 ^ 16 < 2 ^ 15 then
          (if t.err then s.trap 0x0C s.issue.pos (word (k.toNat + t.ecode.toNat * 2 ^ 8 + t.count.toNat * 2 ^ 16)) else s)
        else s.held)
    (Issues s x ⟨.scalar g, [], []⟩ →
      outcome (.wait g k thr) thr.toNat ∧
      exec (.tkset g k thr) s = .next (s.modCtx fun y => { y with deferred := y.deferred ++ [.tokenSet k thr] }) ∧
      exec (.dly g num) s = .next (s.modCtx fun y => { y with dly := num.toNat })) ∧
    (Issues s x ⟨.scalar g, [.s rs], []⟩ → outcome (.waitr g k rs) ((x.sdata rs).toNat % 2 ^ 16))

/-- R20, R26, R123, R203 and R210: the deferred writes of a bundle, however many, stand from the next bundle on: a rotation
wherever it stands first, so that an explicit write of VBASE or PBASE stands; then the other writes one after the other in the
order of their words, but that of two `cwr` of one register only the higher-placed writes it. -/
def Obligations.DeferredWritesTakeEffect : Prop :=
  ∀ (k : Core) (x : Context) (now : Nat), k.ctx? k.bank = some x →
    let left (y : Context) (ds : List Deferred) : Core := k.setCtx k.bank (some { y with deferred := ds })
    let done : Core := k.applyDeferred now
    (x.deferred = [] → done = k) ∧
    (∀ ds es, x.deferred = ds ++ .rotate :: es → done = (left x.rotate (ds ++ es)).applyDeferred now) ∧
    (∀ ds, .rotate ∉ ds →
      (∀ c w, x.deferred = .creg c w :: ds →
        ((∃ v, .creg c v ∈ ds) → done = (left x ds).applyDeferred now) ∧
        ((∀ v, .creg c v ∉ ds) → done = (left (x.controlWrite c w) ds).applyDeferred now)) ∧
      (∀ t v, x.deferred = .tokenSet t v :: ds →
        done = (left { x with k := x.k.set t.toFin ⟨BitVec.ofNat 16 v.toNat, false, 0⟩ } ds).applyDeferred now) ∧
      (∀ t o, x.deferred = .tileGive t o :: ds → done = ((left x ds).giveTile t o k.bank now).applyDeferred now)) ∧
    (∀ c d v w, c ≠ d → x.deferred = [.creg c v, .creg d w] →
      done.ctx? k.bank = some { (x.controlWrite c v).controlWrite d w with deferred := [] }) ∧
    (∀ c v w, x.deferred = [.creg c v, .creg c w] → done.ctx? k.bank = some { x.controlWrite c w with deferred := [] }) ∧
    (∀ w, x.deferred = [.creg 0x003 w, .rotate] ∨ x.deferred = [.rotate, .creg 0x003 w] →
      ∃ y, done.ctx? k.bank = some y ∧ y.vbase.val = w.toNat % 64 % 24 ∧ (2 * y.pbase.val + 2) % 8 = 2 * x.pbase.val) ∧
    (∀ w, x.deferred = [.creg 0x004 w, .rotate] ∨ x.deferred = [.rotate, .creg 0x004 w] →
      ∃ y, done.ctx? k.bank = some y ∧ 2 * y.pbase.val = w.toNat % 8 - w.toNat % 2 ∧ (y.vbase.val + 1) % 24 = x.vbase.val) ∧
    (∀ (t : Fin 64) (o : BitVec 3) (b : Bool), let g := k.giveTile t.val o b now
      (g.tiles[t]).owner = o ∧ (g.tiles[t]).giver = b ∧ (∀ n : Fin 64, n ≠ t → g.tiles[n] = k.tiles[n]) ∧ g.granary = k.granary ∧
        ∀ q : Fin 4, g.quarters[q] = if t.val / 16 = q.val ∧ o ≠ 0 ∧ k.quarters[q] = .gated then .waking else k.quarters[q])

/-- R241, R242, R130 and R357: the software trap traps with TVAL its code; `tret` goes to TEPC with HACT cleared, and traps
with no handler active or a TEPC that is no code address; `end` ends the task; a fence or a release goes on only once every
earlier Wain and fabric command has posted. -/
def Obligations.TrapReturnEndAndFence : Prop :=
  ∀ (s : State) (x : Context) (g : BitVec 4) (code : BitVec 12) (scope : BitVec 3),
    Issues s x ⟨.scalar g, [], []⟩ →
    exec (.trap g code) s = .next (s.trap 0x20 s.issue.pos (word code.toNat)) ∧
    exec (.tret g) s = .next
      (if x.hact ∧ x.tepc.toNat % 4 = 0 ∧ x.tepc.toNat < 2 ^ 52 then
        s.modCtx fun y => { y with delay := some ⟨true, x.tepc, true⟩ }
      else s.trap 0x08 s.issue.pos x.tepc) ∧
    exec (.endTask g) s = .next (s.modCtx fun y => { y with status := .ending x.pc (word s.issue.pos) 0 0 }) ∧
    exec (.fence g scope) s = .next
      (if x.wain = [] ∧ x.fabric = [] then s else s.held)

/-! ### Bundle words: signals, launches, barriers, instruction-store locks, tile owners -/

/-- R131, R336, R402, R404: the checks of both signal words: a misaligned address, an aperture's page, a gate window, which is no
memory, and memory out of reach (log entry 77, the model's choice of the cause) trap; a page that faults is a synchronous page fault of the word's KIND, which drains the bank first (R243). R132: `sig.dec` on memory,
once the task's earlier Wain and fabric commands have posted, issues: it lowers the 64-bit value there by s[rt] modulo 2^64 and
changes no other byte and no register; before that it holds. R133: `sig.wait` goes on when the signed value at its address is at
most s[rt]; else a task that is no gang member suspends, once it has drained, and a gang member holds. No memory byte and no
register changes; a member that holds has read the signal's line through the Barn all the same. (A value whose line is in error is free, log entry 5; a line that leaves a full Barn way may bring older bytes
of host memory back, log entry 49.) -/
def Obligations.SignalWords : Prop :=
  ∀ (s : State) (x : Context) (g : BitVec 4) (rs rt : BitVec 5),
    Issues s x ⟨.scalar g, [.s rs, .s rt], []⟩ →
    let a := x.sdata rs
    let tr (acc : Access) : Trans := s.translate (coreDie s.cur) x.partId x.extents a.toNat 8 acc
    (∀ i acc, (i, acc) ∈ [(Instr.sigDec g rs rt, Access.atomic), (.sigWait g rs rt, .read)] →
      (a.toNat % 8 ≠ 0 → exec i s = .next (s.trap 0x05 s.issue.pos a)) ∧
      (a.toNat % 8 = 0 →
        (∀ leaf level, tr acc = .aper leaf level → exec i s = .next (s.trap 0x06 s.issue.pos a)) ∧
        (tr acc = .fail ∨ tr acc = .lost → exec i s = .next (s.trap 0x0A s.issue.pos a)) ∧
        (∀ pa leaf, tr acc = .phys pa leaf → s.severed (coreDie s.cur) pa 8 = true ∨ (∃ d, physKind pa = .gate d) →
          exec i s = .next (s.trap 0x0A s.issue.pos a)) ∧
        (∀ c, tr acc = .fault c → ∃ t, exec i s = .next t ∧ t.issue.stop = .trapped ∧ t.mem = s.mem ∧
          t.cores = (s.modCtx fun y => { y with status := .draining (.fault 0x0A a (if acc = .read then 1 else 3) (BitVec.ofNat 4 s.issue.pos)) }).cores))) ∧
    (∀ pa leaf, a.toNat % 8 = 0 → tr .atomic = .phys pa leaf → s.severed (coreDie s.cur) pa 8 = false → (∀ d, physKind pa ≠ .gate d) →
      (¬ (x.wain = [] ∧ x.fabric = []) → exec (.sigDec g rs rt) s = .next s.held) ∧
      (x.wain = [] → x.fabric = [] → ∃ t, exec (.sigDec g rs rt) s = .next t ∧ t.issue = s.issue ∧ t.cores = s.cores ∧
        t.clusters = s.clusters ∧ t.reread = true ∧
        (s.memoryWf = true → s.barnWf = true → (∀ k < 8, hasMemory (pa + k) = true) →
          (s.memBad pa 8 = false → t.devNat pa 8 = (s.devNat pa 8 + 2 ^ 64 - (x.sdata rt).toNat) % 2 ^ 64) ∧
          ∀ b, b < pa ∨ pa + 8 ≤ b → s.sameByte t b))) ∧
    (∀ pa leaf, a.toNat % 8 = 0 → tr .read = .phys pa leaf → s.severed (coreDie s.cur) pa 8 = false → (∀ d, physKind pa ≠ .gate d) →
      let met : Prop := (s.signalRead pa).toInt ≤ (x.sdata rt).toInt
      (s.memBad pa 8 = false → s.signalRead pa = word (s.devNat pa 8)) ∧
      (met → ∃ t, exec (.sigWait g rs rt) s = .next t ∧ t.issue = s.issue ∧ t.cores = s.cores ∧ t.clusters = s.clusters ∧ ∀ b, s.sameByte t b) ∧
      (¬ met → x.barrier ≠ none → exec (.sigWait g rs rt) s = .next (s.touch pa 8).held ∧ ∀ b, s.sameByte (s.touch pa 8).held b) ∧
      (¬ met → x.barrier = none → ∃ t, exec (.sigWait g rs rt) s = .next t ∧ t.issue = s.issue ∧ (∀ b, s.sameByte t b) ∧
        t.cores = (s.modCtx fun y => { y with status := .draining (.suspend (x.sdata rs) (x.sdata rt)) }).cores))

/-- R333 (log entries 17 and 25, whose choices this rests on): `sys.launch` traps with TVAL 1, 2 or
3 on a queue that takes no launch of this task, reserved bits, or a full ring; else, released,
it writes a LAUNCH packet of the record's address at QTAIL, and QTAIL rises by 1. R307: a `bar`
waits for the task's Wain commands; outside a gang it then goes on; a member that finds its
generation complete goes on, and one that has not arrived yet arrives and holds. -/
def Obligations.LaunchAndBarrierWords : Prop :=
  (∀ (s : State) (x : Context) (g : BitVec 4) (rs : BitVec 5),
     Issues s x ⟨.scalar g, [.s rs], []⟩ →
     let v := x.sdata rs
     let d := coreDie s.cur
     let qn : Fin 64 := launchQueue v
     let q := (s.dies[d]).granger.queues[qn]
     qn.val = v.toNat / 2 ^ 52 % 64 ∧
     (¬ (q.kind = true ∧ q.en = true ∧ q.part = x.partId ∧ q.size.toNat ≤ 12) →
       exec (.sysLaunch g rs) s = .next (s.trap 0x10 s.issue.pos 1)) ∧
     (q.kind = true → q.en = true → q.part = x.partId → q.size.toNat ≤ 12 →
       (v.toNat % 64 ≠ 0 ∨ v.toNat / 2 ^ 58 ≠ 0 → exec (.sysLaunch g rs) s = .next (s.trap 0x10 s.issue.pos 2)) ∧
       (v.toNat % 64 = 0 → v.toNat / 2 ^ 58 = 0 →
         (2 ^ (q.size.toNat + 4) ≤ q.qtail - q.qhead → exec (.sysLaunch g rs) s = .next (s.trap 0x10 s.issue.pos 3)) ∧
         (q.qtail - q.qhead < 2 ^ (q.size.toNat + 4) → ¬ (x.wain = [] ∧ x.fabric = []) →
           exec (.sysLaunch g rs) s = .next s.held) ∧
         (q.qtail - q.qhead < 2 ^ (q.size.toNat + 4) → x.wain = [] → x.fabric = [] →
           ∃ t, exec (.sysLaunch g rs) s = .next t ∧
             ((t.dies[d]).granger.queues[qn]).qtail = (q.qtail + 1) % 2 ^ 64 ∧ t.cores = s.cores ∧
             t = (s.virtWrite d q.part (q.qbase.toNat / 64 % 2 ^ 46 * 64 + 64 * (q.qtail % 2 ^ (q.size.toNat + 4)))
               ([1, 0, 0, 0, 0, 0, 0, 0] ++ leBytes 8 (v.toNat % 2 ^ 52) ++ List.replicate 48 0)).updQueue d qn
                 fun u => { u with qtail := (u.qtail + 1) % 2 ^ 64 })))) ∧
  (∀ (s : State) (x : Context) (g : BitVec 4), Issues s x ⟨.scalar g, [], []⟩ →
     (x.wain ≠ [] → exec (.bar g) s = .next s.held) ∧
     (x.wain = [] → s.barrier? s.cur x = none → exec (.bar g) s = .next (s.modCtx fun y => { y with arrived := none })) ∧
     (∀ b n, x.wain = [] → s.barrier? s.cur x = some b → x.arrived = some n →
       exec (.bar g) s = .next (if n < b.gen then s.modCtx fun y => { y with arrived := none } else s.held)) ∧
     (∀ b m, x.wain = [] → x.barrier = some m → s.barrier? s.cur x = some b → x.arrived = none →
       exec (.bar g) s = .next
         ((s.updCluster (clusterOf s.cur) fun k => k.modBarrier m fun b => b.arrive x.task).modCtx fun y =>
           { y with arrived := some b.gen }).held))

/-- R231 and R232 (log entries 5 and 26, whose choices this rests on): `ilock` on a row that is in
the store answers 1 where the bank locks it already, 2 where it would be the 33rd locked row,
and else 0, and then the bank locks it; `iunlk` releases the bank's lock. R202 and R203: `tgive`
changes a tile's owner from the next bundle where the table permits it, and else traps with TVAL
24,576 × tile. -/
def Obligations.LocksAndTiles : Prop :=
  (∀ (s : State) (x : Context) (g : BitVec 4) (rd rs : BitVec 5),
     let a := (x.sdata rs).toNat
     let locked := (s.core.istore.filter fun q => q.lockA || q.lockB).length
     (∀ r, Issues s x ⟨.scalar g, [.s rs], [(.s rd, 1)]⟩ →
       s.core.row x.partId a = some r →
       let st := if r.lockedBy s.core.bank = true then 1 else if r.lockA = false ∧ r.lockB = false ∧ 32 ≤ locked then 2 else 0
       exec (.ilock g rd rs) s = .next ((if st = 0 then s.setLock x a true else s).sresult 1 rd ⟨word st, 0⟩ 0)) ∧
     (∀ tr, Issues s x ⟨.scalar g, [.s rs], [(.s rd, 1)]⟩ → s.core.row x.partId a = none →
       s.translate (coreDie s.cur) x.partId x.extents (a / 2048 * 2048) 2048 .fetch = tr →
       ((∀ pa leaf, tr ≠ .phys pa leaf) → exec (.ilock g rd rs) s = .next (s.sresult 1 rd ⟨3, 0⟩ 0)) ∧
       (∀ pa leaf, tr = .phys pa leaf → s.memBad pa 2048 = true ∨ s.severed (coreDie s.cur) pa 2048 = true →
         exec (.ilock g rd rs) s = .next (s.sresult 1 rd ⟨3, 0⟩ 0)) ∧
       (∀ pa leaf, tr = .phys pa leaf → s.memBad pa 2048 = false → s.severed (coreDie s.cur) pa 2048 = false → s.core.istore.length < 128 → ∃ t y, exec (.ilock g rd rs) s = .next t ∧
         t.issue = s.issue ∧ t.ctx? = some y ∧ (∃ r, t.core.row x.partId a = some r ∧ r.lockedBy s.core.bank = decide (locked < 32)) ∧
         y.pend = (s.sresult 1 rd ⟨if locked < 32 then 0 else 2, 0⟩ 0).ctx?.elim [] (·.pend))) ∧
     (Issues s x ⟨.scalar g, [.s rs], []⟩ → exec (.iunlk g rs) s = .next (s.setLock x a false)) ∧
     (∀ on, ∀ r ∈ (s.setLock x a on).core.istore, r.addr = a / 2048 * 2048 → r.part = x.partId → r.lockedBy s.core.bank = on)) ∧
  (∀ (s : State) (x : Context) (g : BitVec 4) (tile : BitVec 6) (owner : BitVec 3), Issues s x ⟨.scalar g, [], []⟩ →
     let k := s.core
     let t := k.tiles[tile.toFin]
     let self : BitVec 3 := if k.bank then 2 else 1
     let holder : Prop := k.matrix.holder = some k.bank
     let ok : Prop :=
       (t.owner = self ∧ (owner = self ∨ owner = 0 ∨ owner = 4 ∨ owner = 6 ∨ (owner = 3 ∧ holder))) ∨
       (t.owner = 4 ∧ t.giver = k.bank ∧ (owner = self ∨ owner = 0) ∧ ∀ c ∈ x.wain, tile.toNat ∉ tilesOf c.spans) ∨
       (t.owner = 3 ∧ holder ∧ (owner = self ∨ owner = 0) ∧ ∀ c ∈ k.matrix.queue, tile.toNat ∉ tilesOf c.spans)
     (¬ ok → exec (.tgive g tile owner) s = .next (s.trap 0x06 s.issue.pos (word (24576 * tile.toNat)))) ∧
     (ok → owner = t.owner → exec (.tgive g tile owner) s = .next s) ∧
     (ok → owner ≠ t.owner → exec (.tgive g tile owner) s = .next
       ((if owner = 0 then s.freeCrib s.cur tile.toNat else s).modCtx fun y =>
         { y with deferred := y.deferred ++ [.tileGive tile.toNat owner] })))

/-! ### Bundle words: vectors (spec/05)

A vector word with one result answers `s.result lat [.v r val mask] flags`: the physical register `r` that vd names at issue
will receive `val` under `mask`, which `mapElems guard w f` builds from the element results `f i`;
`Obligations.ElementsLandInTheirPlaces` says what that leaves in each element. -/

/-- R136-R139, and R17: a result built from one optional element for each place, written under its mask, leaves in each written
element of width w its low w bits and its tail, with 00 in its other tail pairs, and in every other element what the register held;
an element is written exactly when the guard bit of its lowest byte lane is 1, and a flag is raised when an enabled element raises
it. R46-R51, R53, R55-R57, R62, R118, R152, R157, R161: the values that the statements about words leave to `carry`, `final`,
`sumAll`, `roundBlock`, `quantHead`, `quantise`, `blockImage`, `blockDecode`, `msum` and the exact operations, in real numbers. `carry` rounds to odd at p + 2
bits and saturates at maxc, and so do quotients and roots; `final` rounds in its mode, with its flags and overflows; one row or block
under RNE-EF carries each residual into the next element, a residual of zero adding nothing (log entry 83, the model's reading); a
block has the outlier, the least scale and the X of R57, and the codes of its loop, 1000 at the outlier's place whatever stands there
(log entry 81, the model's choice); a product step without block scales is one exact sum, rounded to odd at 34 bits and added. The
other functions of R157 are not restated here. -/
def Obligations.ElementsLandInTheirPlaces : Prop :=
  let val (v : FVal) : ℝ := match v with | .fin n m e => (if n then -1 else 1) * m * (2 : ℝ) ^ e | _ => 0
  let finite (v : FVal) : Prop := v.isNan = false ∧ v.isInf = false
  let zero : FVal := .fin false 0 0
  let maxc (f : FFmt) : ℝ := match f with
    | .f32 => 2 ^ 128 - 2 ^ 102 | .f16 => 65528 | .bf16 => 2 ^ 128 - 2 ^ 118 | .e5m2 => 63488 | .e4m3 => 472 | .e2m1 => 7.5
  let largest (f : FFmt) : ℝ := match f with
    | .f32 => 2 ^ 128 - 2 ^ 104 | .f16 => 65504 | .bf16 => 2 ^ 128 - 2 ^ 120 | .e5m2 => 57344 | .e4m3 => 448 | .e2m1 => 6
  let emin (f : FFmt) : Int := match f with | .f32 => -126 | .f16 => -14 | .bf16 => -126 | .e5m2 => -14 | .e4m3 => -6 | .e2m1 => 0
  let prec (f : FFmt) : Int := match f with | .f32 => 24 | .f16 => 11 | .bf16 => 8 | .e5m2 => 3 | .e4m3 => 4 | .e2m1 => 2
  let carries (f : FFmt) (neg : Bool) (x : ℝ) (r : Elem) : Prop := r.code < 2 ^ f.width ∧ r.tail < 4 ∧
    ∀ (fl : Int) (n : Nat), (2 : ℝ) ^ fl ≤ x → x < (2 : ℝ) ^ (fl + 1) →
      let q : ℝ := (2 : ℝ) ^ (max fl (emin f) - prec f - 1)
      n * q ≤ x → x < (n + 1) * q → ∃ m e, carried f r = .fin neg m e ∧
        (m : ℝ) * (2 : ℝ) ^ e = min ((if n * q = x then (n : ℝ) else ((n ||| 1 : Nat) : ℝ)) * q) (maxc f)
  (∀ (old : VVal) (p : PData) (w : Nat), w ∈ [4, 8, 16, 32] →
    ∀ (f : Nat → Elem × Flags),
      let new := old.merge (mapElems p w f).1.1 (mapElems p w f).1.2
      (∀ i < 4096 / w, new.elem w i = if p.getLsbD (i * w / 8) then ⟨(f i).1.code % 2 ^ w, (f i).1.tail % 4⟩ else old.elem w i) ∧
      (∀ i < 4096 / w, ∀ j, 0 < j → j < w / 4 → new.tail.extractLsb' (2 * (i * w / 4 + j)) 2 =
        if p.getLsbD (i * w / 8) then 0 else old.tail.extractLsb' (2 * (i * w / 4 + j)) 2) ∧
      (∀ b : Fin 5, (mapElems p w f).2[b] = true ↔ ∃ i < 4096 / w, p.getLsbD (i * w / 8) = true ∧ (f i).2[b] = true)) ∧
  (∀ (f : FFmt) (neg : Bool) (mag : Nat) (e : Int),
    (0 < mag → carries f neg (mag * (2 : ℝ) ^ e) (carry f (.fin neg mag e))) ∧
    carry f (.fin neg 0 e) = ⟨if neg then 2 ^ (f.width - 1) else 0, 0⟩ ∧
    (f ≠ .e2m1 → (carry f .nan).tail = 0 ∧ carried f (carry f .nan) = .nan) ∧
    (f ≠ .e4m3 → f ≠ .e2m1 → (carry f (.inf neg)).tail = 0 ∧ carried f (carry f (.inf neg)) = .inf neg) ∧
    (f = .e4m3 ∨ f = .e2m1 → ∃ m g, carried f (carry f (.inf neg)) = .fin neg m g ∧ (m : ℝ) * (2 : ℝ) ^ g = maxc f)) ∧
  (∀ (f : FFmt) (m : RMode) (neg : Bool) (mag : Nat) (e fl lo : Int), 0 < mag →
    let x : ℝ := val (.fin neg mag e)
    let r := final f m (.fin neg mag e)
    let q : ℝ := (2 : ℝ) ^ (max fl (emin f) - prec f + 1)
    let rest : ℝ := x - lo * q
    (2 : ℝ) ^ fl ≤ |x| → |x| < (2 : ℝ) ^ (fl + 1) → 0 ≤ rest → rest < q →
    let y : Int := if rest = 0 then lo else match m with
      | .rtz => if neg then lo + 1 else lo | .rdn => lo | .rup => lo + 1
      | .rna => if rest * 2 < q then lo else if q < rest * 2 then lo + 1 else if neg then lo else lo + 1
      | .rne | .rneEf => if rest * 2 < q then lo else if q < rest * 2 then lo + 1 else if lo % 2 = 0 then lo else lo + 1
    let saturates : Prop := f = .e4m3 ∨ f = .e2m1 ∨ m = .rtz ∨ (m = .rdn ∧ neg = false) ∨ (m = .rup ∧ neg = true)
    r.1 < 2 ^ f.width ∧
    (|y * q| ≤ largest f → (∃ m' e', valueOf f r.1 = .fin neg m' e' ∧ (m' : ℝ) * (2 : ℝ) ^ e' = |y * q|) ∧
      r.2 = if rest = 0 then 0 else if |x| < (2 : ℝ) ^ emin f then 3 else 1) ∧
    (largest f < |y * q| → r.2 = 5 ∧ (saturates → ∃ m' e', valueOf f r.1 = .fin neg m' e' ∧ (m' : ℝ) * (2 : ℝ) ^ e' = largest f) ∧
      (¬ saturates → valueOf f r.1 = .inf neg))) ∧
  (∀ (f : FFmt) (m : RMode) (neg : Bool) (e : Int), final f m (.fin neg 0 e) = (if neg then 2 ^ (f.width - 1) else 0, 0) ∧
    (f ≠ .e2m1 → (final f m .nan).2 = 0 ∧ valueOf f (final f m .nan).1 = .nan) ∧
    (f ≠ .e4m3 → f ≠ .e2m1 → (final f m (.inf neg)).2 = 0 ∧ valueOf f (final f m (.inf neg)).1 = .inf neg) ∧
    (f = .e4m3 ∨ f = .e2m1 → (final f m (.inf neg)).2 = 5 ∧ ∃ m' e', valueOf f (final f m (.inf neg)).1 = .fin neg m' e' ∧ (m' : ℝ) * (2 : ℝ) ^ e' = largest f)) ∧
  (∀ (n1 n2 : Bool) (m1 m2 : Nat) (e1 e2 : Int),
    let u : FVal := .fin n1 m1 e1
    let v : FVal := .fin n2 m2 e2
    (∃ n m e, u.add v = (.fin n m e, 0) ∧ val (.fin n m e) = val u + val v ∧ (val u + val v = 0 → n = (m1 == 0 && m2 == 0 && n1 && n2))) ∧
    (∃ m e, u.mul v = (.fin (n1 != n2) m e, 0) ∧ val (.fin (n1 != n2) m e) = val u * val v) ∧
    (∀ f : FFmt, 0 < m1 → 0 < m2 → (fdivElem f u v).2 = 0 ∧ carries f (n1 != n2) |val u / val v| (fdivElem f u v).1) ∧
    (∀ f : FFmt, 0 < m1 → n1 = false → (fsqrtElem f u).2 = 0 ∧ carries f false (Real.sqrt (val u)) (fsqrtElem f u).1) ∧
    (∀ (f : FFmt) (r : Elem), 0 < m1 → carried f r = u →
      (specialElem .rcp f r).2 = 0 ∧ carries f n1 (1 / |val u|) (specialElem .rcp f r).1 ∧
      (n1 = false → (specialElem .sqrt f r).2 = 0 ∧ carries f false (Real.sqrt (val u)) (specialElem .sqrt f r).1 ∧
        (specialElem .rsqrt f r).2 = 0 ∧ carries f false (1 / Real.sqrt (val u)) (specialElem .rsqrt f r).1))) ∧
  (∀ vs : List FVal, (∀ v ∈ vs, finite v) →
    ∃ n m e, sumAll vs = (.fin n m e, 0) ∧ val (.fin n m e) = (vs.map val).sum ∧
      ((vs.map val).sum = 0 → (n = true ↔ vs ≠ [] ∧ ∀ v ∈ vs, v.isZero = true ∧ v.neg? = true))) ∧
  (∀ (f t : FFmt) (xs : List (Option FVal)), (roundBlock f t .rneEf xs).length = xs.length ∧
    ∃ res : Nat → FVal, res 0 = zero ∧ ∀ i,
      (xs[i]? = some none → (roundBlock f t .rneEf xs)[i]? = some none ∧ res (i + 1) = res i) ∧
      ∀ x, xs[i]? = some (some x) →
        let c := if (res i).isZero then x else carried t (carry t (x.add (res i)).1)
        let y := final f .rneEf c
        (roundBlock f t .rneEf xs)[i]? = some (some y) ∧
        res (i + 1) = if (valueOf f y.1).isNan || (valueOf f y.1).isInf || y.2.getLsbD 2 then zero else (c.sub (valueOf f y.1)).1) ∧
  (∀ (f t : FFmt) (m : RMode) (xs : List (Option FVal)), m ≠ .rneEf → roundBlock f t m xs = xs.map fun x => x.map fun v => final f m v) ∧
  (∀ (f : FFmt) (m : RMode) (xs : List FVal), (roundStream f m none xs).1.map some = roundBlock f .f32 m (xs.map some)) ∧
  (∀ (h : Header) (code : Nat), code < 16 →
    let e : FVal := if code = 8 then valueOf .e4m3 (h.toNat % 2 ^ 8) else valueOf .e2m1 code
    let sexp : Nat := h.toNat / 2 ^ 24
    let r := blockDecode h code
    (sexp = 255 → r = .nan) ∧ (sexp = 0 → r = zero) ∧
    (sexp ≠ 255 → sexp ≠ 0 → (code = 8 → h.toNat % 2 ^ 7 = 0 → r = zero) ∧ (finite e → finite r ∧
      val r = val e * ((1 + ((h.toNat / 2 ^ 8 % 2 ^ 16 : Nat) : ℝ) / 65536) * (2 : ℝ) ^ ((sexp : Int) - 127))))) ∧
  (∀ (m : RMode) (vs : List FVal), vs.length = 32 →
    let h := quantHead vs
    let cs := quantCodes m (scaleVal h.sexp h.sfrac) h.xv h.oidx 0 zero vs
    let q := quantise m vs
    (h.nanb = true → q = (List.replicate 32 0, 0xFF000000, h.flags)) ∧ (h.nanb = false → h.sexp = 0 → q = (List.replicate 32 0, 0, h.flags)) ∧
    (h.nanb = false → h.sexp ≠ 0 → q.1 = cs.map (·.1) ∧ q.2.1 = BitVec.ofNat 32 (h.sexp * 2 ^ 24 + h.sfrac * 2 ^ 8 + h.xv) ∧
      ∀ k : Fin 5, q.2.2[k] = true ↔ h.flags[k] = true ∨ ∃ c ∈ cs, c.2[k] = true)) ∧
  (∀ vs : List FVal, vs.length = 32 → (∀ v ∈ vs, ∃ r : Elem, v = carried .f32 r) →
    let h := quantHead vs
    let mag (i : Nat) : ℝ := |val (vs.getD i zero)|
    let scale (e f : Nat) : ℝ := (1 + (f : ℝ) / 65536) * (2 : ℝ) ^ ((e : Int) - 127)
    ((∃ v ∈ vs, ¬ finite v) → h.sexp = 255 ∧ h.sfrac = 0 ∧ h.xv = 0 ∧ h.nanb = true ∧ h.flags = 16) ∧
    ((∀ v ∈ vs, finite v) → h.nanb = false ∧
      ((∀ i < 32, mag i = 0) → h.sexp = 0 ∧ h.sfrac = 0 ∧ h.xv = 0 ∧ h.oidx = 0 ∧ h.flags = 0) ∧
      ((∃ i < 32, mag i ≠ 0) → h.oidx < 32 ∧ (∀ i < 32, mag i ≤ mag h.oidx) ∧ (∀ i < h.oidx, mag i < mag h.oidx) ∧
        (∀ base : ℝ, ((∃ i < 32, i ≠ h.oidx ∧ mag i = base ∧ 0 < base) ∧ (∀ i < 32, i ≠ h.oidx → mag i ≤ base)) ∨ ((∀ i < 32, i ≠ h.oidx → mag i = 0) ∧ base = mag h.oidx) →
          let least : ℝ := max (base / 6) ((2 : ℝ) ^ (-126 : Int))
          1 ≤ h.sexp ∧ h.sexp < 255 ∧ h.sfrac < 65536 ∧ least ≤ scale h.sexp h.sfrac ∧
          ∀ e f, 1 ≤ e → e < 255 → f < 65536 → least ≤ scale e f → scale h.sexp h.sfrac ≤ scale e f) ∧
        (let q := carried .f32 (fdivElem .f32 (vs.getD h.oidx zero) (scaleVal h.sexp h.sfrac)).1
         (|val q| ≤ 6 → h.xv = 0 ∧ h.flags = 0) ∧
         (6 < |val q| → h.xv = (final .e4m3 .rne q).1 ∧ h.flags = if (final .e4m3 .rne q).2.getLsbD 2 then 5 else 0))))) ∧
  (∀ (m : RMode) (scale : FVal) (xv o : Nat) (vs : List FVal), let cs := quantCodes m scale xv o 0 zero vs
    cs.length = vs.length ∧ ∃ res : Nat → FVal, res 0 = zero ∧ ∀ i v, vs[i]? = some v →
      let q := carried .f32 (fdivElem .f32 v scale).1
      let c := carried .f32 (carry .f32 (q.add (res i)).1)
      let y := final .e2m1 m.single c
      let is (r : Nat × Flags) (then_ : FVal) : Prop := cs[i]? = some r ∧ res (i + 1) = then_
      (i = o → xv ≠ 0 → is (8, 0) (if m = .rneEf ∧ finite q then (q.sub (valueOf .e4m3 xv)).1 else zero)) ∧
      (i ≠ o ∨ xv = 0 → (v = .nan → is (0, 16) zero) ∧ (∀ n, v = .inf n → is (if n then 15 else 7, 5) zero) ∧
        (finite v → is (if y.1 = 8 then 0 else y.1, y.2) (if m = .rneEf ∧ y.2.getLsbD 2 = false then (c.sub (valueOf .e2m1 y.1)).1 else zero)))) ∧
  (∀ (m : RMode) (l : Latch) (vs : List FVal), vs.length = 32 →
    let b := blockImage m l vs
    let e := l.scale.toNat / 2 ^ 16
    let cs := quantCodes m (scaleVal e (l.scale.toNat % 2 ^ 16)) l.xv.toNat l.oidx.toNat 0 zero vs
    (l.nanb = true → b = (List.replicate 19 0 ++ [255], 0)) ∧ (l.nanb = false → e = 0 → b = (List.replicate 20 0, 0)) ∧
    (l.nanb = false → e ≠ 0 → b.1.length = 20 ∧
      (∀ i < 32, ((b.1.getD (i / 2) 0).toNat / 16 ^ (i % 2)) % 16 = (cs.getD i (0, 0)).1 % 16) ∧
      b.1.drop 16 = [l.xv, BitVec.ofNat 8 l.scale.toNat, BitVec.ofNat 8 (l.scale.toNat / 2 ^ 8), BitVec.ofNat 8 e] ∧
      ∀ k : Fin 5, b.2[k] = true ↔ ∃ c ∈ cs, c.2[k] = true)) ∧
  (∀ (acc : Elem) (o : Operands) (w : Nat) (live : Nat → Bool), w = 8 ∨ w = 16 → o.afmt ≠ 5 → o.wfmt ≠ 5 →
    let ks := (List.range (1536 / w)).filter live
    let a (k : Nat) : FVal := valueOf (matrixFloat o.afmt) (o.a.toNat / 2 ^ (w * k) % 2 ^ w)
    let b (k : Nat) : FVal := valueOf (matrixFloat o.wfmt) (o.b.toNat / 2 ^ (w * k) % 2 ^ w)
    let sum : ℝ := (ks.map fun k => val (a k) * val (b k)).sum
    let r := msum acc o w live
    ((∃ k ∈ ks, a k = .nan ∨ b k = .nan) → carried .f32 r.1 = .nan ∧ r.2 = 16) ∧
    ((∀ k ∈ ks, finite (a k) ∧ finite (b k)) → finite (carried .f32 acc) → r.2 = 0 ∧
      ∀ part : ℝ, (sum = 0 → part = 0) →
        (∀ (fl : Int) (n : Nat), (2 : ℝ) ^ fl ≤ |sum| → |sum| < (2 : ℝ) ^ (fl + 1) → let q : ℝ := (2 : ℝ) ^ (fl - 33)
          n * q ≤ |sum| → |sum| < (n + 1) * q → part = (if sum < 0 then -1 else 1) * (if n * q = |sum| then (n : ℝ) else ((n ||| 1 : Nat) : ℝ)) * q) →
        let y : ℝ := val (carried .f32 acc) + part
        (y = 0 → r.1 = ⟨0, 0⟩) ∧ (y ≠ 0 → carries .f32 (decide (y < 0)) |y| r.1)))

/-- R141: the integer and logic words on every type, with the elements read as signed or unsigned integers by the type, and
the result taken modulo 2^w with tail 00. R142 and R143: floating arithmetic on carried elements, minimum and maximum as `fmin` and `fmax`, and the sign words. -/
def Obligations.VectorArithmeticWords : Prop :=
  (∀ (s : State) (x : Context) (g : BitVec 4) (ty : BitVec 3) (vd va vb : BitVec 5),
     let w := intWidth ty
     let a (i : Nat) : Int := x.vint ty va i
     let b (i : Nat) : Int := x.vint ty vb i
     let ac (i : Nat) : Nat := ((x.vget va).elem w i).code
     let bc (i : Nat) : Nat := ((x.vget vb).elem w i).code
     let lo : Int := if ty.toNat < 4 then -2 ^ (w - 1) else 0
     let hi : Int := if ty.toNat < 4 then 2 ^ (w - 1) - 1 else 2 ^ w - 1
     let gives (i : Instr) (lat : Nat) (f : Nat → Int) : Prop :=
       let r := mapElems (x.guard g) w fun n => (⟨(f n % 2 ^ w).toNat, 0⟩, 0)
       exec i s = .next (s.result lat [.v (x.vPhys vd) r.1.1 r.1.2] r.2)
     (Issues s x ⟨.lanes g, [.v va, .v vb], [(.v vd, 2)]⟩ →
       gives (.vadd g ty vd va vb) 2 (fun i => a i + b i) ∧
       gives (.vsub g ty vd va vb) 2 (fun i => a i - b i) ∧
       gives (.vsadd g ty vd va vb) 2 (fun i => max lo (min hi (a i + b i))) ∧
       gives (.vssub g ty vd va vb) 2 (fun i => max lo (min hi (a i - b i))) ∧
       gives (.vmin g ty vd va vb) 2 (fun i => min (a i) (b i)) ∧
       gives (.vmax g ty vd va vb) 2 (fun i => max (a i) (b i)) ∧
       gives (.vand g ty vd va vb) 2 (fun i => (ac i &&& bc i : Nat)) ∧
       gives (.vor g ty vd va vb) 2 (fun i => (ac i ||| bc i : Nat)) ∧
       gives (.vxor g ty vd va vb) 2 (fun i => (ac i ^^^ bc i : Nat)) ∧
       gives (.vandn g ty vd va vb) 2 (fun i => (ac i - (ac i &&& bc i) : Nat)) ∧
       gives (.vshl g ty vd va vb) 2 (fun i => (ac i * 2 ^ bc i : Nat)) ∧
       gives (.vshr g ty vd va vb) 2 (fun i => a i / 2 ^ bc i)) ∧
     (Issues s x ⟨.lanes g, [.v va, .v vb], [(.v vd, 4)]⟩ →
       gives (.vmul g ty vd va vb) 4 (fun i => a i * b i) ∧
       gives (.vmulh g ty vd va vb) 4 (fun i => a i * b i / 2 ^ w)) ∧
     (Issues s x ⟨.lanes g, [.v va], [(.v vd, 2)]⟩ →
       gives (.vabs g ty vd va) 2 (fun i => |a i|) ∧
       gives (.vneg g ty vd va) 2 (fun i => -a i))) ∧
  (∀ (s : State) (x : Context) (g : BitVec 4) (ty : BitVec 3) (vd va vb : BitVec 5),
     let f := floatFmt ty
     let u (i : Nat) : FVal := carried f ((x.vget va).elem f.width i)
     let v (i : Nat) : FVal := carried f ((x.vget vb).elem f.width i)
     let z (i : Nat) : FVal := carried f ((x.vget vd).elem f.width i)
     let gives (i : Instr) (lat : Nat) (r : Nat → Elem × Flags) : Prop :=
       let m := mapElems (x.guard g) f.width r
       exec i s = .next (s.result lat [.v (x.vPhys vd) m.1.1 m.1.2] m.2)
     let rounded (r : FVal × Flags) : Elem × Flags := (carry f r.1, r.2)
     (Issues s x ⟨.lanes g, [.v va, .v vb], [(.v vd, 4)]⟩ →
       gives (.vfadd g ty vd va vb) 4 (fun i => rounded ((u i).add (v i))) ∧
       gives (.vfsub g ty vd va vb) 4 (fun i => rounded ((u i).add (v i).negate)) ∧
       gives (.vfmul g ty vd va vb) 4 (fun i => rounded ((u i).mul (v i)))) ∧
     (Issues s x ⟨.lanes g, [.v vd, .v va, .v vb], [(.v vd, 4)]⟩ →
       gives (.vfma g ty vd va vb) 4 (fun i => rounded ((z i).fma (u i) (v i))) ∧
       gives (.vfms g ty vd va vb) 4 (fun i => rounded ((z i).fma (u i).negate (v i)))) ∧
     (Issues s x ⟨.lanes g, [.v va, .v vb], [(.v vd, 2)]⟩ →
       gives (.vfmin g ty vd va vb) 2 (fun i => (fminmaxElem f false ((x.vget va).elem f.width i) ((x.vget vb).elem f.width i), 0)) ∧
       gives (.vfmax g ty vd va vb) 2 (fun i => (fminmaxElem f true ((x.vget va).elem f.width i) ((x.vget vb).elem f.width i), 0))) ∧
     (Issues s x ⟨.lanes g, [.v va], [(.v vd, 2)]⟩ →
       gives (.vfneg g ty vd va) 2 (fun i => let e := (x.vget va).elem f.width i
         (⟨if 2 ^ (f.width - 1) ≤ e.code then e.code - 2 ^ (f.width - 1) else e.code + 2 ^ (f.width - 1), e.tail⟩, 0)) ∧
       gives (.vfabs g ty vd va) 2 (fun i => let e := (x.vget va).elem f.width i
         (⟨if 2 ^ (f.width - 1) ≤ e.code then e.code - 2 ^ (f.width - 1) else e.code, e.tail⟩, 0))))

/-- R144 and R145: a compare starts the write of a predicate pair: the element's result in all its byte lanes, for 4-bit
elements the AND of the two of a byte; predicate logic combines two predicates by lane. The pair is the one vd names, and only
the lanes of enabled elements, or the enabled lanes, are written. R152: a reduction writes the whole of vd, whatever the guard: the combination of the enabled elements in element 0, and
zeros with tail 00 elsewhere. -/
def Obligations.PredicateAndReductionWords : Prop :=
  (∀ (s : State) (x : Context) (g : BitVec 4) (ty : BitVec 3) (vd va vb : BitVec 5),
     let pair : BitVec 3 := BitVec.ofNat 3 (x.pPhys vd.toNat / 2)
     let f := floatFmt ty
     let a (i : Nat) : Int := x.vint ty va i
     let b (i : Nat) : Int := x.vint ty vb i
     let u (i : Nat) : FVal := carried f ((x.vget va).elem f.width i)
     let v (i : Nat) : FVal := carried f ((x.vget vb).elem f.width i)
     let lanes (w : Nat) (r : Nat → Bool) : PData :=
       BitVec.ofFnLE fun j : Fin 512 => if w = 4 then r (2 * j) && r (2 * j + 1) else r (8 * j / w)
     let gives (i : Instr) (w : Nat) (r : Nat → Bool) : Prop :=
       exec i s = .next (s.result 2 [.p pair (lanes w r) (lanes w fun n => (x.guard g).getLsbD (n * w / 8))] 0)
     let combines (i : Instr) (h : Bool → Bool → Bool) : Prop :=
       exec i s = .next (s.result 2
         [.p pair (BitVec.ofFnLE fun j : Fin 512 => h (x.pget va.toNat)[j] (x.pget vb.toNat)[j]) (x.guard g)] 0)
     (Issues s x ⟨.lanes g, [.v va, .v vb], [(.p vd.toNat, 2)]⟩ →
       gives (.vceq g ty vd va vb) (intWidth ty) (fun i => decide (a i = b i)) ∧
       gives (.vcne g ty vd va vb) (intWidth ty) (fun i => decide (a i ≠ b i)) ∧
       gives (.vclt g ty vd va vb) (intWidth ty) (fun i => decide (a i < b i)) ∧
       gives (.vcle g ty vd va vb) (intWidth ty) (fun i => decide (a i ≤ b i)) ∧
       (ty.toNat < 3 →
         gives (.vfceq g ty vd va vb) f.width (fun i => (u i).feq (v i)) ∧
         gives (.vfclt g ty vd va vb) f.width (fun i => (u i).flt (v i)) ∧
         gives (.vfcle g ty vd va vb) f.width (fun i => (u i).fle (v i)) ∧
         gives (.vfcun g ty vd va vb) f.width (fun i => (u i).isNan || (v i).isNan))) ∧
     (Issues s x ⟨.lanes g, [.p va.toNat, .p vb.toNat], [(.p vd.toNat, 2)]⟩ →
       combines (.pand g vd va vb) (fun a b => a && b) ∧ combines (.por g vd va vb) (fun a b => a || b) ∧
       combines (.pxor g vd va vb) (fun a b => a != b) ∧ combines (.pandn g vd va vb) (fun a b => a && !b))) ∧
  (∀ (s : State) (x : Context) (g : BitVec 4) (ty : BitVec 3) (vd va : BitVec 5),
     let f := floatFmt ty
     let enabled (w : Nat) : List Elem :=
       ((List.range (4096 / w)).filter fun i => (x.guard g).getLsbD (i * w / 8)).map fun i => (x.vget va).elem w i
     let ints : List Int := (enabled (intWidth ty)).map fun e => intOf ty e.code
     let lo : Int := if ty.toNat < 4 then -2 ^ (intWidth ty - 1) else 0
     let hi : Int := if ty.toNat < 4 then 2 ^ (intWidth ty - 1) - 1 else 2 ^ intWidth ty - 1
     let gives (i : Instr) (lat w : Nat) (e : Elem) (fl : Flags) : Prop :=
       exec i s = .next (s.result lat
         [.v (x.vPhys vd) ⟨BitVec.ofNat 4096 (e.code % 2 ^ w), BitVec.ofNat 2048 (e.tail % 4)⟩ fullMask] fl)
     (Issues s x ⟨.lanes g, [.v va], [(.v vd, 8)]⟩ →
       let r := sumAll ((enabled f.width).map (carried f))
       gives (.vfredsum g ty vd va) 8 f.width (carry f r.1) r.2) ∧
     (Issues s x ⟨.lanes g, [.v va], [(.v vd, 4)]⟩ →
       gives (.vfredmax g ty vd va) 4 f.width (foldMinMax f true (enabled f.width)) 0 ∧
       gives (.vfredmin g ty vd va) 4 f.width (foldMinMax f false (enabled f.width)) 0 ∧
       gives (.vredsum g ty vd va) 4 32 ⟨(ints.sum % 2 ^ 32).toNat, 0⟩ 0 ∧
       gives (.vredmax g ty vd va) 4 32 ⟨(ints.foldr max lo % 2 ^ 32).toNat, 0⟩ 0 ∧
       gives (.vredmin g ty vd va) 4 32 ⟨(ints.foldr min hi % 2 ^ 32).toNat, 0⟩ 0))

/-- R146-R149: the words that move whole elements, with their tails (`vperm` at 4 bits moves each nibble with its own tail: log entry
74, the model's choice). -/
def Obligations.VectorMoveWords : Prop :=
  ∀ (s : State) (x : Context) (g : BitVec 4) (sz : BitVec 3) (vd va vb : BitVec 5), sz.toNat < 4 →
    let w := 4 * 2 ^ sz.toNat
    let n := 4096 / w
    let en (i : Nat) : Bool := (x.guard g).getLsbD (i * w / 8)
    let a (i : Nat) : Elem := (x.vget va).elem w i
    let b (i : Nat) : Elem := (x.vget vb).elem w i
    let idx (i : Nat) : Nat := ((x.vget vb).elem 8 i).code
    let low (r : BitVec 5) : Elem := ⟨(x.sdata r).toNat % 2 ^ w, (x.sget r).tail.toNat⟩
    let gives (p : PData) (i : Instr) (lat : Nat) (f : Nat → Elem) : Prop :=
      let m := mapElems p w fun i => (f i, 0)
      exec i s = .next (s.result lat [.v (x.vPhys vd) m.1.1 m.1.2] m.2)
    (Issues s x ⟨.lanes g, [.v va, .v vb], [(.v vd, 2)]⟩ →
      gives (BitVec.allOnes 512) (.vsel g sz vd va vb) 2 (fun i => if en i then a i else b i)) ∧
    (Issues s x ⟨.lanes g, [.v va], [(.v vd, 2)]⟩ → gives (x.guard g) (.vmov g sz vd va) 2 a) ∧
    (Issues s x ⟨.lanes g, [.v va, .v vb], [(.v vd, 3)]⟩ →
      gives (x.guard g) (.vperm g sz vd va vb) 3 (fun i =>
        if sz.toNat ≥ 2 then a ((b i).code % n)
        else if sz.toNat = 1 then a (i / 256 * 256 + (b i).code)
        else a (2 * (i / 512 * 256 + idx (i / 2)) + i % 2)) ∧
      gives (x.guard g) (.vzip g sz vd va vb) 3 (fun i => if i % 2 = 0 then a (i / 2) else b (i / 2)) ∧
      gives (x.guard g) (.vunzip g sz vd va vb) 3 (fun i => if i < n / 2 then a (2 * i) else b (2 * (i - n / 2)))) ∧
    (Issues s x ⟨.lanes g, [.v va, .s vb], [(.v vd, 3)]⟩ →
      gives (x.guard g) (.vrot g sz vd va vb) 3 (fun i => a ((i + (x.sdata vb).toNat) % n))) ∧
    (Issues s x ⟨.lanes g, [.s va], [(.v vd, 3)]⟩ → gives (x.guard g) (.vbcast g sz vd va) 3 (fun _ => low va)) ∧
    (Issues s x ⟨.lanes g, [.v va, .s vb], [(.s vd, 3)]⟩ →
      let j := (x.sdata vb).toNat % n
      exec (.vext g sz vd va vb) s = .next
        (if en j then s.sresult 3 vd ⟨word (a j).code, BitVec.ofNat 2 (a j).tail⟩ 0 else s)) ∧
    (Issues s x ⟨.lanes g, [.s va, .s vb], [(.v vd, 3)]⟩ →
      let j := (x.sdata vb).toNat % n
      let r := buildV w ((List.range n).map fun i => if i = j ∧ en i = true then some (low va) else none)
      exec (.vins g sz vd va vb) s = .next (s.result 3 [.v (x.vPhys vd) r.1 r.2] 0))

/-- R140, R150 and R151: the widening words: source element i goes to element i div 2 of the register vd + i mod 2. A sum or
product whose destination pair shares no pair with a source is exact; `vfwma` adds the product to the pair's f32 element with
one rounding. R150: where the destination pair shares a pair with a source, each written element holds its exact result or its old
value, and which is free (log entry 6): the word completes for every choice. -/
def Obligations.WideningWords : Prop :=
  (∀ (s : State) (x : Context) (g : BitVec 4) (ty : BitVec 3) (vd va vb : BitVec 5),
     let w := intWidth ty
     let en (w i : Nat) : Bool := (x.guard g).getLsbD (i * w / 8)
     let pair (wd : Nat) (r : Nat → Option Elem) : List RegWrite :=
       (List.range 2).map fun j =>
         let b := buildV wd ((List.range (4096 / wd)).map fun e => r (e * 2 + j))
         .v (x.vPhys (vd + BitVec.ofNat 5 j)) b.1 b.2
     let gives (i : Instr) (lat : Nat) (h : Int → Int → Int) : Prop :=
       exec i s = .next (s.result lat
         (pair (2 * w) fun i => if en w i then
           some ⟨(h (x.vint ty va i) (x.vint ty vb i) % 2 ^ (2 * w)).toNat, 0⟩ else none) 0)
     (Issues s x ⟨.lanes g, [.v va, .v vb], [(.v vd, 2), (.v (vd + 1), 2)]⟩ →
       vd.toNat / 2 ≠ va.toNat / 2 → vd.toNat / 2 ≠ vb.toNat / 2 → gives (.vwadd g ty vd va vb) 2 (fun a b => a + b)) ∧
     (Issues s x ⟨.lanes g, [.v va, .v vb], [(.v vd, 4), (.v (vd + 1), 4)]⟩ →
       vd.toNat / 2 ≠ va.toNat / 2 → vd.toNat / 2 ≠ vb.toNat / 2 → gives (.vwmul g ty vd va vb) 4 (fun a b => a * b)) ∧
     (Issues s x ⟨.lanes g, [.v vd, .v (vd + 1), .v va, .v vb], [(.v vd, 4), (.v (vd + 1), 4)]⟩ →
       let r (i : Nat) : FVal × Flags :=
         (carried .f32 ((x.vget (vd + BitVec.ofNat 5 (i % 2))).elem 32 (i / 2))).fma
           (carried (floatFmt ty) ((x.vget va).elem (floatFmt ty).width i))
           (carried (floatFmt ty) ((x.vget vb).elem (floatFmt ty).width i))
       ∃ fl : Flags, (∀ b : Fin 5, fl[b] = true ↔ ∃ i < 256, en 16 i = true ∧ (r i).2[b] = true) ∧
         exec (.vfwma g ty vd va vb) s = .next (s.result 4
           (pair 32 fun i => if i < 256 ∧ en 16 i = true then some (carry .f32 (r i).1) else none) fl))) ∧
  (∀ (s : State) (x : Context) (g : BitVec 4) (ty : BitVec 3) (vd va vb : BitVec 5) (lat : Nat),
     Issues s x ⟨.lanes g, [.v va, .v vb], [(.v vd, lat), (.v (vd + 1), lat)]⟩ →
     vd.toNat / 2 = va.toNat / 2 ∨ vd.toNat / 2 = vb.toNat / 2 →
     let w := intWidth ty
     let ends (i : Instr) (h : Int → Int → Int) : Prop :=
       ∃ taken : Nat → Bool, exec i s = .next (s.draw.result lat
         ((List.range 2).map fun j =>
           let b := buildV (2 * w) ((List.range (4096 / (2 * w))).map fun e =>
             if (x.guard g).getLsbD ((e * 2 + j) * w / 8) && taken (e * 2 + j) then
               some ⟨(h (x.vint ty va (e * 2 + j)) (x.vint ty vb (e * 2 + j)) % 2 ^ (2 * w)).toNat, 0⟩ else none)
           .v (x.vPhys (vd + BitVec.ofNat 5 j)) b.1 b.2) 0)
     (lat = 2 → ends (.vwadd g ty vd va vb) fun a b => a + b) ∧
     (lat = 4 → ends (.vwmul g ty vd va vb) fun a b => a * b))

/-! ### Bundle words: conversions, special functions, the quantise idiom, vector memory (spec/05) -/

/-- R140, R153 and R154: `vcvt` converts each enabled element; source element i of a widening by m goes to element i div m of
register vd + i mod m, a narrowing reads its source in the same places, and equal widths use single registers. A conversion
to an integer traps in MODE 110 and 111. R159-R161: `qmax` starts the write of the latch entries of the blocks whose guard lane 128 b is 1, and keeps the others;
`qcvt` starts the write of 20 bytes for each such block, from its latch entry, of zeros in bytes 80 to 511 and of tails 00 in
all of vd, and traps in MODE 110 and 111 (log entry 81, the model's choice, for the entry of a block with a NaN and for a
NaN at the outlier's place). -/
def Obligations.ConversionAndQuantiseWords : Prop :=
  (∀ (s : State) (x : Context) (g : BitVec 4) (fmt : BitVec 3) (vd va sty : BitVec 5) (toInt : Bool) (m : Nat), 0 < m →
     let ws := unifiedWidth sty
     let wd := if toInt then intWidth fmt else (floatFmt fmt).width
     let i : Instr := if toInt then .vcvtInt g fmt vd va sty else .vcvtFloat g fmt vd va sty
     let conv (e : Elem) : Elem × Flags :=
       if toInt then
         let r := toIntClamp (storeMode x) (intRange fmt).1 (intRange fmt).2 (sourceValue sty e)
         (⟨(r.1 % 2 ^ wd).toNat, 0⟩, r.2)
       else (carry (floatFmt fmt) (sourceValue sty e), 0)
     let wide := (List.range m).map fun j => (Name.v (vd + BitVec.ofNat 5 j), 3)
     let narrow := (List.range m).map fun j => Name.v (va + BitVec.ofNat 5 j)
     (toInt = true → 6 ≤ x.rmode.toNat →
       Issues s x (if ws ≤ wd then ⟨.lanes g, [.v va], wide⟩ else ⟨.lanes g, narrow, [(.v vd, 3)]⟩) →
       wd = m * ws ∨ (wd < ws ∧ ws = m * wd) → exec i s = .next (s.trap 0x07 s.issue.pos 0)) ∧
     (toInt = false ∨ x.rmode.toNat < 6 →
       (wd = m * ws → Issues s x ⟨.lanes g, [.v va], wide⟩ →
         ∃ fl : Flags, (∀ b : Fin 5, fl[b] = true ↔ ∃ e < 4096 / ws, (x.guard g).getLsbD (e * ws / 8) = true ∧ (conv ((x.vget va).elem ws e)).2[b] = true) ∧
         exec i s = .next (s.result 3 ((List.range m).map fun j =>
           let b := buildV wd ((List.range (4096 / wd)).map fun e =>
             if e * m + j < 4096 / ws ∧ (x.guard g).getLsbD ((e * m + j) * ws / 8) = true then
               some (conv ((x.vget va).elem ws (e * m + j))).1 else none)
           .v (x.vPhys (vd + BitVec.ofNat 5 j)) b.1 b.2) fl)) ∧
       (wd < ws → ws = m * wd → Issues s x ⟨.lanes g, narrow, [(.v vd, 3)]⟩ →
         let r := mapElems (x.guard g) wd fun e => conv ((x.vget (va + BitVec.ofNat 5 (e % m))).elem ws (e / m))
         exec i s = .next (s.result 3 [.v (x.vPhys vd) r.1.1 r.1.2] r.2)))) ∧
  (∀ (s : State) (x : Context) (g : BitVec 4) (vd va : BitVec 5),
     let on (b : Nat) : Bool := (x.guard g).getLsbD (128 * b)
     let block (b : Nat) : List FVal := (List.range 32).map fun j => carried .f32 ((x.vget va).elem 32 (32 * b + j))
     (Issues s x ⟨.lanes g, [.v va], [(.latch, 3)]⟩ →
       ∃ fl : Flags, (∀ f : Fin 5, fl[f] = true ↔ ∃ b < 4, on b = true ∧ (quantHead (block b)).flags[f] = true) ∧
         exec (.qmax g va) s = .next (s.result 3
         [.latches ((List.range 4).map fun b => if on b then
           let h := quantHead (block b)
           some ⟨BitVec.ofNat 24 (h.sexp * 2 ^ 16 + h.sfrac), BitVec.ofNat 8 h.xv, BitVec.ofNat 5 h.oidx, h.nanb⟩ else none)] fl)) ∧
     (Issues s x ⟨.lanes g, [.v va, .latch], [(.v vd, 3)]⟩ →
       (6 ≤ x.rmode.toNat → exec (.qcvt g vd va) s = .next (s.trap 0x07 s.issue.pos 0)) ∧
       (x.rmode.toNat < 6 → ∃ (val mask : VVal) (fl : Flags), exec (.qcvt g vd va) s = .next (s.result 3 [.v (x.vPhys vd) val mask] fl) ∧
         (∀ f : Fin 5, fl[f] = true ↔ ∃ b : Fin 4, on b = true ∧ (blockImage (storeMode x) x.latches[b] (block b)).2[f] = true) ∧
         val.tail = 0 ∧ mask.tail = BitVec.allOnes 2048 ∧
         (∀ j < 512, mask.data.extractLsb' (8 * j) 8 = (if 80 ≤ j ∨ on (j / 20) = true then 255 else 0)) ∧
         (∀ j < 512, 80 ≤ j → val.data.extractLsb' (8 * j) 8 = 0) ∧
         (∀ b : Fin 4, on b = true → ∀ j < 20, val.data.extractLsb' (8 * (20 * b.val + j)) 8 =
           ((blockImage (storeMode x) x.latches[b] (block b)).1).getD j 0))))

/-- R157 and R158: the special functions and division, per enabled element; `vrint` rounds to an integral value with RMODE and
traps in MODE 110 and 111 (R155); `vscl` multiplies by a power of two (R156). The table of special operands of R158: NaN, the infinities and zeros with tail
00, and negative finite values of `vrsqrt`, `vsqrt`, `vlog2` and `vlog`; the flags named are the only ones raised. -/
def Obligations.SpecialFunctionWords : Prop :=
  (∀ (s : State) (x : Context) (g : BitVec 4) (fmt : BitVec 3) (vd va vb : BitVec 5),
     let f := floatFmt fmt
     let e (i : Nat) : Elem := (x.vget va).elem f.width i
     let gives (i : Instr) (lat : Nat) (r : Nat → Elem × Flags) : Prop :=
       let m := mapElems (x.guard g) f.width r
       exec i s = .next (s.result lat [.v (x.vPhys vd) m.1.1 m.1.2] m.2)
     (Issues s x ⟨.lanes g, [.v va], [(.v vd, 8)]⟩ →
       gives (.vrcp g fmt vd va) 8 (fun i => specialElem .rcp f (e i)) ∧
       gives (.vrsqrt g fmt vd va) 8 (fun i => specialElem .rsqrt f (e i)) ∧
       gives (.vsqrt g fmt vd va) 8 (fun i => specialElem .sqrt f (e i)) ∧
       gives (.vexp2 g fmt vd va) 8 (fun i => specialElem .exp2 f (e i)) ∧
       gives (.vlog2 g fmt vd va) 8 (fun i => specialElem .log2 f (e i)) ∧
       gives (.vexp g fmt vd va) 8 (fun i => specialElem .exp f (e i)) ∧
       gives (.vlog g fmt vd va) 8 (fun i => specialElem .log f (e i)) ∧
       gives (.vsin g fmt vd va) 8 (fun i => specialElem .sin f (e i)) ∧
       gives (.vcos g fmt vd va) 8 (fun i => specialElem .cos f (e i)) ∧
       gives (.vtanh g fmt vd va) 8 (fun i => specialElem .tanh f (e i)) ∧
       gives (.vsigm g fmt vd va) 8 (fun i => specialElem .sigm f (e i)) ∧
       gives (.verf g fmt vd va) 8 (fun i => specialElem .erf f (e i))) ∧
     (Issues s x ⟨.lanes g, [.v va, .v vb], [(.v vd, 8)]⟩ →
       gives (.vdiv g fmt vd va vb) 8 (fun i => fdivElem f (carried f (e i)) (carried f ((x.vget vb).elem f.width i)))) ∧
     (Issues s x ⟨.lanes g, [.v va], [(.v vd, 3)]⟩ →
       if 6 ≤ x.rmode.toNat then exec (.vrint g fmt vd va) s = .next (s.trap 0x07 s.issue.pos 0)
       else gives (.vrint g fmt vd va) 3 (fun i => roundIntegral f (storeMode x) (carried f (e i)))) ∧
     (Issues s x ⟨.lanes g, [.v va, .v vb], [(.v vd, 3)]⟩ →
       gives (.vscl g fmt vd va vb) 3 (fun i =>
         (scaleElem f (carried f (e i)) (toSigned f.width ((x.vget vb).elem f.width i).code), 0)))) ∧
  (∀ (f : FFmt), f = .f32 ∨ f = .f16 ∨ f = .bf16 → ∀ (e : Elem),
     let gives (fn : SpecialFn) (v : FVal) (fl : Flags) : Prop := specialElem fn f e = (carry f v, fl)
     let one : FVal := .fin false 1 0
     let zero (n : Bool) : FVal := .fin n 0 0
     (carried f e = .nan → ∀ fn, gives fn .nan 0) ∧
     (carried f e = .inf false →
       gives .rcp (zero false) 0 ∧ gives .rsqrt (zero false) 0 ∧ gives .sqrt (.inf false) 0 ∧ gives .exp2 (.inf false) 0 ∧
       gives .exp (.inf false) 0 ∧ gives .log2 (.inf false) 0 ∧ gives .log (.inf false) 0 ∧ gives .sin .nan 0 ∧
       gives .cos .nan 0 ∧ gives .tanh one 0 ∧ gives .erf one 0 ∧ gives .sigm one 0) ∧
     (carried f e = .inf true →
       gives .rcp (zero true) 0 ∧ gives .rsqrt .nan flagNV ∧ gives .sqrt .nan flagNV ∧ gives .exp2 (zero false) 0 ∧
       gives .exp (zero false) 0 ∧ gives .log2 .nan flagNV ∧ gives .log .nan flagNV ∧ gives .sin .nan 0 ∧
       gives .cos .nan 0 ∧ gives .tanh (.fin true 1 0) 0 ∧ gives .erf (.fin true 1 0) 0 ∧ gives .sigm (zero false) 0) ∧
     (∀ n exp, carried f e = .fin n 0 exp →
       gives .rcp (.inf n) flagDZ ∧ gives .rsqrt (.inf n) flagDZ ∧ gives .sqrt (zero n) 0 ∧ gives .exp2 one 0 ∧
       gives .exp one 0 ∧ gives .log2 (.inf true) flagDZ ∧ gives .log (.inf true) flagDZ ∧ gives .sin (zero n) 0 ∧
       gives .cos one 0 ∧ gives .tanh (zero n) 0 ∧ gives .erf (zero n) 0 ∧ gives .sigm (.fin false 1 (-1)) 0) ∧
     (∀ mag exp, 0 < mag → carried f e = .fin true mag exp →
       gives .rsqrt .nan flagNV ∧ gives .sqrt .nan flagNV ∧ gives .log2 .nan flagNV ∧ gives .log .nan flagNV))

/-- R163: a memory word guarded by the name p1 checks and does nothing; any other whose address s[sb] + 16 × offset fits, is a
multiple of 16 and lies in tiles of the issuing context puts its access down, and otherwise the first failing check traps with
TVAL the address. R163 and R165: a typed vector store looks at RMODE first and traps in MODE 110 and 111; then its checks are those of R163,
and each enabled element is put down as its final form, with the flags of those roundings, the word being one block of error feedback (R53; log entries 82
and 83, the model's choices, for a NaN and for a residual of zero). R163, R165: a memory word guarded by the name p1 does nothing, whatever its address. -/
def Obligations.VectorMemoryWords : Prop :=
  (∀ (s : State) (x : Context) (slot : Bool) (g : BitVec 4) (reg base : BitVec 5) (off : BitVec 8), g ≠ 1 →
     let a : Word := BitVec.ofInt 64 ((x.sdata base).toInt + off.toInt * 16)
     let n := a.toNat
     let p := x.guard g
     let mine (k : Nat) : Prop := (s.core.tile (k / 24576)).owner = (if s.core.bank then 2 else 1)
     let outcome (i : Instr) (len : Nat) (t : State) : Prop :=
       (0x180000 < n + len → exec i s = .next (s.trap 0x04 s.issue.pos a)) ∧
       (n + len ≤ 0x180000 → n % 16 ≠ 0 → exec i s = .next (s.trap 0x05 s.issue.pos a)) ∧
       (n + len ≤ 0x180000 → n % 16 = 0 → ¬ (mine n ∧ mine (n + len - 1)) → exec i s = .next (s.trap 0x06 s.issue.pos a)) ∧
       (n + len ≤ 0x180000 → n % 16 = 0 → mine n → mine (n + len - 1) → exec i s = .next t)
     let v := x.vPhys reg
     let pair : BitVec 3 := BitVec.ofNat 3 (x.pPhys reg.toNat / 2)
     (Issues s x ⟨.lanes g, [.s base], [(.v reg, 6)]⟩ →
       outcome (.ldV slot g reg base off) 512 (s.load 6 n 512 (.vec v p) (.v v)) ∧
       outcome (.ldVb slot g reg base off) 16 (s.load 6 n 16 (.bcast v p) (.v v)) ∧
       outcome (.vfill slot g reg base off) 768 (s.load 6 n 768 (.fill v (p.getLsbD 0)) (.v v))) ∧
     (Issues s x ⟨.lanes g, [.s base], [(.p reg.toNat, 6)]⟩ →
       outcome (.ldP slot g reg base off) 64 (s.load 6 n 64 (.pred pair p) (.p pair))) ∧
     (Issues s x ⟨.lanes g, [.s base, .v reg], []⟩ →
       outcome (.stV slot g reg base off) 512 (s.storeCells n 512
         ((List.range 512).filterMap fun j =>
           if p.getLsbD j then some (n + j, (x.vget reg).data.extractLsb' (8 * j) 8) else none) 0) ∧
       outcome (.vspill slot g reg base off) 768 (s.storeCells n 768 (if p.getLsbD 0 then
         (List.range 768).map fun j => (n + j, if j < 512 then (x.vget reg).data.extractLsb' (8 * j) 8
           else (x.vget reg).tail.extractLsb' (8 * (j - 512)) 8) else []) 0)) ∧
     (Issues s x ⟨.lanes g, [.s base, .p reg.toNat], []⟩ →
       outcome (.stP slot g reg base off) 64 (s.storeBits n (x.pget reg.toNat) p))) ∧
  (∀ (s : State) (x : Context) (slot : Bool) (g : BitVec 4) (reg base : BitVec 5) (off : BitVec 8), g ≠ 1 →
     Issues s x ⟨.lanes g, [.s base, .v reg], []⟩ →
     let a : Word := BitVec.ofInt 64 ((x.sdata base).toInt + off.toInt * 16)
     let n := a.toNat
     let mine (k : Nat) : Prop := (s.core.tile (k / 24576)).owner = (if s.core.bank then 2 else 1)
     let outcome (f : FFmt) (i : Instr) : Prop :=
       let rs := roundBlock f f (storeMode x) ((List.range (4096 / f.width)).map fun j =>
         if (x.guard g).getLsbD (j * f.width / 8) then some (carried f ((x.vget reg).elem f.width j)) else none)
       (6 ≤ x.rmode.toNat → exec i s = .next (s.trap 0x07 s.issue.pos 0)) ∧
       (x.rmode.toNat < 6 →
         (0x180000 < n + 512 → exec i s = .next (s.trap 0x04 s.issue.pos a)) ∧
         (n + 512 ≤ 0x180000 → n % 16 ≠ 0 → exec i s = .next (s.trap 0x05 s.issue.pos a)) ∧
         (n + 512 ≤ 0x180000 → n % 16 = 0 → ¬ (mine n ∧ mine (n + 511)) → exec i s = .next (s.trap 0x06 s.issue.pos a)) ∧
         (n + 512 ≤ 0x180000 → n % 16 = 0 → mine n → mine (n + 511) →
           ∃ (cells : List Host.Cell) (fl : Flags), exec i s = .next (s.storeCells n 512 cells fl) ∧
             (∀ c, c ∈ cells ↔ ∃ j k r, rs[j]? = some (some r) ∧ k < f.width / 8 ∧
               c = (n + j * (f.width / 8) + k, byte (r.1 / 2 ^ (8 * k)))) ∧
             ∀ b : Fin 5, fl[b] = true ↔ ∃ (j : Nat) (r : Nat × Flags), rs[j]? = some (some r) ∧ r.2[b] = true))
     outcome .f32 (.stVF32 slot g reg base off) ∧ outcome .f16 (.stVF16 slot g reg base off) ∧
       outcome .bf16 (.stVBf16 slot g reg base off) ∧ outcome .e4m3 (.stVE4m3 slot g reg base off) ∧
       outcome .e5m2 (.stVE5m2 slot g reg base off)) ∧
  (∀ (s : State) (x : Context) (slot : Bool) (reg base : BitVec 5) (off : BitVec 8),
     Issues s x ⟨.lanes 1, [], []⟩ →
     ∀ i ∈ [Instr.ldV slot 1 reg base off, .stV slot 1 reg base off, .stVF32 slot 1 reg base off, .stVF16 slot 1 reg base off,
       .stVBf16 slot 1 reg base off, .stVE4m3 slot 1 reg base off, .stVE5m2 slot 1 reg base off, .ldP slot 1 reg base off,
       .stP slot 1 reg base off, .vspill slot 1 reg base off, .vfill slot 1 reg base off, .ldVb slot 1 reg base off],
       exec i s = .next s)

/-! ### Bundle words that queue a command for an engine (spec/06, spec/07, spec/17) -/

/-- R180-R182: an M word of the bank that holds the engine, with room in the queue, fields in range, a legal rounding mode
where it stores floating rows, and tiles that the engine owns and no earlier command will return, puts its command, with the
staging registers, guard, rounding mode and LIVECNT as they stand, at the end of the queue, and changes nothing else; else the
first condition that fails traps, with the lowest code of R182 among the staging fields' (log entry 68 for the size of an image that R196 does not
give). -/
def Obligations.MatrixWords : Prop :=
  (∀ (s : State) (x : Context) (g : BitVec 4) (k r : BitVec 5) (tile : BitVec 6),
    let q := s.core.matrix.queue
    let cmd (op : MOp) (t : Nat) (reg : BitVec 5) (data : VVal) : MCmd :=
      { op := op, bank := s.core.bank, issue := s.core.bc, token := k, tile := t, ms := x.ms, guard := x.guard g,
        rmode := x.rmode, livecnt := x.livecnt, reg := reg, data := data, planeTag := s.core.matrix.tags.1,
        started := false, checked := x.chkmode }
    let usable (t : Nat) : Prop :=
      (s.core.tile t).owner = 3 ∧ ∀ e ∈ q, e.usesRet = true → e.ret = true → t ∉ tilesOf e.spans
    let outcome (i : Instr) (c : MCmd) : Prop :=
      (s.core.matrix.holder ≠ some s.core.bank → exec i s = .next (s.trap 0x0D s.issue.pos 6)) ∧
      (s.core.matrix.holder = some s.core.bank →
        (16 ≤ q.length → exec i s = .next (s.trap 0x0D s.issue.pos 5)) ∧
        (q.length < 16 →
          (∀ n, lowestCode c.conds = some n → exec i s = .next (s.trap 0x0D s.issue.pos (word n))) ∧
          (lowestCode c.conds = none →
            (c.op = .mstore → c.ofmt < 5 → 6 ≤ x.rmode.toNat → exec i s = .next (s.trap 0x07 s.issue.pos 0)) ∧
            (¬ (c.op = .mstore ∧ c.ofmt < 5 ∧ 6 ≤ x.rmode.toNat) →
              ((∃ t ∈ tilesOf c.spans, ¬ usable t) →
                ∃ t ∈ tilesOf c.spans, ¬ usable t ∧ exec i s = .next (s.trap 0x06 s.issue.pos (word (24576 * t)))) ∧
              ((∀ t ∈ tilesOf c.spans, usable t) →
                exec i s = .next (s.modCore fun y => { y with matrix := { y.matrix with queue := q ++ [c] } }))))))
    (Issues s x ⟨.lanes g, [], []⟩ →
      outcome (.mload g k tile) (cmd .mload tile.toNat 0 ⟨0, 0⟩) ∧ outcome (.mswap g k) (cmd .mswap 0 0 ⟨0, 0⟩) ∧
      outcome (.mstream g k tile) (cmd .mstream tile.toNat 0 ⟨0, 0⟩) ∧
      outcome (.mstreamz g k tile) (cmd .mstreamz tile.toNat 0 ⟨0, 0⟩) ∧
      outcome (.mstore g k tile) (cmd .mstore tile.toNat 0 ⟨0, 0⟩) ∧ outcome (.mzero g k) (cmd .mzero 0 0 ⟨0, 0⟩) ∧
      outcome (.mscaleW g k tile) (cmd .mscaleW tile.toNat 0 ⟨0, 0⟩) ∧
      outcome (.mscaleA g k tile) (cmd .mscaleA tile.toNat 0 ⟨0, 0⟩) ∧
      outcome (.mread g k r) (cmd .mread 0 (x.vPhys r) ⟨0, 0⟩) ∧ outcome (.mdrain g k) (cmd .mdrain 0 0 ⟨0, 0⟩)) ∧
    (Issues s x ⟨.lanes g, [.v r], []⟩ → outcome (.mwrite g k r) (cmd .mwrite 0 0 (x.vget r)))) ∧
  (∀ c : MCmd,
    let field (r : Fin 8) (lo w : Nat) : Nat := (c.ms[r]).toNat / 2 ^ lo % 2 ^ w
    let rows := field 1 10 11
    let base := 24576 * c.tile
    let streams : Prop := c.op = .mstream ∨ c.op = .mstreamz
    let kind (f : Nat) : Nat := if f = 3 ∨ f = 4 then 1 else if f = 9 ∨ f = 13 then 2 else if f = 5 then 3 else if f = 1 ∨ f = 2 then 4 else 0
    let ofmt := field 0 22 5
    let image : Nat := if ofmt = 31 then 272 else if ofmt = 0 ∨ ofmt = 11 then 256 else if ofmt = 1 ∨ ofmt = 2 then 128 else if ofmt = 3 ∨ ofmt = 4 then 64 else 0
    let beyond : Prop := match c.op with
      | .mload => 0x180000 < base + 192 * field 2 7 7 + 12288
      | .mstream | .mstreamz => 0x180000 < base + 192 * field 2 0 7 + 192 * rows
      | .mstore => ∃ r < rows, 0x180000 < base + 16 * field 3 0 11 + 16 * field 3 11 11 * r + image
      | .mscaleW => 0x180000 < base + 16 * field 4 0 11 + 3072
      | .mscaleA => 0x180000 < base + 16 * field 4 0 11 + 48 * rows
      | _ => False
    let broken (n : Nat) : Prop :=
      (n = 1 ∧ (((streams ∨ c.op ∈ [.mstore, .mzero, .mscaleA]) ∧ (rows = 0 ∨ 1024 < rows)) ∨ (c.op = .mstore ∧ field 3 11 11 = 0))) ∨
      (n = 2 ∧ (((streams ∨ c.op ∈ [.mstore, .mzero]) ∧ 1024 < field 1 0 10 + rows) ∨ (c.op ∈ [.mread, .mwrite] ∧ 1022 < field 1 0 10) ∨
        ((c.op = .mscaleA ∨ (streams ∧ field 0 17 5 = 5)) ∧ 1024 < field 4 11 10 + rows))) ∨
      (n = 3 ∧ beyond) ∨
      (n = 4 ∧ ((c.op = .mload ∧ kind (field 0 12 5) = 0) ∨ (c.op = .mstore ∧ image = 0) ∨
        (streams ∧ (kind (field 0 17 5) = 0 ∨ ∃ t, c.planeTag = some t ∧ kind t.toNat ≠ kind (field 0 17 5))))) ∨
      (n = 7 ∧ ((c.op = .mstore ∧ 1535 < field 3 0 11) ∨ (c.op ∈ [.mscaleW, .mscaleA] ∧ 1535 < field 4 0 11)))
    (lowestCode c.conds = none ↔ ∀ n, ¬ broken n) ∧ ∀ n, lowestCode c.conds = some n ↔ broken n ∧ ∀ m < n, ¬ broken m)

/-- R219-R221 and R450: a Wain word is held behind an acquire; then, with room in the bank's queue, fields in range, a legal
rounding mode where it converts, and tiles that the Wain owns of this bank and no earlier command hands on, it puts its
command, with the staging registers, rounding mode and guard lane 0 as they stand, at the end of the bank's queue, and changes
nothing else; else the first condition that fails traps, with the lowest code of R221 among the fields'. -/
def Obligations.WainWords : Prop :=
  (∀ (s : State) (x : Context) (g : BitVec 4) (k r q : BitVec 5),
    let cmd (op : WOp) (regs : List (BitVec 5)) (images : List VVal) : WCmd :=
      { op := op, issue := s.core.bc, token := k, ws := x.ws, rmode := x.rmode, enabled := (x.guard g).getLsbD 0,
        regs := regs, images := images, checked := x.chkmode, started := false, done := false, item := 0, held := none,
        ecode := 0, flags := 0, writes := [], fmt := none, res := none, gate := [], gateDie := none, push := false }
    let usable (t : Nat) : Prop :=
      (s.core.tile t).owner = 4 ∧ (s.core.tile t).giver = s.core.bank ∧
        ∀ e ∈ x.wain, e.rows = true → e.hand ≠ 2 → t ∉ tilesOf e.spans
    let converts (c : WCmd) : Prop := c.op = .decode ∨ c.op = .encode
    let outcome (i : Instr) (c : WCmd) : Prop :=
      (x.acquires = true → exec i s = .next s.held) ∧
      (x.acquires = false →
        (16 ≤ x.wain.length → exec i s = .next (s.trap 0x0E s.issue.pos 5)) ∧
        (x.wain.length < 16 →
          let code := lowestCode (c.conds (s.core.matrix.holder == some s.core.bank))
          (∀ n, code = some n → exec i s = .next (s.trap 0x0E s.issue.pos (word n))) ∧
          (code = none →
            (converts c → 6 ≤ x.rmode.toNat → exec i s = .next (s.trap 0x07 s.issue.pos 0)) ∧
            (¬ (converts c ∧ 6 ≤ x.rmode.toNat) →
              ((∃ t ∈ tilesOf c.spans, ¬ usable t) →
                ∃ t ∈ tilesOf c.spans, ¬ usable t ∧ exec i s = .next (s.trap 0x06 s.issue.pos (word (24576 * t)))) ∧
              ((∀ t ∈ tilesOf c.spans, usable t) →
                exec i s = .next (s.modCtx fun y => { y with wain := y.wain ++ [c] }))))))
    let run : List (BitVec 5) := (List.range (q.toNat + 1 - r.toNat)).map fun j => BitVec.ofNat 5 (r.toNat + j)
    (Issues s x ⟨.lanes g, [], []⟩ →
      outcome (.wnCopy g k) (cmd .copy [] []) ∧ outcome (.wnGather g k) (cmd .gather [] []) ∧
      outcome (.wnScatter g k) (cmd .scatter [] []) ∧ outcome (.wnDecode g k) (cmd .decode [] []) ∧
      outcome (.wnEncode g k) (cmd .encode [] []) ∧ outcome (.wnExpand g k) (cmd .expand [] []) ∧
      outcome (.wnFlush g k) (cmd .flush [] []) ∧ outcome (.wnFar g k r) (cmd .far [r] []) ∧
      outcome (.vfillM g k r q) (cmd .fillM (run.map x.vPhys) [])) ∧
    (Issues s x ⟨.lanes g, run.map .v, []⟩ →
      outcome (.vspillM g k r q) (cmd .spillM (run.map x.vPhys) (run.map x.vget)))) ∧
  (∀ (c : WCmd) (holder : Bool),
    let field (r : Fin 8) (lo w : Nat) : Nat := (c.ws[r]).toNat / 2 ^ lo % 2 ^ w
    let rows : Prop := c.op ∈ [.copy, .gather, .scatter, .decode, .encode, .expand]
    let n := field 2 12 12
    let len := field 2 0 12
    let pitch := if c.op = .copy ∨ field 2 24 12 = 0 then len else field 2 24 12
    let gfmt := field 4 0 5
    let hand := field 5 0 2
    let broken (k : Nat) : Prop :=
      (k = 1 ∧ (((rows ∨ c.op = .flush) ∧ (n = 0 ∨ len = 0)) ∨ (c.op = .expand ∧ len % 2 = 1))) ∨
      (k = 2 ∧ ((c.op ≠ .far ∧ field 0 0 52 % 16 ≠ 0) ∨ (c.op = .far ∧ field 0 0 52 % 8 ≠ 0) ∨ (rows ∧ field 1 0 21 % 16 ≠ 0) ∨
        (c.op ∈ [.gather, .scatter, .expand] ∧ (c.ws[3]).toInt % 16 ≠ 0))) ∨
      (k = 3 ∧ rows ∧ ∃ r < n, 0x180000 < field 1 0 21 + 16 * pitch * r + 16 * len) ∨
      (k = 4 ∧ ((c.op ∈ [.decode, .encode] ∧ 4 < gfmt) ∨ (c.op = .expand ∧ gfmt ∉ [1, 2, 3, 4, 9, 10, 13, 14]))) ∨
      (k = 7 ∧ rows ∧ (hand = 3 ∨ (hand = 1 ∧ holder = false)))
    (lowestCode (c.conds holder) = none ↔ ∀ n, ¬ broken n) ∧ ∀ n, lowestCode (c.conds holder) = some n ↔ broken n ∧ ∀ m < n, ¬ broken m)

/-- R445, R446 and R450: a fabric word is held behind an acquire; then, with room in the bank's queue, fields in range, a legal
rounding mode for an f32 atomic, and tiles owned as its direction needs, it puts its command, with the staging registers,
rounding mode and guard lane 0 as they stand, at the end of the bank's queue, and changes nothing else; else the first
condition that fails traps, with the lowest code of R446 among the fields'. -/
def Obligations.FabricWords : Prop :=
  (∀ (s : State) (x : Context) (g : BitVec 4) (k ty vd : BitVec 5) (scope : BitVec 3),
    Issues s x ⟨.lanes g, [], []⟩ →
    let usable (c : FCmd) (t : Nat) : Prop :=
      if c.op = .st then (s.core.tile t).owner = (if s.core.bank then 2 else 1)
      else (s.core.tile t).owner = 6 ∧ (s.core.tile t).giver = s.core.bank ∧
        ∀ e ∈ x.fabric, e.ret = true → t ∉ e.loadTiles
    let outcome (i : Instr) (op : FOp) (t reg : BitVec 5) (sc : BitVec 3) : Prop :=
      ∃ c : FCmd, c.op = op ∧ c.ty = t ∧ c.token = k ∧ c.fs = x.fs ∧ c.rmode = x.rmode ∧ c.issue = s.core.bc ∧
        c.enabled = (x.guard g).getLsbD 0 ∧ c.reg = reg ∧ c.scope = sc ∧ c.data = none ∧ c.items = c.start ∧ c.flags = 0 ∧
        c.checked = x.chkmode ∧ c.hact = x.hact ∧
        c.dest = (if op = .st ∧ c.kind = 2 then
          ((s.dies[coreDie s.cur]).entry? (x.fs[2].toNat % 2 ^ 16)).bind fun e => if e.valid = true ∧ e.part = x.partId then some e.dest else none
          else none) ∧
        (x.acquires = true → exec i s = .next s.held) ∧
        (x.acquires = false →
          (32 ≤ x.fabric.length → exec i s = .next (s.trap 0x0F s.issue.pos 5)) ∧
          (x.fabric.length < 32 →
            (∀ n, lowestCode c.conds = some n → exec i s = .next (s.trap 0x0F s.issue.pos (word n))) ∧
            (lowestCode c.conds = none →
              (op.atomic = true → t = 0 → 6 ≤ x.rmode.toNat → exec i s = .next (s.trap 0x07 s.issue.pos 0)) ∧
              (¬ (op.atomic = true ∧ t = 0 ∧ 6 ≤ x.rmode.toNat) →
                ((∃ t ∈ tilesOf c.spans, ¬ usable c t) →
                  ∃ t ∈ tilesOf c.spans, ¬ usable c t ∧ exec i s = .next (s.trap 0x06 s.issue.pos (word (24576 * t)))) ∧
                ((∀ t ∈ tilesOf c.spans, usable c t) →
                  exec i s = .next (s.modCtx fun y => { y with fabric := y.fabric ++ [c] }))))))
    outcome (.fxLd g k) .ld 0 0 0 ∧ outcome (.fxSt g k) .st 0 0 0 ∧ outcome (.fxAdd g k ty) .add ty 0 0 ∧
      outcome (.fxMin g k ty) .min ty 0 0 ∧ outcome (.fxMax g k ty) .max ty 0 0 ∧ outcome (.fxSwap g k ty) .swap ty 0 0 ∧
      outcome (.fxCas g k ty) .cas ty 0 0 ∧ outcome (.fxAnd g k ty) .and ty 0 0 ∧ outcome (.fxOr g k ty) .or ty 0 0 ∧
      outcome (.fxFlush g k) .flush 0 0 0 ∧ outcome (.fxFence g k vd scope) .fence 0 (x.vPhys vd) scope ∧
      outcome (.fxSdec g k) .sdec 0 0 0) ∧
  (∀ c : FCmd,
    let field (r : Fin 4) (lo w : Nat) : Nat := (c.fs[r.val]).toNat / 2 ^ lo % 2 ^ w
    let kind := field 2 62 2
    let len := field 1 0 13
    let granary : Prop := c.op = .st ∨ (c.op = .ld ∧ field 3 8 2 = 0)
    let uses : Prop := granary ∨ c.op = .flush
    let step : Nat := if c.op ∈ [.st, .flush] ∨ (c.op = .ld ∧ field 3 8 2 = 0) then 16 else if c.op ∈ [.ld, .sdec] then 8 else if c.op = .fence then 1
      else if unifiedWidth c.ty = 64 then 8 else 4
    let atomic : Prop := c.op ∈ [.add, .min, .max, .swap, .cas, .and, .or]
    let broken (n : Nat) : Prop :=
      (n = 1 ∧ uses ∧ (len < 16 ∨ 4080 < len ∨ len % 16 ≠ 0)) ∨
      (n = 2 ∧ ((granary ∧ field 0 0 21 % 16 ≠ 0) ∨ (kind = 0 ∧ field 2 0 52 % step ≠ 0))) ∨
      (n = 3 ∧ granary ∧ 0x180000 < field 0 0 21 + len) ∨
      (n = 4 ∧ (kind = 1 ∨ kind = 3 ∨ (kind = 2 ∧ c.op ≠ .st))) ∨
      (n = 6 ∧ (((c.op = .ld ∨ atomic) ∧ 2 ≤ field 3 8 2) ∨ (¬ atomic ∧ c.op ≠ .sdec ∧ field 3 0 2 ≠ 0) ∨ ((c.fs[3]).getLsbD 23 = true ∧ kind = 2)))
    (lowestCode c.conds = none ↔ ∀ n, ¬ broken n) ∧ ∀ n, lowestCode c.conds = some n ↔ broken n ∧ ∀ m < n, ¬ broken m)

/-! ### How words run: guards, landing, granary access, traps, and a step (spec/03, spec/07, spec/08) -/

/-- R72: a word of the scalar register form or of the branch/system form whose guard bit 0 is 0 does nothing. -/
def Obligations.GuardedOffWordsDoNothing : Prop :=
  ∀ (s : State) (x : Context) (g : BitVec 4), s.ctx? = some x → (x.guard g)[0] = false →
    x.chkmode = false ∨ s.issue.phase = .act ∨ scheduleCheck s.core s.core.bank x [.p g.toNat] [] = none →
    ∀ i : Instr, guardOf i = some g → exec i s = .next s

/-- R13, R21: s0 reads as zero with a zero tail, p0 reads all ones and p1 all zeros, whatever has been written; a write to s0
or to pair 0 changes nothing; and a predicate write puts the result into p2k and its complement into p2k + 1, in the lanes that
it writes. -/
def Obligations.HardWiredRegisters : Prop :=
  (∀ x : Context, x.sget 0 = ⟨0, 0⟩ ∧ x.pRead 0 = BitVec.allOnes 512 ∧ x.pRead 1 = 0 ∧
    (∀ v, x.write (.s 0 v) = x) ∧ (∀ v m, x.write (.p 0 v m) = x)) ∧
  (∀ (x : Context) (n : BitVec 5) (v : SVal), n ≠ 0 → (x.write (.s n v)).sget n = v ∧
    ∀ m, m ≠ n → (x.write (.s n v)).sget m = x.sget m) ∧
  (∀ (x : Context) (q : BitVec 3) (v m : PData), q ≠ 0 → ∀ j : Fin 512,
    ((x.write (.p q v m)).pRead (2 * q.toNat))[j] = (if m[j] then v[j] else (x.pRead (2 * q.toNat))[j]) ∧
    ((x.write (.p q v m)).pRead (2 * q.toNat + 1))[j] = (if m[j] then !v[j] else (x.pRead (2 * q.toNat + 1))[j]))

/-- R28, R33 and R95: at the end of bc t exactly the results due at t or before land: each scalar register, each bit
of a vector register and of its tails under the mask, each lane of a predicate and of its complement, each staging register and each
quantise latch takes the last value that they write to it, in the order in which they were started, and keeps its own where they
write none; their flags are set; and the later results go on waiting. Nothing else of the task changes but the registers that results write. R95, R123: the end of a bc adds 1 to CYCLE and lands what falls due on the issuing bank; the other bank does not change,
nor does the granary. -/
def Obligations.ResultsAndTheEndOfABundleCycle : Prop :=
  (∀ (x : Context) (t : Nat),
     let due := x.pend.filter fun r => r.due ≤ t
     let all := due.flatMap fun r => r.writes
     let written (n : BitVec 5) : List SVal := all.filterMap fun w => match w with | .s m v => if m = n then some v else none | _ => none
     let bits (n : Fin 32) (i : Nat) : List Bool := all.filterMap fun w =>
       match w with | .v m v k => if m.toFin = n ∧ k.data.getLsbD i = true then some (v.data.getLsbD i) else none | _ => none
     let tails (n : Fin 32) (i : Nat) : List Bool := all.filterMap fun w =>
       match w with | .v m v k => if m.toFin = n ∧ k.tail.getLsbD i = true then some (v.tail.getLsbD i) else none | _ => none
     let lanes (q : BitVec 3) (j : Nat) : List Bool := all.filterMap fun w =>
       match w with | .p m v k => if m = q ∧ k.getLsbD j = true then some (v.getLsbD j) else none | _ => none
     let staged (b : Nat) (n : Fin 8) : List Word := all.filterMap fun w =>
       match w with | .stage c m v => if min c.toNat 2 = b ∧ m.toFin = n then some v else none | _ => none
     let latched (n : Fin 4) : List Latch := all.filterMap fun w => match w with | .latches v => v.getD n.val none | _ => none
     (∀ (n : Fin 32) (i : Nat), i < 4096 → ((x.land t).v[n]).data.getLsbD i = ((bits n i).getLast?).getD ((x.v[n]).data.getLsbD i)) ∧
     (∀ (n : Fin 32) (i : Nat), i < 2048 → ((x.land t).v[n]).tail.getLsbD i = ((tails n i).getLast?).getD ((x.v[n]).tail.getLsbD i)) ∧
     (∀ (q : BitVec 3) (j : Nat), q ≠ 0 → j < 512 →
       ((x.land t).pRead (2 * q.toNat)).getLsbD j = ((lanes q j).getLast?).getD ((x.pRead (2 * q.toNat)).getLsbD j) ∧
       ((x.land t).pRead (2 * q.toNat + 1)).getLsbD j = (((lanes q j).getLast?).map (!·)).getD ((x.pRead (2 * q.toNat + 1)).getLsbD j)) ∧
     (∀ n : Fin 8, (x.land t).ms[n] = ((staged 0 n).getLast?).getD x.ms[n] ∧ (x.land t).ws[n] = ((staged 1 n).getLast?).getD x.ws[n] ∧
       (x.land t).fs[n] = ((staged 2 n).getLast?).getD x.fs[n]) ∧
     (∀ n : Fin 4, (x.land t).latches[n] = ((latched n).getLast?).getD x.latches[n]) ∧
     (∀ n, n ≠ 0 → (x.land t).sget n = ((written n).getLast?).getD (x.sget n)) ∧
     (x.land t).fflags = due.foldl (fun f r => f ||| r.flags) x.fflags ∧
     (x.land t).pend = x.pend.filter (fun r => t < r.due) ∧
     (due = [] → x.land t = x) ∧
     (∃ s v p ms ws fs la fl pe, x.land t =
       { x with s := s, v := v, p := p, ms := ms, ws := ws, fs := fs, latches := la, fflags := fl, pend := pe })) ∧
  (∀ k : Core, k.endBc.bc = k.bc + 1 ∧ k.endBc.ctx? k.bank = (k.ctx? k.bank).map (fun x => x.land k.bc) ∧
     k.endBc.ctx? (!k.bank) = k.ctx? (!k.bank) ∧ k.endBc.granary = k.granary ∧ k.endBc.bank = k.bank)

/-- R98, R125, R164, R165 and R199: the accesses of bc t + 2 fill each load of a bundle issued by bc t with what it reads from the
granary as it stood before any store of that bundle, and then write exactly the bits that the stores put down, in the order of
their words; every other byte of the granary reads as before, and the flags of the stores land at the end of that bc (log entry
65). R199, R236, R458: a load that would read a word in error leaves its destination unchanged, and a store that covers a
word in error in part leaves the whole word as it was; the lowest such byte is then the address of the granary-data error. A word
that a store covers whole is in error no longer. -/
def Obligations.GranaryAccessReadsThenWrites : Prop :=
  (∀ (k : Core) (x : Context), k.ctx? k.bank = some x → k.badWords = [] → Memory.wf k.granary = true →
    x.fabric.any FCmd.reading = false →
    let t := k.bc
    let due := x.stores.filter fun w => w.issue + 2 ≤ t
    let after := k.granaryAccess
    (∀ a, readCell after.granary a =
      (due.flatMap fun w => w.bytes).foldl (fun b m => if m.addr = a then mergeBits b m.val m.mask else b) (readCell k.granary a)) ∧
    Memory.wf after.granary = true ∧ after.badWords = [] ∧
    ∃ y, after.ctx? k.bank = some y ∧ y.stores = x.stores.filter (fun w => t < w.issue + 2) ∧
      y.pend = x.pend.map (fun p =>
        match p.load with
        | some l => if p.issue + 2 ≤ t then { p with load := none, writes := if p.dests = [] then [] else l.writes (readCells k.granary l.addr l.len) } else p
        | none => p) ++ due.map (fun w => ⟨w.issue, w.issue + 2, w.pos, [], [], w.flags, false, none⟩) ∧
      y.s = x.s ∧ y.v = x.v ∧ y.p = x.p ∧ y.k = x.k ∧ y.pc = x.pc ∧ y.granaryErr = x.granaryErr ∧ y.fflags = x.fflags) ∧
  (∀ (k : Core) (x : Context) (p : Pend) (l : Load), k.ctx? k.bank = some x → x.fabric = [] → x.stores = [] → x.granaryErr = none →
    x.pend = [p] → p.load = some l → p.issue + 2 ≤ k.bc →
    let reads (a : Nat) : Prop := l.addr ≤ a ∧ a < l.addr + l.len ∧ l.wants (a - l.addr) = true ∧ a / 16 ∈ k.badWords
    let after := k.granaryAccess
    after.granary = k.granary ∧ after.badWords = k.badWords ∧ ∃ y, after.ctx? k.bank = some y ∧
      (∀ a, reads a → (∀ b, reads b → a ≤ b) → y.pend = [{ p with load := none, writes := [] }] ∧ y.granaryErr = some (a, l.hact)) ∧
      ((∀ a, ¬ reads a) → y.granaryErr = none ∧
        y.pend = [{ p with load := none, writes := if p.dests = [] then [] else l.writes (readCells k.granary l.addr l.len) }])) ∧
  (∀ (k : Core) (x : Context) (w : Store), k.ctx? k.bank = some x → x.fabric = [] → x.pend = [] → x.granaryErr = none → x.stores = [w] →
    w.issue + 2 ≤ k.bc → Memory.wf k.granary = true →
    let whole (q : Nat) : Prop := ∀ j < 16, ∃ b ∈ w.bytes, b.addr = 16 * q + j ∧ b.mask = 255
    let kept (a : Nat) : Prop := a / 16 ∈ k.badWords ∧ ¬ whole (a / 16)
    let after := k.granaryAccess
    (∀ a, (kept a → readCell after.granary a = readCell k.granary a) ∧
      (¬ kept a → readCell after.granary a = w.bytes.foldl (fun b m => if m.addr = a then mergeBits b m.val m.mask else b) (readCell k.granary a))) ∧
    (∀ q, q ∈ after.badWords ↔ q ∈ k.badWords ∧ ¬ whole q) ∧
    ∃ y, after.ctx? k.bank = some y ∧ y.stores = [] ∧ y.pend = [⟨w.issue, w.issue + 2, w.pos, [], [], w.flags, false, none⟩] ∧
      (∀ b ∈ w.bytes, kept b.addr → (∀ c ∈ w.bytes, kept c.addr → b.addr ≤ c.addr) → y.granaryErr = some (b.addr, w.hact)) ∧
      ((∀ b ∈ w.bytes, ¬ kept b.addr) → y.granaryErr = none))

/-- R237-R240 (log entry 9, whose choice the trap taken at once is): a trap raised with nothing
pending is taken at once: with HACT 0 and TVEC not 0, TEPC takes the address of the bundle,
TCAUSE the cause and the position of its word, TVAL its value, HACT becomes 1 and the bundle at
TVEC is next; with HACT 1 the task ends with the cause and NEST 1, with TVEC 0 it ends with NEST
0. While something is pending the trap waits, and a granary-data error that has fallen due takes
its place, at word 0, with the address as TVAL. R237, R238 and R242: after a trap has been taken
with a handler to go to, `tret` and the taken branch of its delay bundle bring issue back to
TEPC with HACT 0, and no register differs. -/
def Obligations.TakingATrapAndReturning : Prop :=
  (∀ (x : Context) (cause : BitVec 8) (pos : BitVec 4) (tval : Word),
     let tc (c : BitVec 8) (p : BitVec 4) (nest : Nat) : Word := word (c.toNat + p.toNat * 2 ^ 8 + nest * 2 ^ 12)
     (x.drained = false → x.raiseTrap cause pos tval = { x with status := .draining (.trap cause pos tval) }) ∧
     (x.drained = true → x.raiseTrap cause pos tval = x.enterTrap cause pos tval) ∧
     (x.granaryErr = none → x.hact = false → x.tvec ≠ 0 → x.enterTrap cause pos tval =
       { x with tepc := x.pc, tcause := tc cause pos 0, tval := tval, hact := true, pc := x.tvec, landed := false,
                delay := none, delayBundle := [], status := .running }) ∧
     (x.granaryErr = none → x.hact = false → x.tvec = 0 → x.enterTrap cause pos tval =
       { x with delay := none, delayBundle := [], status := .ending x.pc (tc cause pos 0) tval 1 }) ∧
     (x.granaryErr = none → x.hact = true → x.enterTrap cause pos tval =
       { x with delay := none, delayBundle := [], status := .ending x.pc (tc cause pos 1) tval 2 }) ∧
     (∀ a h, x.granaryErr = some (a, h) →
       (x.hact = true ∨ h = true → x.enterTrap cause pos tval =
         { x with granaryErr := none, delay := none, delayBundle := [], status := .ending x.pc (tc 0x0B 0 1) (word a) 2 }) ∧
       (x.hact = false → h = false → x.tvec = 0 → x.enterTrap cause pos tval =
         { x with granaryErr := none, delay := none, delayBundle := [], status := .ending x.pc (tc 0x0B 0 0) (word a) 1 }) ∧
       (x.hact = false → h = false → x.tvec ≠ 0 → x.enterTrap cause pos tval =
         { x with granaryErr := none, delay := none, delayBundle := [], tepc := x.pc, tcause := tc 0x0B 0 0, tval := word a, hact := true,
                  pc := x.tvec, landed := false, status := .running }))) ∧
  (∀ (x : Context) (cause : BitVec 8) (pos : BitVec 4) (tval : Word) (size : Nat),
     x.drained = true → x.granaryErr = none → x.hact = false → x.tvec ≠ 0 →
     let y := x.raiseTrap cause pos tval
     let z := y.advance size (some ⟨true, y.tepc, true⟩) false
     z.pc = x.pc ∧ z.hact = false ∧ y.hact = true ∧ y.pc = x.tvec ∧ z.s = x.s ∧ z.v = x.v ∧ z.p = x.p ∧ z.k = x.k ∧
       z.ms = x.ms ∧ z.ws = x.ws ∧ z.fs = x.fs ∧ z.vbase = x.vbase ∧ z.pbase = x.pbase ∧ z.rmode = x.rmode ∧ z.fflags = x.fflags)

/-- R5, R20, R34, R66–R70, R93, R99, R100, R104, R235, R236 (log entries 1, 10 and 66; 25 for the holding word, which is looked at before any word's checks, and 24 for a hold, which counts as a
wait: the model's choices): a step in which a core takes its clock whose
current bank runs, with nothing that keeps it back, evaluates the bundle of one to eight words at its pc. A granary-data error
that has fallen due traps first. Then the first word that breaks R68 traps (illegal bundle, TVAL the word); a delay bundle that may not stand
there traps (TVAL its address); the first word that is no instruction traps (undefined, TVAL the word). Then the words are
checked in their order, none having acted: the first that traps or holds ends the bundle so, with no effect of any word. A delay
bundle whose words break the schedule, or that rounds with an illegal RMODE, traps at the branch. Else every word has
its effect, in order, on the task as it stands, after which the doubled destinations, the deferred writes, the next address and the
end of the bc follow. A delay bundle is the one that was fetched and checked with its branch: it is not fetched again, and always
issues. A result that a higher-placed word of its bundle also names never lands, its flags apart. -/
def Obligations.StepRunsTheDecodedWord : Prop :=
  (∀ (s : State) (rest : List Turn) (c : Fin 256) (x : Context),
    s.sched = .core c :: rest → s.pkg.frz = 0 →
    let k := s.cores[c]
    k.ctx? k.bank = some x → k.freeze = 0 → k.missing = none → k.switching = 0 → k.snap k.bank = .empty →
    (k.wantsSwitch = false ∨ k.ctx? (!k.bank) = none) →
    x.status = .running → x.cancel = false → x.preempt = false → x.dly = 0 → x.spans k.bc = ([], []) →
    let s0 : State := { s with sched := rest, cur := c }
    let ends (t : State) : Prop := step s = .next t.rereadDue
    (∀ a h, x.granaryErr = some (a, h) → x.delay = none → ends (s0.trap 0x0B 0 (word a))) ∧
    ((x.granaryErr = none ∨ x.delay ≠ none) →
    let stands (a : Nat) (ws : List (BitVec 32)) : Prop := 0 < ws.length ∧ ws.length ≤ 8 ∧ ∀ n (h : n < ws.length),
      (∃ r, k.row x.partId (a + 4 * n) = some r ∧ r.code.extractLsb' (8 * ((a + 4 * n) % 2048)) 32 = ws[n]) ∧
      (ws[n].getLsbD 31 = true → n + 1 = ws.length) ∧ (ws[n].getLsbD 31 = false → n + 1 < ws.length ∨ ws.length = 8)
    let cls (w : BitVec 32) : Nat := w.toNat / 2 ^ 28 % 8
    let system (w : BitVec 32) : Prop := cls w = 0 ∧ w.toNat / 2 ^ 26 % 4 = 3
    let breaks (ws : List (BitVec 32)) (n : Nat) (w : BitVec 32) : Prop :=
      6 ≤ cls w ∨ (∃ v, (ws.take n).getLast? = some v ∧ cls w < cls v) ∨
      (if cls w < 2 then 2 else 1) ≤ ((ws.take n).filter fun v => cls v == cls w).length ∨
      (system w ∧ ∃ v ∈ ws.take n, system v) ∨ (n = 7 ∧ w.getLsbD 31 = false)
    let broken (ws : List (BitVec 32)) : Prop := ∃ n w, ws[n]? = some w ∧ breaks ws n w
    let undefined (w : BitVec 32) : Prop := ∀ i, decodeWord w ≠ .ok i
    let branches (ws : List (BitVec 32)) : Prop := ∃ w ∈ ws, ∃ i, decodeWord w = .ok i ∧ isBranch i = true
    let fetched (ws : List (BitVec 32)) (dws : Option (List (BitVec 32))) : Prop := stands x.pc.toNat ws ∧
      (branches ws → ∃ ds, dws = some ds ∧ stands (x.pc.toNat + 4 * ws.length) ds) ∧ (¬ branches ws → dws = none)
    let mayDelay (w : BitVec 32) : Prop := cls w = 1 ∨ cls w = 2 ∨
      (cls w = 0 ∧ (w.toNat / 2 ^ 26 % 4 = 0 ∨ w.toNat / 2 ^ 26 % 4 = 2 ∨ (w.toNat / 2 ^ 26 % 4 = 1 ∧ w.toNat / 2 ^ 22 % 16 < 9)))
    let badDelay (dws : Option (List (BitVec 32))) : Prop := ∃ ds, dws = some ds ∧ (broken ds ∨ ∃ w ∈ ds, undefined w ∨ ¬ mayDelay w)
    (∀ ws dws, x.delay = none → fetched ws dws →
      (∀ n w, ws[n]? = some w → breaks ws n w → (∀ m v, m < n → ws[m]? = some v → ¬ breaks ws m v) →
        ends (s0.trap 0x01 n (w.setWidth 64))) ∧
      (¬ broken ws → badDelay dws → ends (s0.trap 0x01 0 (word (x.pc.toNat + 4 * ws.length)))) ∧
      (∀ n w, ¬ broken ws → ¬ badDelay dws → ws[n]? = some w → undefined w → (∀ m v, m < n → ws[m]? = some v → ¬ undefined v) →
        ends (s0.trap 0x02 n (w.setWidth 64)))) ∧
    (∀ is js : List Instr,
      (x.delay ≠ none ∧ is = x.delayBundle ∧ js = []) ∨
      (x.delay = none ∧ ∃ ws dws, fetched ws dws ∧ ¬ broken ws ∧ ¬ badDelay dws ∧ ws.map decodeWord = is.map .ok ∧
        (dws.getD []).map decodeWord = js.map .ok) →
      (x.landed = false ∨ x.pc.toNat / 64 = (x.pc.toNat + 4 * is.length - 1) / 64) → x.acquires = false →
      let branch : Prop := x.delay = none ∧ is.any isBranch = true
      let s1 : State := { s0 with issue := ⟨0, 4 * is.length, x.pc + word (4 * is.length + 4 * js.length), .whole, .none⟩ }
      let at_ (u : State) (n : Nat) (ph : Phase) : State := { u with issue := { u.issue with pos := n, phase := ph } }
      let holds (t : State) : State :=
        (t.modCtx fun y => if x.hasHeldItem then { y with status := .draining .heldItem } else { y with waitHold := y.waitHold + 1 }).modCore Core.holdCycle
      let passes (i : Instr) (n : Nat) : Prop := exec i (at_ s1 n .check) = .next (at_ s1 n .check)
      let early : Prop := ∃ n i t, is[n]? = some i ∧ holdsFirst i = true ∧ exec i (at_ s1 n .check) = .next t ∧ t.issue.stop = .held
      (∀ n i t, ¬ early → is[n]? = some i → (∀ m j, m < n → is[m]? = some j → passes j m) → exec i (at_ s1 n .check) = .next t →
        (t.issue.stop = .trapped → ends t) ∧ (t.issue.stop = .held → ends (holds t))) ∧
      (∀ n i t, is[n]? = some i → holdsFirst i = true → (∀ m j, m < n → is[m]? = some j → holdsFirst j = false) →
        exec i (at_ s1 n .check) = .next t → t.issue.stop = .held → ends (holds t)) ∧
      ((∀ n i, is[n]? = some i → passes i n) →
        let named : List (Nat × List Reg) := is.zipIdx.map fun e => (e.2, x.engineNames e.1)
        ∀ us : Nat → State, us 0 = s1.modCtx (fun y => { y with delay := none, waitHold := 0, begun := true }) →
        (∀ n i, is[n]? = some i → exec i (at_ (us n) n .act) = .next (us (n + 1)) ∧ (us (n + 1)).issue.stop = .none) →
        let u := us is.length
        let issued : State := (u.modCore fun k => (k.settleDoubles named).applyDeferred u.now).modCtx fun y =>
          y.advance (4 * is.length) x.delay (is.any isBranch)
        let late : State := { issued.modCore Core.endBc with issue := { issued.issue with stop := .none } }
        let fails (ph : Phase) : Prop := ∃ n j t, js[n]? = some j ∧ exec j (at_ late n ph) = .next t ∧ t.issue.stop = .trapped ∧
          ∀ m i, m < n → js[m]? = some i → exec i (at_ late m ph) = .next (at_ late m ph)
        let clean (ph : Phase) : Prop := ∀ n j, js[n]? = some j → exec j (at_ late n ph) = .next (at_ late n ph)
        let leaves (t : State) : Prop := ends (t.modCore fun k => { (k.touchRows x (4 * is.length)).endBc with sinceSwitch := k.sinceSwitch + 1 })
        (branch → fails .sched → ends (s1.trap 0x03 0 (word (x.pc.toNat + 4 * is.length)))) ∧
        (branch → clean .sched → fails .check → ends (s1.trap 0x07 0 0)) ∧
        (branch → clean .sched → clean .check → leaves (issued.modCtx fun y => { y with delayBundle := js })) ∧
        (¬ branch → leaves issued))))) ∧
  (∀ (x : Context) (t : Nat) (named : List (Nat × List Reg)),
    x.dropDoubles t named = { x with pend := x.pend.map fun p =>
      if p.issue = t ∧ ∃ r ∈ p.dests, (∃ q ∈ x.pend, q.issue = t ∧ p.pos < q.pos ∧ r ∈ q.dests) ∨ ∃ e ∈ named, p.pos < e.1 ∧ r ∈ e.2 then
        { p with dests := [], writes := [] } else p })

/-- Log entry 1 (the model's choice): a step takes the turn at the head of the schedule: a core's clock, the passing of clocks, or
an event, which has its meaning; with the schedule empty it takes the turn that the state itself calls for, an event, or a clock of the core for which a clock passes.
R133: after that the signals that tasks wait for are read again where that is due. R105, R235 and R420: no step refuses, and a
step stops with a fault only by a bundle word scheduled as an event while the current bank holds no task. -/
def Obligations.StepsTakeTheTurnAndAnswer : Prop :=
  (∀ (s : State) (rest : List Turn),
     let s0 : State := { s with sched := rest }
     (∀ c, s.sched = .core c :: rest → step s = .next (clockOf exec c s0).rereadDue) ∧
     (∀ e t, s.sched = .event e :: rest → exec e s0 = .next t → step s = .next t.rereadDue) ∧
     (∀ n, s.sched = .clocks n :: rest → s.pkg.frz = 0 →
       let u : State := { s0 with now := s.now + n, reread := s.reread || s.now / 27000 != (s.now + n) / 27000 }
       step s = .next u.rereadDue) ∧
     (∀ n, s.sched = .clocks n :: rest → s.pkg.frz ≠ 0 → step s = .next s0) ∧
     (∀ e t, s.sched = [] → s.autoTurn = .event e → exec e s = .next t → step s = .next t.rereadDue) ∧
     (∀ c, s.sched = [] → s.autoTurn = .core c → s.pkg.frz = 0 →
       let u : State := { s with now := s.now + 1, reread := s.reread || s.now / 27000 != (s.now + 1) / 27000 }
       step s = .next (clockOf exec c u).rereadDue)) ∧
  (∀ t : State, (t.reread = false ∨ t.pkg.frz ≠ 0 → t.rereadDue = t) ∧
    (t.reread = true → t.pkg.frz = 0 → ∃ u, exec (.signalReread 0) { t with reread := false } = .next u ∧ exec (.signalReread 1) u = .next t.rereadDue)) ∧
  (∀ s : State, (∃ t, step s = .next t) ∨
    (step s = .fault .noTask ∧ s.ctx? = none ∧ ∃ i rest, s.sched = .event i :: rest ∧ (encode true i).isSome = true))

/-! ### Encodings, frames, the invariant of memory, and reset -/

/-- R66, R71–R93: the word of a well-formed instruction decodes to that instruction with every operand as it was, whatever E is;
and a word that decodes is the well-formed instruction's own word, so no two words of one E stand for one instruction and no bit
of a word is ignored. R274, R275: the same of the 64-bit words of action programs. -/
def Obligations.DecodeOfEncode : Prop :=
  ((∀ (e : Bool) (i : Instr) (w : BitVec 32), encode e i = some w → i.wf = true → decodeWord w = .ok i ∧ w.getLsbD 31 = e) ∧
   (∀ (w : BitVec 32) (i : Instr), decodeWord w = .ok i → encode (w.getLsbD 31) i = some w ∧ i.wf = true)) ∧
  ((∀ (i : Instr) (w : BitVec 64), encodePrim i = some w → i.wf = true → decodePrim w = .ok i) ∧
   (∀ (w : BitVec 64) (i : Instr), decodePrim w = .ok i → encodePrim i = some w ∧ i.wf = true))

/-- R66, R67, R73–R92: words written out field by field from the encoding tables decode to the instructions they stand for; the
words of reserved classes, of ops without a row, with a field that must be 0 and is not, and with a reserved code decode to none. -/
def Obligations.WordsDecodeAsWritten : Prop :=
  -- scalar forms: E, class 000, form, guard or op, fields
  decodeWord 0b1_000_00_0011_00000_00101_00110_00111_01#32 = .ok (.sub 3 5 6 7) ∧
  decodeWord 0b0_000_00_0000_10101_00010_01001_00000_01#32 = .ok (.stageWs 0 2 9) ∧
  decodeWord 0b0_000_01_1001_01001_00110_100_000000000#32 = .ok (.ld 9 6 4 0) ∧
  decodeWord 0b1_000_10_0_00111_00000000000000000101#32 = .ok (.lui 7 5) ∧
  decodeWord 0b1_000_11_0000_01000_00111_111111111110#32 = .ok (.loop 0 7 0xFFE) ∧
  decodeWord 0b1_000_11_0000_10001_00000_000000000101#32 = .ok (.trap 0 5) ∧
  decodeWord 0b1_000_11_0000_10010_00000_000000000000#32 = .ok (.tret 0) ∧
  -- vector and F words: guard, op, type, vd, va, vb
  decodeWord 0b0_001_0010_000000_011_00001_00010_00011#32 = .ok (.vadd 2 3 1 2 3) ∧
  decodeWord 0b1_010_0000_000000_000_01100_00100_00011#32 = .ok (.vcvtFloat 0 0 12 4 3) ∧
  -- M words: guard, op, token, tile, aux
  decodeWord 0b1_011_0000_0111_00011_000000_00101_0000#32 = .ok (.mread 0 3 5) ∧
  -- memory words of the two slots, Wain and fabric commands
  decodeWord 0b0_100_0000_000000_00100_00101_11111111#32 = .ok (.ldV false 0 4 5 0xFF) ∧
  decodeWord 0b1_101_0000_001001_00100_00101_00000001#32 = .ok (.stP true 0 4 5 1) ∧
  decodeWord 0b1_101_0000_100111_00010_00110_00000000#32 = .ok (.wnFar 0 2 6) ∧
  decodeWord 0b1_101_0000_110010_00001_00000_00000000#32 = .ok (.fxAdd 0 1 0) ∧
  -- a primitive word: OP, L, DOFF, DW, SOFF, SW, D, X, 0, IMM
  decodePrim 0b000010_1_0000100_01_0001000_10_0_0_00000_00000000000000000000000000000000#64 = .ok (.actCopy true 4 1 8 2) ∧
  -- what is no word
  decodeWord 0b1_110_0000000000000000000000000000#32 = .error .reservedClass ∧
  decodeWord 0b1_111_0000000000000000000000000000#32 = .error .reservedClass ∧
  decodeWord 0b1_000_00_0000_11111_00000_00000_00000_00#32 = .error .undefinedOp ∧
  decodeWord 0b1_000_11_0000_10010_00000_000000000001#32 = .error .reservedField ∧
  decodeWord 0b1_000_00_0000_01000_00001_00001_00001_11#32 = .error .illFormedOperand

/-- R13, R95, R211 (the registers at issue): no bundle word writes a register when it issues. Whatever word runs, and however its
checks end, the registers of the task, both other banks and cores, every granary, the tiles' owners and CYCLE are as before; the
next address and the exception registers change only where the word takes a trap or a page fault; and but for `sig.dec` and
`sys.launch` every byte of memory reads as before. What a word writes lands later, under its own statements. -/
def Obligations.WordsWriteNoRegisterAtIssue : Prop :=
  ∀ (i : Instr) (s t : State) (x : Context), (encode true i).isSome = true → s.ctx? = some x → exec i s = .next t →
    (∃ y, t.ctx? = some y ∧ x.sameRegs y ∧
      ((y.pc = x.pc ∧ y.tepc = x.tepc ∧ y.tcause = x.tcause ∧ y.tval = x.tval ∧ y.hact = x.hact) ∨
        ∃ cause tval, t = s.trap cause s.issue.pos tval)) ∧
    (∀ c : Fin 256, (t.cores[c]).granary = (s.cores[c]).granary ∧ (t.cores[c]).tiles = (s.cores[c]).tiles ∧ (t.cores[c]).bc = (s.cores[c]).bc) ∧
    (∀ c : Fin 256, c ≠ s.cur → t.cores[c] = s.cores[c]) ∧ t.cur = s.cur ∧ t.core.ctx? (!s.core.bank) = s.core.ctx? (!s.core.bank) ∧
    ((∀ g rs rt, i ≠ .sigDec g rs rt) → (∀ g rs, i ≠ .sysLaunch g rs) →
      (∀ a, s.sameByte t a) ∧ ((∀ g rs rt, i ≠ .sigWait g rs rt) → (∀ g rd rs, i ≠ .ilock g rd rs) → t.mem = s.mem ∧ ∀ a, t.devByte a = s.devByte a))

/-- R5, R235: the checks of a bundle's words come before the effect of any of them, and a word's checks and its effect are those of the
statements about it: a bundle word that issues with nothing against it changes nothing when only its checks are made, and has the same
effect when its checks are behind it. With `StepRunsTheDecodedWord` the statements about words hold of every step that runs one. -/
def Obligations.WordsActAsTheyIssue : Prop :=
  ∀ (i : Instr) (s t : State) (x : Context), (encode true i).isSome = true → s.ctx? = some x →
    s.issue.phase = .whole → s.issue.stop = .none → exec i s = .next t → t.issue.stop = .none →
    let pass (p : Phase) (u : State) : State := { u with issue := { u.issue with phase := p } }
    exec i (pass .check s) = .next (pass .check s) ∧ exec i (pass .act s) = .next (pass .act t)

/-- The model's choice of log entry 3, and R199: every step keeps each memory of the module in its canonical form, the global
memory and the granary of every core, so that equal contents are equal data. It holds from any state, not only from reset. -/
def Obligations.MemoryStaysCanonical : Prop :=
  ∀ s t : State, s.memoryWf = true → step s = .next t → t.memoryWf = true

/-- R36, R123, R172, R268, R296, R313, R404, R411, R420: after reset every bank is empty, CYCLE is
0, the instruction stores hold nothing, the matrix engines have no holder and no command, empty planes without a tag, no
accumulator row but +0, and every block header of both scale planes and of the activation-scale buffer 0x7F000000, no crib is armed and no queue enabled, no core belongs to a partition, the module is
not frozen, and memory lists nothing, in the canonical form. (CYCLE and the empty stores are the
model's choice, log entry 4, and so is what empty memory reads as, log entry 3.) -/
def Obligations.AfterReset : Prop :=
  let s := State.reset
  s.memoryWf = true ∧ s.mem = [] ∧ s.pkg.frz = 0 ∧
  (∀ c : Fin 256, (s.cores[c]).ctxA = none ∧ (s.cores[c]).ctxB = none ∧ (s.cores[c]).bc = 0 ∧ (s.cores[c]).istore = [] ∧
    (s.pkg.partmap[c]).getLsbD 7 = false ∧
    let m := (s.cores[c]).matrix
    let ones : BitVec 384 := BitVec.ofNat 384 (0x7F000000 * ((2 ^ 384 - 1) / (2 ^ 32 - 1)))
    m.holder = none ∧ m.queue = [] ∧
    (∀ p ∈ [m.active, m.shadow], p.tag = none ∧ p.bad = [] ∧ ∀ j : Fin 64, p.cols[j] = 0) ∧
    (∀ j : Fin 64, m.activeScale[j] = ones ∧ m.shadowScale[j] = ones) ∧ (∀ n, m.actEntry n = ones) ∧
    ∀ n j, j < 64 → (m.row n).elem j = ⟨0, 0⟩) ∧
  (∀ k : Fin 16, (s.clusters[k]).cribs = [] ∧ (s.clusters[k]).headers = []) ∧
  (∀ (d : Fin 2) (q : Fin 64), ((s.dies[d]).granger.queues[q]).en = false)

/-! ### What happens on a core without a word (spec/03, 07, 08, 11) -/

/-- R95, R98, R204, R230, R237, R245, R307: the events of a core, in a module that is not frozen. What is due lands as
`ResultsAndTheEndOfABundleCycle` says; the accesses of the bc take place as `GranaryAccessReadsThenWrites` says; a drained bank's trap is
taken as `TakingATrapAndReturning` says; a filled row holds the 2 KiB of its page, with its fill as its last issue and its task's kernel as its user (log entries 19 and 67, the
model's choice), and a row that cannot be read is refused as a fetch fault (log entries 29 and 77, the model's choice); a waking
quarter becomes awake with every byte of it 0, no word of it in error, and no other byte changed; a core that may switch goes on with
its other bank after the hold clocks that are left of two, every hold counting as a wait (log entry 24, the model's choice); a complete generation of a barrier ends, with no arrival left. R132, R208,
R333, R357: where a core stands at a bundle that holds a `wait` or `waitr`, a `sig.dec`, a fence or a `sys.launch`, the bundle issues
once nothing holds it any longer, in one clock of the core as any other bundle does; while something holds it nothing changes. For the
bundle of one such word: a `wait` or `waitr` issues once its token has reached the threshold, or takes its trap where the token carries an
error; a `sig.dec`, once the task's Wain and fabric commands have posted, lowers the signal; a fence issues once they have posted; a
`sys.launch` that its checks let pass then writes its packet at QTAIL. -/
def Obligations.CoreEvents : Prop :=
  (∀ (s : State) (c : Fin 256), s.pkg.frz = 0 →
     let k := s.cores[c]
     (∀ x n, k.ctx? k.bank = some x → k.bc = n + 1 → exec (.resultLand c) s = .next (s.updCore c fun k => k.setCtx k.bank (some (x.land n)))) ∧
     (k.freeze = 0 → k.wakeFreeze = false → exec (.granaryAccess c) s = .next (s.updCore c Core.granaryAccess)) ∧
     (∀ x cause pos tval, k.ctx? k.bank = some x → x.status = .draining (.trap cause pos tval) → x.drained = true →
       exec (.trapEntry c) s = .next (s.updCore c fun k => k.setCtx k.bank (some (x.enterTrap cause pos tval)))) ∧
     (∀ x a, k.ctx? k.bank = some x → k.missing = some a →
       let tr := s.translate (coreDie c) x.partId x.extents (a / 2048 * 2048) 2048 .fetch
       let stops (st : BankStatus) : Prop := ∃ t, exec (.istoreFill c) s = .next t ∧ (t.cores[c]).missing = none ∧ t.mem = s.mem ∧
         (t.cores[c]).istore = k.istore ∧ (t.cores[c]).ctx? k.bank = some { x with status := st }
       (∀ pa leaf, tr = .phys pa leaf → s.memBad pa 2048 = false → s.severed (coreDie c) pa 2048 = false → k.row x.partId a = none → k.istore.length < 128 →
         ∃ t code, exec (.istoreFill c) s = .next t ∧ (t.cores[c]).missing = none ∧ (∀ b, s.sameByte t b) ∧
           (t.cores[c]).row x.partId a = some ⟨a / 2048 * 2048, x.partId, code, false, false, k.bc, [x.kernel]⟩ ∧
           (s.memoryWf = true → s.barnWf = true → s.barnRoomy → code = BitVec.ofNat 16384 (s.devNat pa 2048))) ∧
       (∀ pa leaf, tr = .phys pa leaf → s.memBad pa 2048 = true ∨ s.severed (coreDie c) pa 2048 = true → stops (.refused 0x09 (word a) 0)) ∧
       (∀ n, tr = .fault n → stops (.draining (.fault 0x09 (word a) 4 0))) ∧
       (tr = .fail ∨ tr = .lost ∨ (∃ leaf level, tr = .aper leaf level) → stops (.refused 0x09 (word a) 0))) ∧
     (∀ q : Fin 4, k.quarters[q] = .waking → ∃ t, exec (.quarterWake c q) s = .next t ∧ (t.cores[c]).quarters = k.quarters.set q .awake ∧
       (∀ a, readCell (t.cores[c]).granary a = if 393216 * q.val ≤ a ∧ a < 393216 * (q.val + 1) then 0 else readCell k.granary a) ∧
       (∀ n, n ∈ (t.cores[c]).badWords ↔ n ∈ k.badWords ∧ n / 24576 ≠ q.val) ∧
       (t.cores[c]).ctxA = k.ctxA ∧ (t.cores[c]).ctxB = k.ctxB ∧ ∀ d, d ≠ c → t.cores[d] = s.cores[d]) ∧
     (({ s with cur := c } : State).switches = true → ∃ t, exec (.bankSwitch c) s = .next t ∧ (t.cores[c]).bank = !k.bank ∧
       (t.cores[c]).bc = k.bc + (if k.switching = 0 then 2 else 1) ∧ (t.cores[c]).switching = 0 ∧
       (t.cores[c]).ctx? (!k.bank) = k.ctx? (!k.bank) ∧ (t.cores[c]).granary = k.granary) ∧
     (({ s with cur := c } : State).switches = false → exec (.bankSwitch c) s = .next s) ∧
     (∀ (cl : Fin 16) (n : Fin 4) (b : Barrier), (s.clusters[cl]).barriers[n] = some b → b.members ≠ [] →
       (∀ m ∈ b.members, m ∈ b.arrived) → ∃ t, exec (.barGenerationComplete cl n) s = .next t ∧
         (t.clusters[cl]).barriers[n] = some ⟨b.lid, b.gang, b.members, b.gen + 1, []⟩ ∧ t.cores = s.cores)) ∧
  ((∀ (i : Instr) (s : State), (encode true i).isSome = true → wordMeaning i s = exec i s) ∧
   ∀ (s : State) (c : Fin 256) (x : Context) (is : List Instr) (ds : Option (List Instr)),
     s.pkg.frz = 0 → (s.cores[c]).ctx? (s.cores[c]).bank = some x → front s.cores[c] x = .ready is ds → (s.cores[c]).canIssue = true →
     let t := clockOf wordMeaning c s
     let outcome : State := if t.issue.stop = .held then s else t
     ((∃ g k thr, .wait g k thr ∈ is) ∨ (∃ g k rs, .waitr g k rs ∈ is) → exec (.waitSatisfied c) s = .next outcome) ∧
     ((∃ g rs rt, .sigDec g rs rt ∈ is) → exec (.sigDecPerform c) s = .next outcome) ∧
     ((∃ g sc, .fence g sc ∈ is) → exec (.fenceRelease c) s = .next outcome) ∧
     ((∃ g rs, .sysLaunch g rs ∈ is) → exec (.sysLaunchWrite c) s = .next outcome)) ∧
  (∀ (s : State) (c : Fin 256) (x : Context) (r : IRow) (i : Instr) (e : Instr) (g : BitVec 4) (rs rt : BitVec 5),
     let k := s.cores[c]
     s.pkg.frz = 0 → k.ctx? k.bank = some x → k.ctx? (!k.bank) = none → k.freeze = 0 → k.missing = none → k.switching = 0 →
     k.disabled = false → k.snap k.bank = .empty → x.status = .running → x.cancel = false → x.preempt = false → x.dly = 0 → x.delay = none →
     x.landed = false → x.deferred = [] → x.granaryErr = none → x.spans k.bc = ([], []) →
     k.row x.partId x.pc.toNat = some r → encode true i = some (r.code.extractLsb' (8 * (x.pc.toNat % 2048)) 32) → i.wf = true →
     let s1 : State := { s with cur := c, issue := ⟨0, 4, x.pc + 4, .whole, .none⟩ }
     let issued (t : State) : Prop := exec e s = .next t ∧ (t.cores[c]).bc = k.bc + 1 ∧ (t.cores[c]).granary = k.granary ∧
       (∃ y, (t.cores[c]).ctx? k.bank = some y ∧ y.pc = x.pc + 4 ∧ y.status = .running ∧ y.k = x.k) ∧ ∀ d, d ≠ c → t.cores[d] = s.cores[d]
     let waits (u : Use) (tok : BitVec 5) (thr : Nat) : Prop := Issues s1 x u →
       let t := x.k[tok.toFin]
       let reached : Prop := (t.count.toNat + 2 ^ 16 - thr) % 2 ^ 16 < 2 ^ 15
       (reached → t.err = false → ∃ v, issued v ∧ v.mem = s.mem) ∧
       (reached → t.err = true → ∃ v, exec e s = .next v ∧
         (v.cores[c]).ctx? k.bank = some (x.raiseTrap 0x0C 0 (word (tok.toNat + t.ecode.toNat * 2 ^ 8 + t.count.toNat * 2 ^ 16)))) ∧
       (¬ reached → exec e s = .next s)
     (∀ tok thr, i = .wait g tok thr → e = .waitSatisfied c → waits ⟨.scalar g, [], []⟩ tok thr.toNat) ∧
     (∀ tok, i = .waitr g tok rs → e = .waitSatisfied c → waits ⟨.scalar g, [.s rs], []⟩ tok ((x.sdata rs).toNat % 2 ^ 16)) ∧
     (∀ pa leaf, i = .sigDec g rs rt → e = .sigDecPerform c → Issues s1 x ⟨.scalar g, [.s rs, .s rt], []⟩ →
       let a := x.sdata rs
       a.toNat % 8 = 0 → s1.translate (coreDie c) x.partId x.extents a.toNat 8 .atomic = .phys pa leaf → s.severed (coreDie c) pa 8 = false →
       (∀ d, physKind pa ≠ .gate d) →
       (x.wain = [] → x.fabric = [] → ∃ t, issued t ∧
         (s.memoryWf = true → s.barnWf = true → (∀ j < 8, hasMemory (pa + j) = true) → s.memBad pa 8 = false →
           t.devNat pa 8 = (s.devNat pa 8 + 2 ^ 64 - (x.sdata rt).toNat) % 2 ^ 64)) ∧
       (¬ (x.wain = [] ∧ x.fabric = []) → exec e s = .next s)) ∧
     (∀ scope, i = .fence g scope → e = .fenceRelease c → Issues s1 x ⟨.scalar g, [], []⟩ →
       (x.wain = [] → x.fabric = [] → ∃ t, issued t ∧ t.mem = s.mem) ∧ (¬ (x.wain = [] ∧ x.fabric = []) → exec e s = .next s)) ∧
     (i = .sysLaunch g rs → e = .sysLaunchWrite c → Issues s1 x ⟨.scalar g, [.s rs], []⟩ →
       let v := x.sdata rs
       let d := coreDie c
       let qn : Fin 64 := launchQueue v
       let q := (s.dies[d]).granger.queues[qn]
       q.kind = true → q.en = true → q.part = x.partId → q.size.toNat ≤ 12 → v.toNat % 64 = 0 → v.toNat / 2 ^ 58 = 0 →
       q.qtail - q.qhead < 2 ^ (q.size.toNat + 4) →
       (x.wain = [] → x.fabric = [] → ∃ t, issued t ∧ ((t.dies[d]).granger.queues[qn]).qtail = (q.qtail + 1) % 2 ^ 64 ∧
         t.mem = (s.virtWrite d q.part (q.qbase.toNat / 64 % 2 ^ 46 * 64 + 64 * (q.qtail % 2 ^ (q.size.toNat + 4)))
           ([1, 0, 0, 0, 0, 0, 0, 0] ++ leBytes 8 (v.toNat % 2 ^ 52) ++ List.replicate 48 0)).mem) ∧
       (¬ (x.wain = [] ∧ x.fabric = []) → exec e s = .next s)))

/-! ### The engines (spec/06, spec/07, spec/15) -/

/-- R183, R186, R195, R197 and R207: a queued matrix command starts on its lane when no earlier one is in its way, it was issued
two bc ago or more, and the quarters of its tiles are awake; a started one completes, `mdrain` only as the oldest: it leaves the
queue, its effects are in place, and its token, flags and register writes reach the bank that issued it. `mswap` exchanges the
planes and their tags; `mdrain` changes nothing of the engine; `mzero` makes the selected columns of its rows +0 and leaves
every other element; the tiles of a command with RET go back to its bank. R203, R205, R212, R222, R223, R228: a bank's oldest Wain command starts once it was issued two bc ago and the quarters of its
tiles are awake. With guard lane 0 off it is done at once and does nothing. A `wn.far` reads its 8 bytes, which wait for the
post; where the page is not mapped the command is held and the fault service asked. A command whose items have run completes: it
leaves the queue, its tiles go where HAND says, and its token posts. R24, R207: a post adds 1 to the count of its token; a failure
sets ERR, and ECODE where ERR was 0; no other token changes. -/
def Obligations.MatrixAndWainCommands : Prop :=
  (∀ (x : Context) (tk : BitVec 5) (e : BitVec 4) (fl : Flags) (ws : List RegWrite),
      let y := x.post tk e fl ws
      let old := x.k[tk.toFin]
      y.k[tk.toFin] = ⟨old.count + 1, old.err || e != 0, if e ≠ 0 ∧ old.err = false then e else old.ecode⟩ ∧
      (∀ n : Fin 32, n ≠ tk.toFin → y.k[n] = x.k[n]) ∧ y.fflags = x.fflags ||| fl ∧ y.pc = x.pc ∧
      (ws = [] → y.s = x.s ∧ y.v = x.v ∧ y.p = x.p)) ∧
  (∀ (s : State) (c : Fin 256) (n : Nat) (m : MCmd), s.pkg.frz = 0 →
     let k := s.cores[c]
     k.matrix.queue[n]? = some m →
     (m.started = false → m.issue + 2 ≤ k.bc → k.cancelled m.bank = false → k.awake (tilesOf m.spans) = true →
       (∀ e ∈ k.matrix.queue.take n, e.load ≠ m.load ∧ ¬ (m.load = true ∧ e.barrier = true) ∧ ¬ (m.barrier = true ∧ e.load = true)) →
       exec (.matrixCommandStart c n) s = .next (s.updCore c fun k =>
         { k with matrix := { k.matrix with queue := k.matrix.queue.set n { m with started := true } } })) ∧
     (∀ x, m.started = true → (m.op = .mdrain → n = 0) → k.ctx? m.bank = some x →
       let q := k.matrix.queue.eraseIdx n
       let k0 : Core := { k with matrix := { k.matrix with queue := q } }
       let r := runMatrix k0 m
       ∃ t, exec (.matrixCommandComplete c n) s = .next t ∧ (t.cores[c]).matrix = r.core.matrix ∧
         (t.cores[c]).matrix.queue = q ∧ (t.cores[c]).granary = r.core.granary ∧ (∀ d : Fin 256, d ≠ c → t.cores[d] = s.cores[d]) ∧
         (t.cores[c]).ctx? m.bank = some (x.post m.token (if r.failed then 1 else 0) r.flags r.writes) ∧
         (∀ j : Fin 64, ((t.cores[c]).tiles[j]).owner =
           if m.usesRet = true ∧ m.ms[0].getLsbD 0 = true ∧ j.val ∈ tilesOf m.spans then (if m.bank then 2 else 1) else (k.tiles[j]).owner) ∧
         (m.op = .mdrain → (t.cores[c]).matrix = { k.matrix with queue := q }) ∧
         (m.op = .mswap → m.guard.getLsbD 0 = true →
           (t.cores[c]).matrix = { k.matrix with queue := q, active := k.matrix.shadow, shadow := k.matrix.active, activeScale := k.matrix.shadowScale, shadowScale := k.matrix.activeScale }) ∧
         (m.op = .mzero → ∀ a j, j < 64 → ((t.cores[c]).matrix.row a).elem j =
           if m.acc0 ≤ a ∧ a < m.acc0 + m.rows ∧ m.col j = true then ⟨0, 0⟩ else (k.matrix.row a).elem j))) ∧
  (∀ (s : State) (c : Fin 256) (b : Bool) (x : Context) (w : WCmd) (ws : List WCmd), s.pkg.frz = 0 →
     let k := s.cores[c]
     let d := coreDie c
     k.ctx? b = some x → x.wain = w :: ws → w.held = none → w.push = false →
     (w.started = false → w.issue + 2 ≤ k.bc → k.cancelled b = false → k.awake (tilesOf w.spans) = true →
       (w.enabled = false → exec (.wainCommandStart c b) s = .next (s.updCore c fun k =>
         k.setCtx b (some { x with wain := { w with started := true, done := true } :: ws }))) ∧
       (w.enabled = true → exec (.wainCommandStart c b) s = .next (s.runWain c b { w with started := true } x)) ∧
       (w.enabled = true → w.op = .far → w.item = 0 → w.gateDie = none → w.res = none →
         (∀ ps bs, s.resolve d x.partId x.extents w.va 8 .read = .pieces ps → (∀ p ∈ ps, s.unlinked p.1 = false) →
           s.readPieces ps = some bs → ∃ t, exec (.wainCommandStart c b) s = .next t ∧ (∀ a, s.sameByte t a) ∧
             (t.cores[c]).ctx? b = some { x with wain := { w with started := true, done := true, item := 1, writes := [.s (w.regs.getD 0 0) ⟨word (leNat bs), 0⟩] } :: ws }) ∧
         (∀ a cause, s.resolve d x.partId x.extents w.va 8 .read = .held a cause → ∃ t, exec (.wainCommandStart c b) s = .next t ∧
           (t.cores[c]).ctx? b = some { x with wain := { w with started := true, held := some ⟨a, 0⟩ } :: ws } ∧
           t.dies = (s.postFault d x.partId a .read cause).dies))) ∧
     (w.done = true → ∃ t, exec (.wainCommandComplete c b) s = .next t ∧
       (t.cores[c]).ctx? b = some (({ x with wain := ws } : Context).post w.token w.ecode w.flags w.writes) ∧
       (t.cores[c]).granary = k.granary ∧ (∀ d : Fin 256, d ≠ c → t.cores[d] = s.cores[d]) ∧
       ∀ n : Fin 64, ((t.cores[c]).tiles[n]).owner =
         if n.val ∈ tilesOf w.spans ∧ w.hand = 0 then bankOwner b else if n.val ∈ tilesOf w.spans ∧ w.hand = 1 then 3 else (k.tiles[n]).owner))

/-- R173–R178, R184, R189, R192–R194, R196, R197: what a completing matrix command does. `mload` puts the 192 bytes of each
selected slot into a column of the shadow plane, `mscale.w` and `mscale.a` the header words of an entry; `mstream` and
`mstreamz` add to each selected element of a live row its product sum; `mstore` puts the image of each live row into the
granary; `mread` carries two rows to its register and `mwrite` two from it. A column, a header word or a row that cannot be read
stays as it was, a column is marked, and the post carries ECODE 1 (log entries 60, 69 and 70). A stream, or a rounded `mstore`, whose
every lane is off reads nothing and does not fail (R180; of `mstore` with OFMT 11111 log entry 80, the model's choice). -/
def Obligations.MatrixEffects : Prop :=
  (∀ m : MCmd, m.klen = m.ms[0].toNat / 2 ^ 27 % 2 ^ 9 ∧ m.ofmt = m.ms[0].toNat / 2 ^ 22 % 2 ^ 5 ∧ m.afmt = m.ms[0].toNat / 2 ^ 17 % 2 ^ 5 ∧
    m.wfmt = m.ms[0].toNat / 2 ^ 12 % 2 ^ 5 ∧ m.rows = m.ms[1].toNat / 2 ^ 10 % 2 ^ 11 ∧ m.acc0 = m.ms[1].toNat % 2 ^ 10 ∧
    m.wslot = m.ms[2].toNat / 2 ^ 7 % 2 ^ 7 ∧ m.aslot = m.ms[2].toNat % 2 ^ 7 ∧ m.opitch = m.ms[3].toNat / 2 ^ 11 % 2 ^ 11 ∧
    m.ooff = m.ms[3].toNat % 2 ^ 11 ∧ m.asc0 = m.ms[4].toNat / 2 ^ 11 % 2 ^ 10 ∧ m.soff = m.ms[4].toNat % 2 ^ 11 ∧
    (∀ r, m.dead r = true ↔ m.ms[0].getLsbD 1 = true ∧ m.livecnt.toNat ≤ m.ms[5].toNat % 2 ^ 16 + r) ∧
    (∀ n, m.col n = m.guard.getLsbD (192 + n))) ∧
  (∀ (s : State) (c : Fin 256) (n : Nat) (m : MCmd) (x : Context), s.pkg.frz = 0 →
    let k := s.cores[c]
    let old := k.matrix
    old.queue[n]? = some m → m.started = true → k.ctx? m.bank = some x →
    let base := 24576 * m.tile
    let readable (a len : Nat) : Prop := (∀ t ∈ tilesOf [(a, len)], (k.tile t).owner = 3) ∧ ∀ j < len, (a + j) / 16 ∉ k.badWords
    let bytes (a len : Nat) : Nat := leNat (readCells k.granary a len)
    let ends (P : Core → Bool → Flags → List RegWrite → Prop) : Prop :=
      ∃ t failed fl ws, exec (.matrixCommandComplete c n) s = .next t ∧ P t.cores[c] failed fl ws ∧
        (t.cores[c]).ctx? m.bank = some (x.post m.token (if failed then 1 else 0) fl ws)
    (m.op = .mload → ends fun u failed fl ws => fl = 0 ∧ ws = [] ∧ u.granary = k.granary ∧ u.matrix.active = old.active ∧ u.matrix.acc = old.acc ∧
      u.matrix.shadow.tag = some (BitVec.ofNat 5 m.wfmt) ∧
      (failed = true ↔ ∃ j < 64, m.col j = true ∧ ¬ readable (base + 192 * (m.wslot + j)) 192) ∧
      ∀ j : Fin 64, let a := base + 192 * (m.wslot + j.val)
        (m.col j.val = true → readable a 192 → u.matrix.shadow.cols[j] = BitVec.ofNat 1536 (bytes a 192) ∧ j.val ∉ u.matrix.shadow.bad) ∧
        (m.col j.val = true → ¬ readable a 192 → u.matrix.shadow.cols[j] = old.shadow.cols[j] ∧ j.val ∈ u.matrix.shadow.bad) ∧
        (m.col j.val = false → u.matrix.shadow.cols[j] = old.shadow.cols[j] ∧ (j.val ∈ u.matrix.shadow.bad ↔ j.val ∈ old.shadow.bad))) ∧
    (m.op = .mscaleW → ends fun u failed fl ws => fl = 0 ∧ ws = [] ∧ u.granary = k.granary ∧
      (failed = true ↔ ∃ j < 64, m.col j = true ∧ ∃ h < 3, ¬ readable (base + 16 * m.soff + 48 * j + 16 * h) 16) ∧
      ∀ (j : Fin 64) (h : Fin 3), let a := base + 16 * m.soff + 48 * j.val + 16 * h.val
        (m.col j.val = true → readable a 16 → (u.matrix.shadowScale[j]).extractLsb' (128 * h.val) 128 = BitVec.ofNat 128 (bytes a 16)) ∧
        (m.col j.val = false ∨ ¬ readable a 16 →
          (u.matrix.shadowScale[j]).extractLsb' (128 * h.val) 128 = (old.shadowScale[j]).extractLsb' (128 * h.val) 128)) ∧
    (m.op = .mscaleA → ends fun u failed fl ws => fl = 0 ∧ ws = [] ∧ u.granary = k.granary ∧
      (failed = true ↔ m.guard.getLsbD 0 = true ∧ ∃ r < m.rows, ∃ h < 3, ¬ readable (base + 16 * m.soff + 48 * r + 16 * h) 16) ∧
      ∀ (e : Nat) (h : Fin 3), let r := e - m.asc0
        let a := base + 16 * m.soff + 48 * r + 16 * h.val
        let loaded : Prop := m.guard.getLsbD 0 = true ∧ m.asc0 ≤ e ∧ r < m.rows ∧ readable a 16
        (loaded → (u.matrix.actEntry e).extractLsb' (128 * h.val) 128 = BitVec.ofNat 128 (bytes a 16)) ∧
        (¬ loaded → (u.matrix.actEntry e).extractLsb' (128 * h.val) 128 = (old.actEntry e).extractLsb' (128 * h.val) 128)) ∧
    (m.op = .mstream ∨ m.op = .mstreamz → ends fun u failed fl ws => ws = [] ∧ u.granary = k.granary ∧ u.matrix.active = old.active ∧ u.matrix.shadow = old.shadow ∧
      let kind := matrixKind m.afmt
      let w := kindWidth kind
      let live (i : Nat) : Bool := decide (i < m.klen) && m.guard.getLsbD (if w = 4 then i / 2 else i * w / 8)
      let runs (r : Nat) : Prop := r < m.rows ∧ m.dead r = false ∧ readable (base + 192 * (m.aslot + r)) 192 ∧
        ¬ (m.op = .mstream ∧ m.acc0 + r ∈ old.accBad)
      let from_ (r j : Nat) : Elem := if m.op = .mstreamz then ⟨0, 0⟩ else (old.row (m.acc0 + r)).elem j
      let o (r : Nat) (j : Fin 64) : Operands :=
        ⟨BitVec.ofNat 1536 (bytes (base + 192 * (m.aslot + r)) 192), old.active.cols[j], m.afmt, (old.active.tag.map (·.toNat)).getD m.afmt,
         old.actEntry (m.asc0 + r), old.activeScale[j]⟩
      let int (fmt : Nat) (b : BitVec 1536) (i : Nat) : Int := let v : Nat := b.toNat / 2 ^ (8 * i) % 2 ^ 8; if fmt = 9 ∧ 128 ≤ v then (v : Int) - 256 else (v : Int)
      let sum (r : Nat) (j : Fin 64) : Int :=
        (((List.range 192).filter live).map fun i => int m.afmt (o r j).a i * int (o r j).wfmt (o r j).b i).sum
      (failed = true ↔ (∃ i < 256, m.guard.getLsbD i = true) ∧ ∃ r < m.rows, m.dead r = false ∧ ¬ runs r) ∧
      (∀ b : Fin 5, fl[b] = true ↔ ∃ r, runs r ∧ ∃ j : Fin 64, m.col j.val = true ∧ j.val ∉ old.active.bad ∧ kind ≠ 2 ∧
        (msum (from_ r j.val) (o r j) w live).2[b] = true) ∧
      ∀ (a : Nat) (j : Fin 64), let r := a - m.acc0
        let changed : Prop := m.acc0 ≤ a ∧ runs r ∧ m.col j.val = true ∧ j.val ∉ old.active.bad
        (changed → kind = 2 → (u.matrix.row a).elem j.val = ⟨((((from_ r j.val).code : Int) + sum r j) % 2 ^ 32).toNat, 0⟩) ∧
        (changed → kind ≠ 2 → let e := (msum (from_ r j.val) (o r j) w live).1
          (u.matrix.row a).elem j.val = ⟨e.code % 2 ^ 32, e.tail % 4⟩) ∧
        (¬ changed → (u.matrix.row a).elem j.val = (old.row a).elem j.val)) ∧
    (m.op = .mstore → imageBytes m.ofmt ≠ 0 → k.badWords = [] → Memory.wf k.granary = true → (∀ t ∈ tilesOf m.spans, (k.tile t).owner = 3) →
      ends fun u failed fl ws => ws = [] ∧ u.matrix = { old with queue := old.queue.eraseIdx n } ∧
      let at_ (r : Nat) : Nat := base + 16 * m.ooff + 16 * m.opitch * r
      let f := matrixFloat m.ofmt
      let rounded (r : Nat) : List (Option (Nat × Flags)) := roundBlock f .f32 ((RMode.ofBits m.rmode).getD .rne)
        ((List.range 64).map fun j => if m.col j then some (carried .f32 ((old.row (m.acc0 + r)).elem j)) else none)
      let image (r : Nat) : List Host.Cell := let row := old.row (m.acc0 + r)
        if m.ofmt = 31 then (List.range 272).map fun j =>
          (at_ r + j, if j < 256 then row.data.extractLsb' (8 * j) 8 else row.tail.extractLsb' (8 * (j - 256)) 8)
        else (List.range 64).flatMap fun j =>
          if m.ofmt = 11 then (if m.col j then (List.range 4).map fun i => (at_ r + 4 * j + i, byte ((row.elem j).code / 2 ^ (8 * i))) else [])
          else match (rounded r).getD j none with
            | some y => (List.range (f.width / 8)).map fun i => (at_ r + f.width / 8 * j + i, byte (y.1 / 2 ^ (8 * i)))
            | none => []
      let stored := (List.range m.rows).filter fun r => !m.dead r && !old.accBad.contains (m.acc0 + r)
      (failed = true ↔ (m.ofmt = 31 ∨ ∃ j < 64, m.col j = true) ∧ ∃ r < m.rows, m.dead r = false ∧ m.acc0 + r ∈ old.accBad) ∧
      (∀ b : Fin 5, fl[b] = true ↔ m.ofmt < 5 ∧ ∃ r ∈ stored, ∃ y, some y ∈ rounded r ∧ y.2[b] = true) ∧
      ∀ a, readCell u.granary a = ((((stored.flatMap image).filter fun e => e.1 == a).getLast?).map (·.2)).getD (readCell k.granary a)) ∧
    (m.op = .mread → ends fun u failed fl ws => fl = 0 ∧ u.matrix = { old with queue := old.queue.eraseIdx n } ∧ u.granary = k.granary ∧
      (failed = true ↔ ∃ i < 128, m.guard.getLsbD (4 * i) = true ∧ m.acc0 + i / 64 ∈ old.accBad) ∧
      ∃ val mask, ws = [.v m.reg val mask] ∧ ∀ (v : VVal) (i : Nat), i < 128 → (v.merge val mask).elem 32 i =
        if m.guard.getLsbD (4 * i) = true ∧ m.acc0 + i / 64 ∉ old.accBad then (old.row (m.acc0 + i / 64)).elem (i % 64) else v.elem 32 i) ∧
    (m.op = .mwrite → ends fun u failed fl ws => failed = false ∧ fl = 0 ∧ ws = [] ∧ u.granary = k.granary ∧
      ∀ a j, j < 64 → (u.matrix.row a).elem j =
        if a = m.acc0 ∧ m.guard.getLsbD (4 * j) = true then m.data.elem 32 j
        else if a = m.acc0 + 1 ∧ m.guard.getLsbD (4 * (64 + j)) = true then m.data.elem 32 (64 + j) else (old.row a).elem j))

/-- R56, R57, R198, R206, R223–R229, R340, R345, R380 (log entries 69 and 71): one item of a running Wain command. A word read from memory goes into
the command's granary word, a granary word goes to memory, and no other byte changes; `wn.decode` and `wn.encode` round the elements of
the item's word where the page has one of the five formats of 8 to 32 bits, one row a block of error feedback; an E2M1 page gives each
element the value of R56, and takes 32 elements at once, quantised as R57 says, its blocks where R345 places them, unless the row's
elements do not fill whole blocks (ECODE 4); `wn.expand` places the kept elements of each group by its nibble;
`wn.flush` writes the newer line back and drops it; `vspill.m` stores an image and `vfill.m` keeps one for the post. An item whose
granary word cannot be read fails with ECODE 1, one whose memory is in error with 2, one that no page may have as translation says, one
in a gate window that is no push, or whose page has another format, with 4; and where the page faults the command is
held on it. -/
def Obligations.WainEffects : Prop :=
  (∀ (f : FFmt) (m : RMode) (xs : List FVal), m ≠ .rneEf → roundStream f m none xs = (xs.map fun v => final f m v, none)) ∧
  (∀ (s : State) (c : Fin 256) (b : Bool) (x : Context) (w : WCmd) (ws : List WCmd), s.pkg.frz = 0 →
    let k := s.cores[c]
    let d := coreDie c
    k.ctx? b = some x → x.wain = w :: ws → w.started = true → w.done = false → w.push = false → w.held = none → w.enabled = true →
    w.item < w.items → w.gateDie = none →
    let row := w.item / w.rlen
    let col := w.item % w.rlen
    let a := w.gaddr + 16 * w.pitch * row + 16 * col
    let mode := (RMode.ofBits w.rmode).getD .rne
    let readable (a : Nat) : Prop := (∀ t ∈ tilesOf [(a, 16)], (k.tile t).owner = 4) ∧ ∀ j < 16, (a + j) / 16 ∉ k.badWords
    let word16 (a : Nat) : List Byte := readCells k.granary a 16
    let goes (P : State → WCmd → Prop) : Prop := ∃ t v y, exec (.wainCommandStart c b) s = .next t ∧ P t v ∧
      (t.cores[c]).ctx? b = some y ∧ y.wain = v :: ws ∧ y.k = x.k ∧ y.pc = x.pc ∧ ∀ e : Fin 256, e ≠ c → t.cores[e] = s.cores[e]
    let moved (n : Nat) (v : WCmd) : Prop := v.item = w.item + n ∧ v.ecode = w.ecode ∧ v.held = none ∧ (v.done = true ↔ w.items ≤ w.item + n)
    let fails (e : BitVec 4) (n : Nat) : Prop := goes fun t v => v.item = w.item + n ∧ v.ecode = (if w.ecode = 0 then e else w.ecode) ∧
      (t.cores[c]).granary = k.granary ∧ ∀ i, s.sameByte t i
    let access (va len n : Nat) (acc : Access) : Prop :=
      (∀ e, s.resolve d x.partId x.extents va len acc = .fail e → fails e n) ∧
      (∀ p cause, s.resolve d x.partId x.extents va len acc = .held p cause → goes fun t v =>
        v.item = w.item ∧ v.ecode = w.ecode ∧ v.held = some ⟨p, BitVec.ofNat 2 (acc.kind - 1)⟩ ∧ t.dies = (s.postFault d x.partId p acc cause).dies)
    let reads (va len : Nat) (P : List Byte → Prop) : Prop := access va len 1 .read ∧
      ∀ ps, s.resolve d x.partId x.extents va len .read = .pieces ps →
        (s.readPieces ps = none → fails 2 1) ∧ ∀ bs, s.readPieces ps = some bs → P bs
    let writes (va len : Nat) (bs : List Byte) : Prop := access va len 1 .write ∧
      ∀ pa leaf, s.resolve d x.partId x.extents va len .write = .pieces [(pa, len, leaf)] →
        (w.op ≠ .copy → gateOf [(pa, len, leaf)] ≠ none → fails 4 1) ∧
        (gateOf [(pa, len, leaf)] = none → s.memBad pa len = true → fails 2 1) ∧
        (gateOf [(pa, len, leaf)] = none → s.memBad pa len = false → (∀ j < len, hasMemory (pa + j) = true) → goes fun t v => moved 1 v ∧
          (t.cores[c]).granary = k.granary ∧ (s.memoryWf = true → s.barnWf = true → ∀ j < len, t.devByte (pa + j) = bs.getD j 0) ∧
          ∀ i, i < pa ∨ pa + len ≤ i → s.sameByte t i)
    let puts (t : State) (bs : List Byte) : Prop := (∀ i, s.sameByte t i) ∧ (Memory.wf k.granary = true → ∀ i,
      readCell (t.cores[c]).granary i = if a ≤ i ∧ i < a + 16 then bs.getD (i - a) 0 else readCell k.granary i)
    let elems (wd : Nat) (bs : List Byte) (i : Nat) : Nat := leNat bs / 2 ^ (wd * i) % 2 ^ wd
    (w.op = .copy ∧ w.dir = false ∨ w.op = .gather → a % 16 = 0 → (k.tile (a / 24576)).owner = 4 →
      reads (if w.op = .copy then w.va + 16 * w.item else rowVa w.va w.vstride row (16 * col)) 16 fun bs => goes fun t v => moved 1 v ∧ puts t bs) ∧
    (w.op = .copy ∧ w.dir = true ∨ w.op = .scatter →
      (readable a → writes (if w.op = .copy then w.va + 16 * w.item else rowVa w.va w.vstride row (16 * col)) 16 (word16 a)) ∧
      (¬ readable a → fails 1 1)) ∧
    (w.op = .spillM → let v := w.images.getD w.item ⟨0, 0⟩
      writes (w.va + 768 * w.item) 768 ((List.range 768).map fun j => if j < 512 then v.data.extractLsb' (8 * j) 8 else v.tail.extractLsb' (8 * (j - 512)) 8)) ∧
    (w.op = .fillM → reads (w.va + 768 * w.item) 768 fun bs => goes fun t v => moved 1 v ∧ (t.cores[c]).granary = k.granary ∧ (∀ i, s.sameByte t i) ∧
      v.writes = w.writes ++ [.v (w.regs.getD w.item 0) ⟨BitVec.ofNat 4096 (leNat (bs.take 512)), BitVec.ofNat 2048 (leNat (bs.drop 512))⟩ fullMask]) ∧
    (w.op = .flush → let va := max w.va (128 * (w.va / 128 + w.item))
      access va 1 1 .read ∧ ∀ pa leaf, s.resolve d x.partId x.extents va 1 .read = .pieces [(pa, 1, leaf)] →
        (s.memBad pa 1 = true → fails 2 1) ∧
        (s.memBad pa 1 = false → (∀ h, physKind pa ≠ .host h) → goes fun t v => moved 1 v ∧ t.mem = s.mem ∧ (t.cores[c]).granary = k.granary) ∧
        (∀ h, s.memBad pa 1 = false → physKind pa = .host h → goes fun t v => moved 1 v ∧ (t.cores[c]).granary = k.granary ∧
          (t.dies[h]).barn = (s.dies[h]).barn.filter (fun l => !(l.line == pa / 128)) ∧
          ∀ l, (s.dies[h]).barn.filter (fun l => l.line == pa / 128) = [l] →
            t.mem = if l.dirty then writeBytes s.mem (128 * l.line) l.data else s.mem)) ∧
    (w.op = .expand → a % 16 = 0 → (k.tile (a / 24576)).owner = 4 → 0 < w.rlen →
      let wd := unifiedWidth (BitVec.ofNat 5 w.gfmt)
      wd = 8 ∨ wd = 16 →
      let n := 128 / wd
      reads (rowVa w.va w.vstride row (8 * col)) 8 fun kept =>
        ∀ ps ns, s.resolve d x.partId x.extents (rowVa w.va w.vstride row (8 * col)) 8 .read = .pieces ps →
          let u := (s.cachePages d x.partId (rowVa w.va w.vstride row (8 * col)) 8).fillPieces ps
          let at_ := w.meta + row * (w.rlen * n / 4 / 2) + col * (n / 8)
          ∀ qs, u.resolve d x.partId x.extents at_ (n / 8) .read = .pieces qs → u.readPieces qs = some ns → (∀ p ∈ qs, u.unlinked p.1 = false) →
          let nib (g : Nat) : Nat := leNat ns / 2 ^ (4 * g) % 16
          let fine (g : Nat) : Prop := nib g % 4 < nib g / 4
          goes fun t v => v.item = w.item + 1 ∧ v.held = none ∧ ((∀ g < n / 4, fine g) → v.ecode = w.ecode) ∧
            ((∃ g < n / 4, ¬ fine g) → v.ecode = if w.ecode = 0 then 4 else w.ecode) ∧
            (∀ i, (i < a ∨ a + 16 ≤ i) → Memory.wf k.granary = true → readCell (t.cores[c]).granary i = readCell k.granary i) ∧
            (Memory.wf k.granary = true → ∀ g < n / 4, ∀ j < 4, elems wd (readCells (t.cores[c]).granary a 16) (4 * g + j) =
              if nib g % 4 < nib g / 4 then
                (if j = nib g % 4 then elems wd kept (2 * g) else if j = nib g / 4 then elems wd kept (2 * g + 1) else 0)
              else 0)) ∧
    (∀ f geom, w.fmt = some (f, geom) → w.gfmt < 5 →
      let g := matrixFloat w.gfmt
      let n := 128 / g.width
      let h := matrixFloat f
      (w.op = .decode → 5 < f → fails 4 1) ∧
      (f = 5 →
        let size := if geom = 0 then 20 else 16
        let b0 := w.va % 65536 / size
        let begins : Prop := w.va % 65536 % size = 0 ∧ b0 < 3276
        let b := b0 + w.item * n / 32
        let page := w.va / 65536 * 65536 + b / 3276 * 65536
        let codes := page + size * (b % 3276)
        let header := if geom = 0 then codes + 16 else page + 52416 + 4 * (b % 3276)
        (w.op = .decode → (¬ begins → fails 4 1) ∧
          (begins → a % 16 = 0 → (k.tile (a / 24576)).owner = 4 →
            let va := codes + w.item * n % 32 / 2
            access va (n / 2) 1 .read ∧
            ∀ ps, s.resolve d x.partId x.extents va (n / 2) .read = .pieces ps →
              (sameFormat (f, geom) ps = false → fails 4 1) ∧
              (sameFormat (f, geom) ps = true → s.readPieces ps = none → fails 2 1) ∧
              (∀ bs, sameFormat (f, geom) ps = true → s.readPieces ps = some bs →
                let u := (s.cachePages d x.partId va (n / 2)).fillPieces ps
                ∀ qs hs, u.resolve d x.partId x.extents header 4 .read = .pieces qs → sameFormat (f, geom) qs = true → u.readPieces qs = some hs →
                  let r := roundStream g mode w.res ((List.range n).map fun i => blockDecode (BitVec.ofNat 32 (leNat hs)) (elems 4 bs i))
                  goes fun t v => moved 1 v ∧ (∀ i, s.sameByte t i) ∧
                    v.res = (if (w.item + 1) % w.rlen = 0 then none else r.2) ∧ v.flags = r.1.foldl (fun f y => f ||| y.2) w.flags ∧
                    (Memory.wf k.granary = true → (∀ i < n, elems g.width (readCells (t.cores[c]).granary a 16) i = (r.1.getD i (0, 0)).1 % 2 ^ g.width) ∧
                      ∀ i, (i < a ∨ a + 16 ≤ i) → readCell (t.cores[c]).granary i = readCell k.granary i)))) ∧
        (w.op = .encode → (w.rlen * n % 32 ≠ 0 ∨ ¬ begins → fails 4 1) ∧
          (w.rlen * n % 32 = 0 → begins →
            let per := 32 / n
            let place (j : Nat) : Nat := w.gaddr + 16 * w.pitch * ((w.item + j) / w.rlen) + 16 * ((w.item + j) % w.rlen)
            let q := quantise mode ((List.range 32).map fun i => valueOf g (elems g.width (word16 (place (i / n))) (i % n)))
            (w.item % per ≠ 0 → fails 3 (per - w.item % per)) ∧
            (w.item % per = 0 → (∃ j < per, ¬ readable (place j)) → fails 1 per) ∧
            (w.item % per = 0 → (∀ j < per, readable (place j)) → access codes 16 per .write ∧
              ∀ pa pb leaf leaf', s.resolve d x.partId x.extents codes 16 .write = .pieces [(pa, 16, leaf)] →
                (s.cachePages d x.partId codes 16).resolve d x.partId x.extents header 4 .write = .pieces [(pb, 4, leaf')] →
                let ps := [(pa, 16, leaf), (pb, 4, leaf')]
                (sameFormat (f, geom) ps = false ∨ gateOf ps ≠ none → fails 4 per) ∧
                (sameFormat (f, geom) ps = true → gateOf ps = none → s.memBad pa 16 = true ∨ s.memBad pb 4 = true → fails 2 per) ∧
                (sameFormat (f, geom) ps = true → gateOf ps = none → s.memBad pa 16 = false → s.memBad pb 4 = false →
                  (∀ j < 16, hasMemory (pa + j) = true) → (∀ j < 4, hasMemory (pb + j) = true) → pa + 16 ≤ pb ∨ pb + 4 ≤ pa →
                  goes fun t v => moved per v ∧ (t.cores[c]).granary = k.granary ∧ v.flags = w.flags ||| q.2.2 ∧
                    (∀ i, ¬ (pa ≤ i ∧ i < pa + 16) → ¬ (pb ≤ i ∧ i < pb + 4) → s.sameByte t i) ∧
                    (s.memoryWf = true → s.barnWf = true →
                      (∀ i < 32, elems 4 ((List.range 16).map fun j => t.devByte (pa + j)) i = q.1.getD i 0 % 16) ∧
                      ∀ j < 4, t.devByte (pb + j) = q.2.1.extractLsb' (8 * j) 8)))))) ∧
      (w.op = .decode → f < 5 → a % 16 = 0 → (k.tile (a / 24576)).owner = 4 →
        let va := w.va + w.item * n * h.width / 8
        access va (n * h.width / 8) 1 .read ∧
        ∀ ps, s.resolve d x.partId x.extents va (n * h.width / 8) .read = .pieces ps →
          (sameFormat (f, geom) ps = false → fails 4 1) ∧
          (sameFormat (f, geom) ps = true → s.readPieces ps = none → fails 2 1) ∧
          (∀ bs, sameFormat (f, geom) ps = true → s.readPieces ps = some bs →
            let r := roundStream g mode w.res ((List.range n).map fun i => valueOf h (elems h.width bs i))
            goes fun t v => moved 1 v ∧ (∀ i, s.sameByte t i) ∧
              v.res = (if (w.item + 1) % w.rlen = 0 then none else r.2) ∧ v.flags = r.1.foldl (fun f y => f ||| y.2) w.flags ∧
              (Memory.wf k.granary = true → (∀ i < n, elems g.width (readCells (t.cores[c]).granary a 16) i = (r.1.getD i (0, 0)).1 % 2 ^ g.width) ∧
                ∀ i, (i < a ∨ a + 16 ≤ i) → readCell (t.cores[c]).granary i = readCell k.granary i))) ∧
      (w.op = .encode → f < 5 → (¬ readable a → fails 1 1) ∧
        (readable a → let va := w.va + w.item * n * h.width / 8
          let r := roundStream h mode w.res ((List.range n).map fun i => valueOf g (elems g.width (word16 a) i))
          access va (n * h.width / 8) 1 .write ∧
          ∀ pa leaf, s.resolve d x.partId x.extents va (n * h.width / 8) .write = .pieces [(pa, n * h.width / 8, leaf)] →
            let ps := [(pa, n * h.width / 8, leaf)]
            (sameFormat (f, geom) ps = false ∨ gateOf ps ≠ none → fails 4 1) ∧
            (sameFormat (f, geom) ps = true → gateOf ps = none → s.memBad pa (n * h.width / 8) = true → fails 2 1) ∧
            (sameFormat (f, geom) ps = true → gateOf ps = none → s.memBad pa (n * h.width / 8) = false →
              (∀ j < n * h.width / 8, hasMemory (pa + j) = true) → goes fun t v => moved 1 v ∧ (t.cores[c]).granary = k.granary ∧
                (∀ i, i < pa ∨ pa + n * h.width / 8 ≤ i → s.sameByte t i) ∧
                v.flags = (if f = w.gfmt then w.flags else r.1.foldl (fun f y => f ||| y.2) w.flags) ∧
                (s.memoryWf = true → s.barnWf = true → ∀ i < n, elems h.width (t.devRead pa (n * h.width / 8)) i =
                  if f = w.gfmt then elems g.width (word16 a) i else (r.1.getD i (0, 0)).1 % 2 ^ h.width))))))

/-- R379, R380: the oldest push of a die enters that die's gate queue, whole and behind what is there, once its words fit into the
8,192 of the queue; the Wain command that made it is then done; until then it waits. R379, R380, R383–R390: the Thresher pops the gate
queue in order, between two arm requests. An entry of a later epoch starts the layer afresh. A token entry whose records fit leaves
one record a rank, whatever k is: for a hash layer the expert of the override, or of CRC-32C over the token and layer, with weight
1.0; for a top-k layer the largest logits in descending order, ties to the lower expert, with their weights (R385), and records
without an expert for the ranks that are missing. An expert's slots are given in order up to the layer's capacity, and the token is
dropped at an expert that is full. A token of an epoch that is over, or that came after its seal, leaves records without an
expert, with the flags that say so; a seal of such an epoch is counted. The seal of the current epoch writes the count block and the
seal record, asks for an arm of every expert with tokens where the layer says so, and lowers SEAL; a request for another module leaves
as a Thresher message (R391; its bytes are log entry 20, the model's choice), or has failed where there is no way. A full ring keeps the
entry and every one behind it; so does a ring out of the die's reach (log entry 89, the model's choice). -/
def Obligations.GateQueue : Prop :=
  (∀ (s : State) (c : Fin 256) (b : Bool) (d : Fin 2) (x : Context) (w : WCmd) (ws : List WCmd) (p : Push) (ps : List Push), s.pkg.frz = 0 →
     (s.cores[c]).ctx? b = some x → x.wain = w :: ws → w.push = true → p.core = c → p.bank = b → (s.thresher d).pushes = p :: ps →
     (∀ e q qs, e ≠ d → (s.thresher e).pushes = q :: qs → ¬ (q.core = c ∧ q.bank = b)) →
     let th := s.thresher d
     let size := (p.entries.map GateEntry.words).sum
     (th.occupancy + size ≤ 8192 → ∃ t, exec (.gatePushEnter c b) s = .next t ∧
       t.thresher d = { th with pushes := ps, gq := th.gq ++ p.entries } ∧ (∀ e, e ≠ d → t.thresher e = s.thresher e) ∧
       (t.cores[c]).ctx? b = some { x with wain := { w with push := false, done := true } :: ws } ∧ t.mem = s.mem) ∧
     (8192 < th.occupancy + size → exec (.gatePushEnter c b) s = .next s)) ∧
  (∀ (s : State) (d : Fin 2) (e : GateEntry) (es : List GateEntry) (l0 : Layer), s.pkg.frz = 0 → (s.thresher d).arm = none →
     (s.thresher d).gq = e :: es → layerOf (s.thresher d).layers e.layer = some l0 →
     let late := 2 ^ 15 ≤ (e.epoch - l0.cur).toNat
     let spent : Prop := late ∨ (e.epoch = l0.cur ∧ l0.closed = true)
     let none_ {α : Type} (v : α) : List α := List.replicate l0.nexp v
     let l : Layer := if e.epoch = l0.cur then l0 else
       { l0 with cur := e.epoch, closed := false, recs := 0, cnt := none_ 0, hist := none_ 0, ovf := none_ false, hovf := none_ false }
     let u := s.touch l0.ring 16
     let out := u.updThresher d fun t => { t with gq := es }
     let becomes (t : State) (v : Layer) : Prop := (t.thresher d).gq = es ∧ t.cores = s.cores ∧ layerOf (t.thresher d).layers e.layer = some v
     (s.severed d l0.ring 16 = true → ¬ (spent ∧ e.isSeal = true) → exec (.gateEntryPop d) s = .next s) ∧
     (spent → e.isSeal = true → exec (.gateEntryPop d) s = .next (s.updThresher d fun t => { t with gq := es, disc := t.disc + 1 })) ∧
     (s.severed d l0.ring 16 = false →
     (spent → e.isSeal = false →
       (u.ringFits l0 l0.k = false → exec (.gateEntryPop d) s = .next u) ∧
       (u.ringFits l0 l0.k = true → exec (.gateEntryPop d) s = .next
         (out.writeRecords l0 ((List.range l0.k).map fun r => recordBytes e.token.toNat 0xFFFF 0xFFFF 0 r (if late then 0x09 else 0x11) e.epoch)))) ∧
     (¬ spent → e.isSeal = false → u.ringFits l0 l0.k = false → exec (.gateEntryPop d) s = .next u) ∧
     (¬ spent → e.isSeal = true → u.ringFits l0 1 = false → exec (.gateEntryPop d) s = .next u) ∧
     (¬ spent → e.isSeal = false → l0.mode = 2 → u.ringFits l0 l0.k = true →
       let named := (s.thresher d).overrides.find? fun o => o.token == e.token && o.layer == l0.index
       let x := match named with | some o => o.expert | none => (crc32c l0.seed (leBytes 4 e.token.toNat ++ [byte l0.index, 0])).toNat % l0.nexp
       let p := l.placeRank x
       let flags := (if named = none then 2 else 6) + if p.2 = none then 1 else 0
       ∃ t, exec (.gateEntryPop d) s = .next t ∧ becomes t { p.1 with recs := l.recs + 1 } ∧
         t.mem = (u.writeRecords l [recordBytes e.token.toNat (l0.route0 + x) (p.2.getD 0xFFFF) 0x3F800000 0 flags e.epoch]).mem) ∧
     (¬ spent → e.isSeal = false → l0.mode = 1 → u.ringFits l0 l0.k = true →
       let logit (x : Nat) : FVal := valueOf .f32 ((e.logits.take l0.nexp).getD x 0).toNat
       let numbers (x : Nat) : Prop := x < l0.nexp ∧ x < e.logits.length ∧ (logit x).isNan = false
       let before (x y : Nat) : Prop := (logit y).flt (logit x) = true ∨ ((logit x).flt (logit y) = false ∧ x < y)
       ∃ (t : State) (v : Layer) (xs : List Nat) (recs : List (List Byte)), exec (.gateEntryPop d) s = .next t ∧ becomes t v ∧
         v = { l with recs := l.recs + l0.k, cnt := v.cnt, hist := v.hist, ovf := v.ovf, hovf := v.hovf } ∧
         (l.cnt.length = l.nexp → l.hist.length = l.nexp → l.ovf.length = l.nexp → l.hovf.length = l.nexp → ∀ x < l.nexp,
           let c := l.cnt.getD x 0
           let h := l.hist.getD x 0
           v.cnt.getD x 0 = (if x ∈ xs ∧ c < l.cap then c + 1 else c) ∧
           v.hist.getD x 0 = (if x ∈ xs then min (h + 1) (2 ^ 32 - 1) else h) ∧
           (v.ovf.getD x false = true ↔ l.ovf.getD x false = true ∨ (x ∈ xs ∧ c < l.cap ∧ c + 1 = l.cap)) ∧
           (v.hovf.getD x false = true ↔ l.hovf.getD x false = true ∨ (x ∈ xs ∧ h = 2 ^ 32 - 1))) ∧
         t.mem = (u.writeRecords l recs).mem ∧ recs.length = l0.k ∧ xs.length ≤ l0.k ∧ xs.Nodup ∧ (∀ x ∈ xs, numbers x) ∧
         (xs.length < l0.k → ∀ x, numbers x → x ∈ xs) ∧ (∀ i j (hi : i < j) (hj : j < xs.length), before (xs[i]'(by omega)) xs[j]) ∧
         (∀ x y, x ∈ xs → numbers y → y ∉ xs → before x y) ∧
         (∀ r (h : r < xs.length), let x := xs[r]
           recs[r]? = some (recordBytes e.token.toNat (l0.route0 + x) (if l.cnt.getD x 0 < l.cap then l.cnt.getD x 0 else 0xFFFF)
             (chosenWeight (xs.map logit) (logit x)) r (if l.cnt.getD x 0 < l.cap then 0 else 1) e.epoch)) ∧
         (∀ r, xs.length ≤ r → r < l0.k → recs[r]? = some (recordBytes e.token.toNat 0xFFFF 0xFFFF 0 r 1 e.epoch))) ∧
     (¬ spent → e.isSeal = true → u.ringFits l0 1 = true →
       let used := if l.arm then (List.range l.nexp).filter fun x => l.cnt.getD x 0 != 0 else []
       let block := (List.range l.nexp).flatMap fun x => leBytes 2 (l.cnt.getD x 0) ++
         leBytes 2 ((if l.ovf.getD x false then 1 else 0) + if l.hovf.getD x false then 2 else 0) ++ leBytes 4 (l.hist.getD x 0)
       let s1 := (u.devWrite l.cblk block).writeRecords l [recordBytes (l.recs % 2 ^ 32) 0xFFFF 0 used.length 0 0x80 e.epoch]
       let s2 := if l.arm then s1.devWrite l.sealAddr (leBytes 8 (s1.devNat l.sealAddr 8 + used.length)) else s1
       let dest (x : Nat) : Word := (s.dies[d]).destOf (l.route0 + x)
       (∀ x, used = [x] → destPeer (dest x) ≠ (s.dies[d]).self → ∃ t, exec (.gateEntryPop d) s = .next t ∧ becomes t { l with closed := true } ∧
         let m := threshMessage (s.dies[d]).self (destPeer (dest x)) d (if (dest x).getLsbD 51 then 1 else 0) (l.route0 + x) (l.cnt.getD x 0) 0 l.sealAddr
         m.1.type = 0x20 ∧ m.2 = leBytes 2 (l.route0 + x) ++ leBytes 2 (l.cnt.getD x 0) ++ leBytes 4 0 ++ leBytes 8 l.sealAddr ∧
         (∀ n : Fin 2, (t.thresher n).arms = (s.thresher n).arms) ∧
         (∀ p, s.hop d m.1 = .port p → t.mem = (s2.signalDec l.sealAddr 1).mem ∧ (t.thresher d).armfail = (s.thresher d).armfail ∧
           t.pkg.egress = s.pkg.egress ++ [⟨p, 0, false, s.secondChannel d m.1 p, fabricPacket m.1 m.2, false, false⟩]) ∧
         (s.hop d m.1 = .none → t.mem = ((s2.decrement d l.sealAddr 1).signalDec l.sealAddr 1).mem ∧
           (t.thresher d).armfail = (s.thresher d).armfail + 1 ∧ t.pkg.egress = s.pkg.egress)) ∧
       ((∀ x ∈ used, destPeer (dest x) = (s.dies[d]).self) → ∃ t, exec (.gateEntryPop d) s = .next t ∧ becomes t { l with closed := true } ∧
         t.mem = (s2.signalDec l.sealAddr 1).mem ∧ ∀ n : Fin 2, (t.thresher n).arms = (s.thresher n).arms ++
           ((used.filter fun x => (dest x).getLsbD 51 == (n.val == 1)).map fun x =>
             ⟨l.route0 + x, l.cnt.getD x 0, l.sealAddr, (s.dies[d]).self, d, (s.thresher n).tctail⟩))))) ∧
  (∀ (l : Layer) (x : Nat), x < l.nexp → l.cnt.length = l.nexp → l.hist.length = l.nexp →
     let p := l.placeRank x
     (l.cnt.getD x 0 < l.cap → p.2 = some (l.cnt.getD x 0) ∧ p.1.cnt = l.cnt.set x (l.cnt.getD x 0 + 1)) ∧
     (l.cap ≤ l.cnt.getD x 0 → p.2 = none ∧ p.1.cnt = l.cnt) ∧
     (l.hist.getD x 0 < 2 ^ 32 - 1 → p.1.hist = l.hist.set x (l.hist.getD x 0 + 1)))

/-! ### Fabric items, the target agent and the Sieve (spec/10, spec/17) -/

/-- R395, R434, R437, R439, R440, R443, R446–R449, R451–R453, R455 (log entries 38, 41, 42, 43, 44,
48, 64 and 69 for what the rules leave open): the next item of a command of a task that is not
cancelled goes when the order rules allow. One whose page is of this module's memory is
performed at once: a load reads, a store writes, a flush, a decrement or an atomic has its
effect, and one out of reach fails with ECODE 2, one that a gate window does not take with 4.
One whose page leads through an aperture goes to that peer under the next TXID and is in flight:
on its circuit's ports, or on its best-effort port, or to this die's own target agent; with no
way left it fails with 6. An expert send goes to the peer of its entry and is over, one without
an entry fails with 3. An item whose page faults is held and the fault service asked; one that
no page may have fails with 3, one whose tables cannot be read with 2. A command whose items are
over completes: it leaves the queue, a load's bytes lie in the granary, its scalar register or
the peer-failure set of a fence is written, the old value of an atomic, extended by its sign for
i32, reaches its scalar register, its tiles go back where RET says so, its failed items' peers
enter PFS, and its token posts with the ECODE of its first failed item. R449: an atomic on
memory answers the old value and leaves the new one, that of a float addition the rounded sum
with its flags; one on a page of another format is refused with 4. R447, R454: what a peer answers reaches the
item in flight that its TXID and SPEER name, in whatever bank: a response with STATUS 0 finishes
it with the data, any other STATUS fails it with that ECODE; a failure notice fails it with 5; a
hold notice starts its 1 ms again; and when 1 ms has passed without either it fails with 6. An
answer that names no item is discarded. -/
def Obligations.FabricItemsAndAnswers : Prop :=
  (∀ (s : State) (c : Fin 256) (b : Bool) (x : Context) (n : Nat) (f : FCmd) (i : FItem), s.pkg.frz = 0 →
     let k := s.cores[c]
     let d := coreDie c
     let self := (s.dies[d]).self
     k.ctx? b = some x → x.fabric[n]? = some f →
     (x.canSend n = true → k.cancelled b = false → f.items.find? FItem.waits = some i →
       let now (len : Nat) (st : ItemState) (tx : Nat) (peer : Option (BitVec 12)) (bs : List Byte) (fl : Flags) : Context :=
         { x with fabric := x.fabric.set n { f with items := cutItem len st tx peer bs f.items, flags := f.flags ||| fl } }
       let outcome (t : State) (y : Context) : Prop := exec (.fabricItemSend c b n) s = .next t ∧ (t.cores[c]).ctx? b = some y ∧
         ∀ e, e ≠ c → t.cores[e] = s.cores[e]
       let leaves (len : Nat) (peer : BitVec 12) (target : Nat) (st : ItemState) : Prop :=
         let h := f.packetHead self peer (clusterOf c) x.partId (s.nextTx d) target len
         let bs := fabricPacket h (f.itemData i.off len)
         let ports := if f.circ then s.circuitPorts 0x40 0 h.part h.circid else []
         let after (st : ItemState) : Context := now len st (s.nextTx d) (some peer) [] 0
         let missed : Nat := (s.dies[d]).circmiss + if f.circ = true ∧ ports = [] then 1 else 0
         let sent (out : List Nat) : Prop := ∃ t, outcome t (after st) ∧ (t.dies[d]).tx = (s.dies[d]).tx + 1 ∧ t.mem = s.mem ∧
           (t.dies[d]).circmiss = missed ∧
           t.pkg.egress = s.pkg.egress ++ out.map fun p => ⟨p, BitVec.ofNat 8 h.cls, false, s.secondChannel d h p, bs, false, false⟩
         (peer ≠ self → (ports ≠ [] → sent ports) ∧
           (ports = [] → (∀ p, s.hop d h = .port p → sent [p]) ∧
             (s.hop d h = .none → ∃ t, outcome t (after (.failed 6)) ∧ (t.dies[d]).circmiss = missed ∧ t.pkg.egress = s.pkg.egress ∧ t.mem = s.mem))) ∧
         (peer = self → f.kind ≠ 2 → ∃ t, outcome t (after st) ∧ (t.dies[d]).target = (s.dies[d]).target ++ [requestOf bs] ∧
           (t.dies[d]).tx = (s.dies[d]).tx + 1 ∧ t.mem = s.mem) ∧
         (peer = self → f.kind = 2 → ∃ u : State, exec (.fabricItemSend c b n) s = .next (u.arriveFabric (clusterOf c) 0x40 bs) ∧
           (u.cores[c]).ctx? b = some (after st) ∧ (u.dies[d]).tx = (s.dies[d]).tx + 1 ∧ u.clusters = s.clusters ∧ u.pkg = s.pkg ∧ u.mem = s.mem)
       (f.kind = 2 → (∀ p, i.peer = some p → leaves i.len p 0 .done) ∧
         (i.peer = none → ∃ t, outcome t (now i.len (.failed 3) 0 none [] 0) ∧ t.mem = s.mem ∧ t.dies = s.dies)) ∧
       (f.kind ≠ 2 →
         let va := f.va + i.off
         let a := s.aim d x f.access va i.len
         (∀ pa leaf, a.2 = .home pa leaf →
           let u := s.cachePages d x.partId va a.1
           let ps := [(pa, a.1, leaf)]
           let does (t : State) (st : ItemState) (bs : List Byte) (fl : Flags) : Prop :=
             exec (.fabricItemSend c b n) s = .next (t.settleItem c b n a.1 st 0 none bs fl)
           (s.severed d pa a.1 = true → does u (.failed 2) [] 0) ∧
           (s.severed d pa a.1 = false →
             (f.op = .ld → (∀ bs, u.readPieces ps = some bs → does (u.fillPieces ps) .done bs 0) ∧ (u.readPieces ps = none → does u (.failed 2) [] 0)) ∧
             (f.op = .flush → (s.memBad pa a.1 = true → does u (.failed 2) [] 0) ∧ (s.memBad pa a.1 = false → does (u.flushPieces ps) .done [] 0)) ∧
             (f.op = .st ∨ f.op = .sdec ∨ f.op.atomic = true → (gateOf ps).isSome = true → does u (.failed 4) [] 0) ∧
             (gateOf ps = none →
               (f.op = .st → (s.memBad pa a.1 = true → does u (.failed 2) [] 0) ∧
                 (s.memBad pa a.1 = false → does (u.writePieces ps (((f.data.getD []).drop i.off).take a.1)) .done [] 0)) ∧
               (f.op = .sdec → (s.memBad pa 8 = true → does u (.failed 2) [] 0) ∧ (s.memBad pa 8 = false → does (u.signalDec pa f.fs[4]) .done [] 0)) ∧
               (f.op.atomic = true → let r := u.performAtomic pa leaf ⟨0x12, [], f.atop, f.ty, f.rmode, f.fs[4], f.fs[5]⟩
                 does r.1 (if r.2.status = 0 then .done else .failed r.2.status) r.2.data r.2.flags)))) ∧
         (∀ peer target, a.2 = .away peer target → leaves a.1 peer target (.sent s.now)) ∧
         (∀ cause peer, a.2 = .held cause peer → ∃ t, outcome t (now a.1 (.held ⟨va, BitVec.ofNat 2 (f.access.kind - 1)⟩) 0 peer [] 0) ∧
           t.dies = (s.postFault d x.partId va f.access cause).dies) ∧
         (∀ peer, a.2 = .fail peer → ∃ t, outcome t (now a.1 (.failed 3) 0 peer [] 0) ∧ t.mem = s.mem ∧ t.dies = s.dies) ∧
         (a.2 = .lost → ∃ t, outcome t (now a.1 (.failed 2) 0 none [] 0) ∧ t.mem = s.mem ∧ t.dies = s.dies))) ∧
     (x.canFinish self n = true → k.awake f.loadTiles = true → (f.loadTiles = [] → f.issue < k.bc) → (f.loadTiles ≠ [] → f.issue + 2 ≤ k.bc) →
       k.badWords = [] →
       let owned (q : Host.Cell) : Bool := (k.tile (tileOf q.1)).owner == 6 && (k.tile (tileOf q.1)).giver == b
       ∃ t y, exec (.fabricCommandComplete c b n) s = .next t ∧ t.mem = s.mem ∧ (t.cores[c]).ctx? b = some y ∧
         y.fabric = x.fabric.eraseIdx n ∧ y.fflags = x.fflags ||| f.flags ∧
         y.k = x.k.set f.token.toFin (x.k[f.token.toFin].post
           (if f.ecode = 0 ∧ ∃ q ∈ f.granaryCells, owned q = false then 1 else f.ecode)) ∧
         (t.cores[c]).granary = writeCells k.granary (f.granaryCells.filter owned) ∧
         (∀ j : Fin 64, ((t.cores[c]).tiles[j]).owner = if f.ret = true ∧ j.val ∈ f.loadTiles then bankOwner b else (k.tiles[j]).owner) ∧
         (¬ (f.op = .fence ∧ f.enabled = true) → ∀ p : BitVec 12, y.pfs.getLsbD p.toNat = true ↔ x.pfs.getLsbD p.toNat = true ∨
           ∃ i ∈ f.items, i.peer = some p ∧ ((∃ e, i.state = .failed e) ∨ ∃ q ∈ f.granaryCells, owned q = false)) ∧
         (f.op = .fence → f.enabled = true → y.pfs = 0 ∧ y.v = x.v.set f.reg.toFin ⟨x.pfs, 0⟩ ∧ y.s = x.s) ∧
         (∀ i, f.op = .ld → f.enabled = true → f.rdest = 1 → f.sreg ≠ 0 → f.ty = 0 → f.items = [i] → i.state = .done →
           y.s = x.s.set f.sreg.toFin ⟨word (leNat (i.data.take 8)), 0⟩) ∧
         (∀ i, f.op.atomic = true → f.enabled = true → f.rdest = 1 → f.sreg ≠ 0 → f.items = [i] →
           (i.state = .done → let v : Nat := leNat (i.data.take (atomicSize f.ty))
             y.s = x.s.set f.sreg.toFin ⟨BitVec.ofInt 64 (if f.ty = 11 ∧ 2 ^ 31 ≤ v then (v : Int) - 2 ^ 32 else v), 0⟩) ∧
           ((∃ e, i.state = .failed e) → y.s = x.s)) ∧
         (f.register = none → y.s = x.s ∧ y.v = x.v))) ∧
  (∀ (s : State) (pa : Nat) (leaf : Word) (p : Perform), p.atop = 0 → p.atype = 0 →
     let fmt := (Leaf.ofWord leaf).fmt
     let old := s.devNat pa 4
     let sum := (valueOf .f32 old).add (valueOf .f32 (p.opnd.toNat % 2 ^ 32))
     let y := final .f32 ((RMode.ofBits p.mode).getD .rne).single sum.1
     (fmt ≠ 0 → fmt ≠ 31 → s.performAtomic pa leaf p = (s, ⟨4, 0, []⟩)) ∧
     (fmt = 0 ∨ fmt = 31 → (s.memBad pa 4 = true → s.performAtomic pa leaf p = (s, ⟨2, 0, []⟩)) ∧
       (s.memBad pa 4 = false → pa % 4 = 0 → s.memoryWf = true → s.barnWf = true → (∀ j < 4, hasMemory (pa + j) = true) →
         (s.performAtomic pa leaf p).2 = ⟨0, sum.2 ||| y.2, leBytes 4 old⟩ ∧ (s.performAtomic pa leaf p).1.devNat pa 4 = y.1 % 2 ^ 32))) ∧
  (∀ (s : State) (pa : Nat) (leaf : Word) (p : Perform), atomicKnown p.atop p.atype = true → p.atype ≠ 0 →
     let z := atomicSize p.atype
     (s.memBad pa z = true → s.performAtomic pa leaf p = (s, ⟨2, 0, []⟩)) ∧
     (s.memBad pa z = false → pa % z = 0 → s.memoryWf = true → s.barnWf = true → (∀ j < z, hasMemory (pa + j) = true) →
       let old := s.devNat pa z
       let o := p.opnd.toNat % 2 ^ (8 * z)
       let less : Prop := if unifiedSigned p.atype = true then toSigned (8 * z) o < toSigned (8 * z) old else o < old
       let r := s.performAtomic pa leaf p
       r.2 = ⟨0, 0, leBytes z old⟩ ∧
       (p.atop = 0 → r.1.devNat pa z = (old + o) % 2 ^ (8 * z)) ∧
       (p.atop = 1 → (less → r.1.devNat pa z = o) ∧ (¬ less → r.1.devNat pa z = old)) ∧
       (p.atop = 2 → (less → r.1.devNat pa z = old) ∧ (¬ less → r.1.devNat pa z = o)) ∧
       (p.atop = 3 → r.1.devNat pa z = o) ∧
       (p.atop = 4 → r.1.devNat pa z = if old = p.cmpv.toNat % 2 ^ (8 * z) then o else old) ∧
       (p.atop = 5 → r.1.devNat pa z = old &&& o) ∧ (p.atop = 6 → r.1.devNat pa z = old ||| o))) ∧
  (∀ (s : State) (peer : BitVec 12) (tag : BitVec 32) (status : BitVec 8) (flags : BitVec 5) (data : List Byte), s.pkg.frz = 0 →
     let names (i : FItem) : Bool := i.inFlight && i.tx == tag.toNat && i.peer == some peer
     (s.itemBank peer tag.toNat = none →
       exec (.fabricResponse peer tag status flags data) s = .next s ∧ exec (.failureNotice peer tag) s = .next s ∧
       exec (.holdNotice peer tag) s = .next s ∧ exec (.fabricTimeout peer tag) s = .next s) ∧
     (∀ c b x, s.itemBank peer tag.toNat = some (c, b) → (s.cores[c]).ctx? b = some x →
       let after (st : ItemState) (bs : List Byte) (fl : Flags) : Context :=
         { x with fabric := x.fabric.map fun f => if f.items.any names then
             { f with items := f.items.map (fun i => if names i then { i with state := st, data := bs } else i), flags := f.flags ||| fl } else f }
       let gives (e : Instr) (y : Context) : Prop :=
         ∃ t, exec e s = .next t ∧ (t.cores[c]).ctx? b = some y ∧ t.mem = s.mem ∧ t.dies = s.dies ∧ ∀ d : Fin 256, d ≠ c → t.cores[d] = s.cores[d]
       (status = 0 → gives (.fabricResponse peer tag status flags data) (after .done data flags)) ∧
       (status ≠ 0 → gives (.fabricResponse peer tag status flags data) (after (.failed (status.setWidth 4)) [] 0)) ∧
       gives (.failureNotice peer tag) (after (.failed 5) [] 0) ∧ gives (.holdNotice peer tag) (after (.sent s.now) [] 0) ∧
       (∀ since, s.itemSince peer tag.toNat = some since →
         (2700000 ≤ s.now - since → since ≤ s.now → gives (.fabricTimeout peer tag) (after (.failed 6) [] 0)) ∧
         (s.now < since + 2700000 → exec (.fabricTimeout peer tag) s = .next s))))

/-- R431, R433, R441, R442, R449, R451, R452, R455 (log entries 16, 17, 41, 43 and 44 for what the
rules leave open): the target agent of a die turns away with STATUS 3 what its windows do not
grant and what the fault service has refused; a request whose page faults is held and the fault
service asked; a granted store writes its bytes at the window's address, a load reads there, a
flush writes back, and a decrement or an atomic has its effect, each answered under its TXID:
with STATUS 0, with 2 where memory is in error, with 4 where a gate window does not take it or
no packet can carry it. An answer goes to the die and cluster that asked, in the virtual channel
class of responses, on its best-effort port; where that is this module, its own source agent has
it at once. After a failed boot the agent does nothing (R415, log entry 63). A held request is announced by a hold notice to its source. -/
def Obligations.TargetAgent : Prop :=
  (∀ (s : State) (d : Fin 2) (n : Nat) (r : TReq), s.pkg.frz = 0 → (s.dies[d]).target[n]? = some r →
    (s.pkg.halted = true → exec (.targetRequest d n) s = .next s) ∧ (s.pkg.halted = false →
    let gone (u : State) : State := u.updDie d fun x => { x with target := x.target.eraseIdx n }
    let ends (u : State) (status : Nat) (fl : Flags) (bs : List Byte) : Prop :=
      exec (.targetRequest d n) s = .next ((gone u).reply d r.head 0x18 status fl bs)
    (r.refused = true → ends s 3 0 []) ∧
    (r.refused = false → r.held ≠ none ∨ (∃ e ∈ (s.dies[d]).target.take n, r.follows e = true) → exec (.targetRequest d n) s = .next s) ∧
    (r.refused = false → r.held = none → (∀ e ∈ (s.dies[d]).target.take n, r.follows e = false) →
      (4092 < r.bytes → ends s 4 0 []) ∧
      (r.bytes ≤ 4092 → (s.dies[d]).window? r = none → ends s 3 0 []) ∧
      (∀ va, r.bytes ≤ 4092 → (s.dies[d]).window? r = some va →
        let reach := s.resolve d r.part [] va r.bytes r.access
        (∀ e, reach = .fail e → ends s (if e = 2 then 2 else 3) 0 []) ∧
        (∀ a cause, reach = .held a cause → ∃ t, exec (.targetRequest d n) s = .next t ∧
          (t.dies[d]).target[n]? = some { r with held := some ⟨a, BitVec.ofNat 2 (r.access.kind - 1)⟩ } ∧ t.cores = s.cores ∧
          (t.dies[d]).faults = ((s.postFault d r.part a r.access cause).dies[d]).faults) ∧
        (∀ ps, reach = .pieces ps → (∀ p ∈ ps, s.unlinked p.1 = false) →
          let u := s.cachePages d r.part va r.bytes
          (r.kind = 0x10 → (∀ bs, s.readPieces ps = some bs → ends (u.fillPieces ps) 0 0 bs) ∧ (s.readPieces ps = none → ends u 2 0 [])) ∧
          (r.kind = 0x13 → ((∃ p ∈ ps, s.memBad p.1 p.2.1 = true) → ends u 2 0 []) ∧
            ((∀ p ∈ ps, s.memBad p.1 p.2.1 = false) → ends (u.flushPieces ps) 0 0 [])) ∧
          (r.kind ≠ 0x10 → r.kind ≠ 0x13 → gateOf ps ≠ none → ends u 4 0 []) ∧
          (gateOf ps = none →
            (r.kind = 0x11 → ((∃ p ∈ ps, s.memBad p.1 p.2.1 = true) → ends u 2 0 []) ∧
              ((∀ p ∈ ps, s.memBad p.1 p.2.1 = false) → ends (u.writePieces ps r.data) 0 0 [])) ∧
            (∀ pa len leaf rest, ps = (pa, len, leaf) :: rest →
              (r.kind = 0x14 → (s.memBad pa 8 = true → ends u 2 0 []) ∧ (s.memBad pa 8 = false → ends (u.signalDec pa r.opnd) 0 0 [])) ∧
              (r.kind = 0x12 → let a := u.performAtomic pa leaf ⟨0x12, r.data, r.atop, BitVec.ofNat 5 r.atype, r.mode.setWidth 3, r.opnd, r.cmpv⟩
                ends a.1 a.2.status.toNat a.2.flags a.2.data)))))))) ∧
  (∀ (s : State) (d : Fin 2) (r : TReq) (type status : Nat) (fl : Flags) (bs : List Byte), type = 0x18 ∨ type = 0x1A →
    let self := (s.dies[d]).self
    let m : FHead := { dpeer := r.speer.toNat, dloc := r.sloc.toNat, type := type, speer := self.toNat, sloc := r.dloc.toNat, part := r.part.toNat, cong := 0, cls := r.cls.toNat, circ := false, circid := 0, xtag := 0, tx := r.tx, atop := 0, atype := 0, mode := fl.toNat, status := status, target := r.target.toNat, opnd := 0, cmpv := 0 }
    let t := s.reply d r.head type status fl bs
    (r.speer ≠ self → (∀ p, s.hop d m = .port p → t = s.emit ⟨p, r.cls, true, s.secondChannel d m p, fabricPacket m bs, false, false⟩) ∧
      (s.hop d m = .none → t = s)) ∧
    (r.speer = self → (type = 0x18 → t = s.response self r.tx (BitVec.ofNat 8 status) fl bs) ∧ (type = 0x1A → t = s.answer self r.tx (.sent s.now) [] 0))) ∧
  (∀ (s : State) (d : Fin 2), s.pkg.frz = 0 →
    exec (.holdNoticeSend d) s = .next (((s.dies[d]).target.filter fun r => r.held.isSome && !r.refused).foldl (fun u r => u.reply d r.head 0x1A 0 0 []) s))

/-! ### The Sieve (spec/10, spec/11) -/

/-- R265, R266, R276, R377, R394 (log entry 31 for the order of the ends, log entry 30 for the payload
primitives in a system header, which end as BADACT): the primitives that act
at the header, where a header's program runs and the module is not frozen. A field takes its
value big-endian, its read-only bytes apart; a register cell or counter pair is the one that the
instruction's index names in the partition's region, and a region of size 0 counts a violation;
marks, the egress port, drops and a model-routing entry's destination are set as the rules say.
Nothing else of the header changes. R275, R278: the primitives that defer: with fewer than eight
effects deferred, the effect joins the list and the disposition bits are set; a ninth drops the
packet, keeps none of its effects and counts BADACT; a payload that does not fit the tile, or is
no whole number of words for `act.cribadd`, drops it and counts a violation; `act.memop` in a
tenant header is undefined, with the same end as a ninth effect. -/
def Obligations.SievePrimitives : Prop :=
  ((∀ (hv : List Byte) (o n v j : Nat), hv.length = 128 → o + n ≤ 128 → j < 128 →
     (hvSet hv o n v).getD j 0 =
       if o ≤ j ∧ j < o + n ∧ (j < 112 ∨ j = 113 ∨ (118 ≤ j ∧ j ≤ 123)) then byte (v / 256 ^ (o + n - 1 - j)) else hv.getD j 0) ∧
   ∀ (s : State) (p : Packet) (l d x wb peer : Bool) (doff soff : BitVec 7) (dw sw : BitVec 2) (imm fmask : BitVec 32)
     (base : BitVec 13) (rbase : BitVec 16) (bits code : BitVec 8) (port : BitVec 6),
     s.pkg.frz = 0 → s.header? = some p →
     let cl := s.prog.cluster
     let gives (i : Instr) (q : Packet) : Prop := exec i s = .next (s.modHeader fun _ => q)
     let field (o : BitVec 7) (w : BitVec 2) : Nat := hvGet p.hv o.toNat (2 ^ w.toNat)
     let set (v : Nat) : Packet := { p with hv := hvSet p.hv doff.toNat (2 ^ dw.toNat) v }
     let owner : BitVec 4 := if p.sys then 0 else p.part
     let region := (s.progStage p).region owner
     let n := base.toNat + if x then field soff sw else 0
     exec (.actNop l) s = .next s ∧
     gives (.actSet l doff dw d imm) (set (if d then s.prog.adata.toNat else imm.toNat)) ∧
     gives (.actCopy l doff dw soff sw) (set (field soff sw)) ∧
     gives (.actAdd l doff dw d imm) (set (field doff dw + (if d then s.prog.adata else imm.signExtend 64).toNat)) ∧
     gives (.actHash l doff dw fmask) (set (crc32c region.seed (p.maskedFields fmask)).toNat) ∧
     (region.cells = 0 → exec (.actRegAdd l doff dw soff sw d x wb base) s = .next (s.viol cl 0x05 s.prog.stage.val p) ∧
       exec (.actRegMax l doff dw soff sw d x wb base) s = .next (s.viol cl 0x06 s.prog.stage.val p)) ∧
     (region.cells ≠ 0 →
       let old := (s.progStage p).cell owner (n % region.cells)
       let op := if d then s.prog.adata else word (field doff dw)
       let ends (i : Instr) (v : Word) : Prop := ∃ t, exec i s = .next t ∧ (t.progStage p).cell owner (n % region.cells) = v ∧
         (∀ q m, (q, m) ≠ (owner, n % region.cells) → (t.progStage p).cell q m = (s.progStage p).cell q m) ∧
         (t.progStage p).pairs = (s.progStage p).pairs ∧
         t.header? = some (if wb then set v.toNat else p) ∧ t.cores = s.cores ∧ t.mem = s.mem
       ends (.actRegAdd l doff dw soff sw d x wb base) (old + op) ∧
       ends (.actRegMax l doff dw soff sw d x wb base) (if old.toNat < op.toNat then op else old)) ∧
     (region.pairs = 0 → exec (.actCount l soff sw x base) s = .next (s.viol cl 0x07 s.prog.stage.val p)) ∧
     (region.pairs ≠ 0 →
       let pair (u : State) (q : BitVec 4) (m : Nat) : Word × Word :=
         match (u.progStage p).pairs.find? fun c => c.part == q && c.idx == m with | some c => (c.packets, c.bytes) | none => (0, 0)
       ∃ t, exec (.actCount l soff sw x base) s = .next t ∧
         pair t owner (n % region.pairs) = ((pair s owner (n % region.pairs)).1 + 1, (pair s owner (n % region.pairs)).2 + word p.plen) ∧
         (∀ q m, (q, m) ≠ (owner, n % region.pairs) → pair t q m = pair s q m) ∧ (t.progStage p).cells = (s.progStage p).cells ∧
         t.header? = some p ∧ t.cores = s.cores ∧ t.mem = s.mem) ∧
     gives (.actMark l bits) { p with hv := p.hv.set 118 (byte (hvGet p.hv 118 1) ||| bits) } ∧
     gives (.actFwd l soff x peer port)
       { p with hv := (p.hv.set 117 (byte (hvGet p.hv 117 1 ||| 1))).set 113 (byte (if x then hvGet p.hv soff.toNat 1 % 64 else if peer then 0xFE else port.toNat)) } ∧
     exec (.actDrop l code) s = .next ((s.modHeader fun q => q.orDisp 4).count cl (13 + code.toNat / 64)) ∧
     (let e := (s.dies[clusterDie cl]).entry? (rbase.toNat + field soff sw)
       let refused := exec (.actRoute l doff soff sw rbase) s = .next ((s.modHeader fun q => q.orDisp 4).viol cl 0x12 s.prog.stage.val p)
       (4096 ≤ rbase.toNat + field soff sw ∨ e = none → refused) ∧
       (∀ r, e = some r → rbase.toNat + field soff sw < 4096 →
         (r.valid = false ∨ r.part ≠ p.part ∨ destPeer r.dest = (s.dies[clusterDie cl]).self → refused) ∧
         (r.valid = true → r.part = p.part → destPeer r.dest ≠ (s.dies[clusterDie cl]).self →
           gives (.actRoute l doff soff sw rbase)
             { (({ p with hv := hvSet p.hv doff.toNat 8 r.dest.toNat } : Packet).orDisp 1).setEport 0xFE with dest := some r.dest })))) ∧
  (∀ (s : State) (p : Packet) (l x : Bool) (soff : BitVec 7) (sw : BitVec 2) (core : BitVec 4) (tile : BitVec 6) (off : BitVec 15)
     (num : BitVec 16) (idx : BitVec 8) (amount : BitVec 24), s.pkg.frz = 0 → s.header? = some p →
     let cl := s.prog.cluster
     let st := s.prog.stage.val
     let badAct := (s.modHeader fun _ => { p.orDisp 4 with effects := [], fate := .dropped }).count cl 11
     let joins (i : Instr) (e : Effect) (bits : Nat) : Prop :=
       exec i s = .next (if 8 ≤ p.effects.length ∨ (p.sys = true ∧ e.op ≠ 0x20) then badAct else s.modHeader fun _ => ({ p with effects := p.effects ++ [e] } : Packet).orDisp bits)
     let spans (i : Instr) (op : BitVec 6) (unit bits : Nat) : Prop :=
       let o := off.toNat + if x then unit * hvGet p.hv soff.toNat (2 ^ sw.toNat) else 0
       (8 ≤ p.effects.length ∨ p.sys = true → exec i s = .next badAct) ∧
       (p.effects.length < 8 → p.sys = false → (op = 0x1A → p.paylen % 4 = 0) → o + p.paylen ≤ 24576 → joins i ⟨op, st, core.toNat, tile.toNat, o, 0⟩ bits) ∧
       (p.effects.length < 8 → p.sys = false → ((op = 0x1A ∧ p.paylen % 4 ≠ 0) ∨ 24576 < o + p.paylen) →
         exec i s = .next ((s.modHeader fun q => q.orDisp 4).viol cl op.toNat st p))
     spans (.actAbsorb l soff sw x core tile off) 0x18 16 2 ∧ spans (.actMirror l soff sw x core tile off) 0x19 16 3 ∧
     spans (.actCribAdd l soff sw x core tile off) 0x1A 4 2 ∧
     joins (.actCribBump l core tile num) ⟨0x1B, st, core.toNat, tile.toNat, 0, num.toNat⟩ 2 ∧
     joins (.actSigdec l idx amount) ⟨0x1C, st, 0, 0, idx.toNat, amount.toNat⟩ 2 ∧
     (p.sys = true → joins (.actMemop l) ⟨0x20, st, 0, 0, 0, 0⟩ 2) ∧ (p.sys = false → exec (.actMemop l) s = .next badAct))

/-- R262, R263, R267–R275, R279, R283, R285, R289, R291–R293, R431 (log entries 30 and 34; 12 for a batch's payloads, 32 for the wait of
a batch until no tenant header is before its disposition and for the order of the tails, 33 for frames of no legal length, 90 for a
system header at an edge port): the pipeline's events. An edge
frame of an enabled port whose partition has a parser enters where the parse accepts; else it counts in its port's PARSEERR, or in
NODISP, and stays as a dropped packet until its tail check. A packet on a torus port, parsed as the module's own system profile
does, passes through, enters the tenant profile, or is handed to a unit of this module, by DPEER and TYPE. After a failed boot none is parsed. A
table read that meets an uncorrectable error, here or in a stage, drops the packet with BADACT. A header passes a stage when every earlier one of
its lane is past it; the programs that its lookups name, looked up before any of them runs, run in table order, the words of each in
turn up to the first with L = 1 or the sixth, with the meaning the primitives have; after stage 15
DISP decides its fate. The visits of a parse, its key and next state, its errors and its end, and what a lookup hits are as R269, R270 and R272 say. A good tail is recorded in its order; a bad one counts TAGFAIL at its port, discards what was deferred, stomps
the copies that have begun to leave, and sends a failure notice where this module is the destination; a batch takes effect whole
between headers, or not at all; a write of CNTCLR clears the counters it names. -/
def Obligations.SieveEvents : Prop :=
  (∀ (s : State) (cl : Fin 16) (v : Word), exec (.cntclrWrite cl v) s = .next (if s.pkg.halted then s else s.updCluster cl fun k =>
    { k with counters := Vector.ofFn fun n => if v.getLsbD n.val then 0 else k.counters[n] })) ∧
  (∀ (s : State) (cl : Fin 16) (port : Fin 4) (bs : List Byte), s.pkg.halted = true → exec (.packetParse cl port bs) s = .next s) ∧
  (∀ (pkt : List Byte) (e : BitVec 512) (v : Visit), v.hv.length = 128 →
    let lim := min 256 (pkt.length - 4)
    let field (lo n : Nat) : Nat := e.toNat / 2 ^ lo % 2 ^ n
    (∀ n < 4,
      let off := v.cur + field (32 * n + 23) 8
      let len := field (32 * n + 19) 4 + 1
      let dest := field (32 * n + 12) 7
      (e.getLsbD (32 * n + 31) = false → extract pkt lim e n v = some v) ∧
      (e.getLsbD (32 * n + 31) = true → (lim < off + len ∨ 112 < dest + len ∨ 32 ≤ v.fdir.length → extract pkt lim e n v = none) ∧
        (off + len ≤ lim → dest + len ≤ 112 → v.fdir.length < 32 → ∃ w, extract pkt lim e n v = some w ∧ w.cur = v.cur ∧ w.hv.length = 128 ∧
          (∀ j < 128, w.hv.getD j 0 = if dest ≤ j ∧ j < dest + len then pkt.getD (off + (j - dest)) 0 else v.hv.getD j 0) ∧
          w.fdir = v.fdir ++ [⟨dest, len, off, e.getLsbD (32 * n + 11)⟩]))) ∧
    (∀ key, let mask := if e.getLsbD 151 then field 135 16 else field 135 8
      let fits (n : Nat) : Prop := e.getLsbD (32 * n + 191) = true ∧ key &&& mask = field (32 * n + 160) 16
      (∀ n < 4, fits n → (∀ m < n, ¬ fits m) → nextState e key = field (32 * n + 184) 7) ∧
      ((∀ n < 4, ¬ fits n) → nextState e key = field 128 7)) ∧
    (let got := (extract pkt lim e 0 v).bind fun a => (extract pkt lim e 1 a).bind fun b => (extract pkt lim e 2 b).bind fun c => extract pkt lim e 3 c
      let kw := if e.getLsbD 151 then 2 else 1
      let ko := v.cur + field 152 8
      let ao := v.cur + field 303 8
      let bad : Prop := got = none ∨ lim < ko + kw ∨ (e.getLsbD 311 = true ∧ lim < ao + 1)
      let key := if e.getLsbD 151 then 256 * (pkt.getD ko 0).toNat + (pkt.getD (ko + 1) 0).toNat else (pkt.getD ko 0).toNat
      let adv := field 312 8 + if e.getLsbD 311 then ((pkt.getD ao 0).toNat &&& field 288 8) * 2 ^ field 300 3 else 0
      (bad → visit pkt e v = none) ∧
      (¬ bad → ∀ w, got = some w → visit pkt e v = some ({ w with cur := v.cur + adv }, nextState e key))) ∧
    (∀ (states : Nat → BitVec 512) (st fuel : Nat), states st = e →
      parseFrom states pkt 0 st v = none ∧
      (visit pkt e v = none → parseFrom states pkt (fuel + 1) st v = none) ∧
      (∀ w next, visit pkt e v = some (w, next) →
        (next = 0x7E → parseFrom states pkt (fuel + 1) st v = if w.cur + 4 ≤ pkt.length then some w else none) ∧
        (next ≠ 0x7E → 64 ≤ next → parseFrom states pkt (fuel + 1) st v = none) ∧
        (next < 64 → parseFrom states pkt (fuel + 1) st v = parseFrom states pkt fuel next w)))) ∧
  (∀ (t : STable) (part : BitVec 4) (hv : List Byte), hv.length = 128 → (∀ p ∈ t.slices, p.1 + p.2 ≤ 128) →
    let key := beNat (t.slices.flatMap fun p => (hv.drop p.1).take p.2)
    let length := 8 * (t.slices.map fun p => p.2).sum
    let hits (e : SEntry) : Prop :=
      match t.kind with
      | .exact => key = e.key
      | .longest => key / 2 ^ (length - e.plen) = e.key / 2 ^ (length - e.plen)
      | .range => e.key ≤ key ∧ key ≤ e.hi
      | .direct => key < t.cap ∧ e.key = key
    let wins (i : Nat) (e : SEntry) : Prop := t.entries[i]? = some e ∧ hits e ∧
      ∀ j f, t.entries[j]? = some f → hits f → if t.kind = .longest ∧ f.plen ≠ e.plen then f.plen < e.plen else i ≤ j
    (t.valid = false ∨ t.part ≠ part → t.lookup part hv = none) ∧
    (t.valid = true → t.part = part →
      (∀ i e, wins i e → t.lookup part hv = some (e.prog, e.adata)) ∧
      ((∀ e ∈ t.entries, ¬ hits e) → t.lookup part hv = if t.deflt = 1023 then none else some (t.deflt, 0)))) ∧
  (∀ (st : Stage) (part : BitVec 4) (hv : List Byte) (table : Fin 4 → Option STable),
    (∀ n, (st.tables.filter fun t => t.index == n) = (table n).toList) →
    st.lookups part hv = ([0, 1, 2, 3] : List (Fin 4)).filterMap fun n => (table n).bind fun t => t.lookup part hv) ∧
  (∀ (s : State) (p : Packet) (w : Word) (ws : List Word) (fuel : Nat), s.header? = some p →
    runProgram 0 ws s = s ∧ runProgram (fuel + 1) [] s = s ∧
    (p.fate ≠ .flowing → runProgram (fuel + 1) (w :: ws) s = s) ∧
    (p.fate = .flowing →
      (∀ e, decodePrim w = .error e → runProgram (fuel + 1) (w :: ws) s =
        (s.modHeader fun _ => { p.orDisp 4 with effects := [], fate := .dropped }).count s.prog.cluster 11) ∧
      (∀ i u, decodePrim w = .ok i → s.pkg.frz = 0 → exec i s = .next u →
        runProgram (fuel + 1) (w :: ws) s = if w.getLsbD 57 then u else runProgram fuel ws u))) ∧
  (∀ (s : State) (cl : Fin 16), s.pkg.frz = 0 →
    let k := s.clusters[cl]
    let self := (s.dies[clusterDie cl]).self
    let loaded : Prop := s.pkg.halted = false
    let enters (c : Fin 16) (p : Packet) (u : State) : State := u.updCluster c fun k => { k with headers := k.headers ++ [{ p with slot := s.portSlot p.port }] }
    let meets : Prop := (Config.freeBits 1 s.free).toNat = 1
    let drawn : State := { s with free := s.free + 1 }
    let counts (n : Nat) : State := s.updCluster cl fun k => { k with counters := Vector.ofFn fun j => if j.val = n then k.counters[j] + 1 else k.counters[j] }
    (∀ (port : Fin 4) (bs : List Byte), loaded → 12 ≤ cl.val →
      let cfg := k.portcfg[port]
      let part := cfg.toNat / 256 % 16
      let start := k.pstart[(BitVec.ofNat 4 part).toFin]
      let p0 : Packet := packetStart (4 * cl.val + port.val) part 0 false bs
      let ends (u : State) : Prop := exec (.packetParse cl port bs) s = .next u
      let lost (n : Nat) : Prop := ends (enters cl { p0 with fate := .dropped } (counts n))
      (bs.length < 64 ∨ 9216 < bs.length → ends s) ∧
      (64 ≤ bs.length → bs.length ≤ 9216 →
        (cfg.getLsbD 0 = false → lost 12) ∧
        (cfg.getLsbD 0 = true → start.getLsbD 6 = false → lost port.val) ∧
        (cfg.getLsbD 0 = true → start.getLsbD 6 = true → s.parserBad cl = true → meets → ends (enters cl { p0 with fate := .dropped } (drawn.count cl 11))) ∧
        (cfg.getLsbD 0 = true → start.getLsbD 6 = true → (s.parserBad cl = true → ¬ meets) →
          let u := if s.parserBad cl then drawn else s
          let parsed := parseFrom k.parserState bs 32 (start.toNat % 64) ⟨p0.hv, [], 0⟩
          (parsed = none → ends (enters cl { p0 with fate := .dropped } (u.count cl port.val))) ∧
          (∀ v, parsed = some v → ends (enters cl { p0 with hv := v.hv, fdir := v.fdir, cur := v.cur } u))))) ∧
    (∀ (port : Fin 4) (bs : List Byte), loaded → cl.val < 12 →
      let ends (u : State) : Prop := exec (.packetParse cl port bs) s = .next u
      (bs.length < 68 ∨ 4092 < pktDlen bs → ends (counts port.val)) ∧
      (68 ≤ bs.length → pktDlen bs ≤ 4092 → k.sysBad.getLsbD 0 = true → meets →
        let all := bs.take (68 + pktDlen bs)
        let h := FHead.ofBytes all
        ends (enters cl { packetStart (4 * cl.val + port.val) h.part h.speer true all with fate := .dropped } (drawn.count cl 11))) ∧
      (68 ≤ bs.length → pktDlen bs ≤ 4092 → k.sysParser = [] → (k.sysBad.getLsbD 0 = true → ¬ meets) →
        let u := if k.sysBad.getLsbD 0 then drawn else s
        let all := bs.take (68 + pktDlen bs)
        let h := FHead.ofBytes all
        let p0 : Packet := { packetStart (4 * cl.val + port.val) h.part h.speer true all with cur := 64 }
        let home : Fin 16 := ⟨h.dloc % 16, Nat.mod_lt _ (by decide)⟩
        let ours : Prop := h.dpeer = self.toNat
        let unit : Prop := (0x10 ≤ h.type ∧ h.type ≤ 0x14) ∨ (0x18 ≤ h.type ∧ h.type ≤ 0x1A) ∨ h.type = 0x20
        (¬ ours → ends (enters cl ((p0.orDisp 1).setEport 0xFE) u)) ∧
        (ours → h.type = 1 → ends (u.enterTenant home (4 * cl.val + port.val) h.part h.speer all)) ∧
        (ours → unit → ends (enters home (({ p0 with effects := [⟨0x20, 0, 0, 0, 0, 0⟩] } : Packet).orDisp 2) u)) ∧
        (ours → h.type ≠ 1 → ¬ unit → ends (enters home { p0 with fate := .dropped } (u.count cl port.val))))) ∧
    (∀ n p, k.headers[n]? = some p → (p.fate ≠ .flowing ∨ k.laneClear n p = false ∨ 16 ≤ p.stage → exec (.stagePass cl n) s = .next s)) ∧
    (∀ n p, k.headers[n]? = some p → p.fate = .flowing → k.laneClear n p = true → (h : p.stage < 16) →
      let st : Fin 16 := ⟨p.stage, h⟩
      (s.tableError cl p st = true → meets → k.bufferFull n p.sys = false → exec (.stagePass cl n) s = .next
        (((({ drawn with prog := ⟨cl, n, st, 0⟩ } : State).updHeader cl n fun q =>
          { q.orDisp 4 with effects := [], fate := .dropped, stage := p.stage + 1 }).count cl 11).sweep cl)) ∧
      ((s.tableError cl p st = true → ¬ meets) →
      let base : State := if s.tableError cl p st then drawn else s
      let owner : BitVec 4 := if p.sys then 0 else p.part
      let stage : Stage := if p.sys then k.sysStages[st] else k.stages[st]
      let passed (u : State) : State :=
        let v := u.updHeader cl n fun q => { q with stage := p.stage + 1 }
        (if p.stage = 15 then v.dispose cl n else v).sweep cl
      (stage.lookups owner p.hv = [] → k.bufferFull n p.sys = false → exec (.stagePass cl n) s = .next (passed base)) ∧
      (let u := (stage.lookups owner p.hv).foldl (fun acc l => runProgram 6 (stage.program owner l.1) { acc with prog := ⟨cl, n, st, l.2⟩ }) base
       k.bufferFull n p.sys = false → ∀ q, (u.clusters[cl]).headers[n]? = some q → exec (.stagePass cl n) s = .next
          (if q.fate = .flowing then passed u else (u.updHeader cl n fun q => { q with stage := p.stage + 1 }).sweep cl)) ∧
      (∀ slot adata w i u q, k.bufferFull n p.sys = false → stage.lookups owner p.hv = [(slot, adata)] → stage.program owner slot = [w] →
        decodePrim w = .ok i → exec i { base with prog := ⟨cl, n, st, adata⟩ } = .next u → (u.clusters[cl]).headers[n]? = some q → q.fate = .flowing →
        exec (.stagePass cl n) s = .next (passed u)))) ∧
    (∀ n p, k.headers[n]? = some p →
      let puts (q : Packet) (u : State) : State := u.updCluster cl fun k => { k with headers := k.headers.set n q }
      let dropped : Packet := { p with fate := .dropped, effects := [] }
      let e := hvGet p.hv 113 1
      let fwd := (hvGet p.hv 117 1).testBit 0
      let abs := (hvGet p.hv 117 1).testBit 1
      let kept := if p.spoilt then [] else p.effects
      let done := s.dispose cl n
      ((hvGet p.hv 117 1).testBit 2 = true → done = puts dropped s) ∧
      ((hvGet p.hv 117 1).testBit 2 = false →
        ((fwd = false ∧ abs = false) ∨ (fwd = true ∧ 64 ≤ e ∧ e ≠ 0xFE) → done = (puts dropped s).count cl 12) ∧
        (fwd = false → abs = true → done = puts { p with fate := .absorb, effects := kept } s) ∧
        (fwd = true → e < 64 ∨ e = 0xFE →
          (s.edgeForeign p = true → done = (puts dropped s).viol cl 0x10 15 p) ∧
          (s.edgeForeign p = false → p.tail = some false → done = puts dropped s) ∧
          (s.edgeForeign p = false → p.tail ≠ some false →
            let t := s.leave (clusterDie cl) p
            let copies := some (s.pkg.egress.length, t.pkg.egress.length - s.pkg.egress.length)
            done = puts { p with fate := if abs then .both else .forward, effects := kept, out := copies } t)))) ∧
    (∀ n p, k.headers[n]? = some p → p.tail = none →
      (p.tailGood = true → exec (.tailCheck cl n false) s = .next
        ((s.updCluster cl fun k => { k with headers := k.headers.set n { p with tail := some true, order := k.tails }, tails := k.tails + 1 }).sweep cl)) ∧
      (∀ b, b = true ∨ p.tailGood = false →
        let h := FHead.ofBytes p.packet
        let notice : Prop := p.fabric = true ∧ (h.type = 1 ∨ (0x10 ≤ h.type ∧ h.type ≤ 0x14)) ∧ h.dpeer = self.toNat
        let failed : Packet := { p with tail := some false, order := k.tails, effects := if p.isAnswer then p.effects else [] }
        let copies : Nat × Nat := p.out.getD (0, 0)
        ∃ u : State, u.cores = s.cores ∧ u.mem = s.mem ∧ u.dies = s.dies ∧
          (u.clusters[cl]).headers = k.headers.set n failed ∧ (u.clusters[cl]).tails = k.tails + 1 ∧
          (∀ (c : Fin 16) (j : Fin 17), (u.clusters[c]).counters[j] = (s.clusters[c]).counters[j] +
            (if p.port < 64 ∧ c.val = p.port / 4 ∧ j.val = 4 + p.port % 4 then 1 else 0) + (if c = cl ∧ j.val = 8 ∧ copies.2 ≠ 0 then 1 else 0)) ∧
          (u.pkg.egress = s.pkg.egress.mapIdx fun i o => if copies.1 ≤ i ∧ i < copies.1 + copies.2 then { o with stomped := true } else o) ∧
          (¬ notice → exec (.tailCheck cl n b) s = .next (u.sweep cl)) ∧
          (notice → exec (.tailCheck cl n b) s = .next ((u.reply (clusterDie cl) h 0x19 5 0 []).sweep cl)))) ∧
    (∀ b bs, k.batches = b :: bs →
      (k.quiet = false → exec (.batchApply cl) s = .next s) ∧
      (k.quiet = true →
        let applied := s.applyBatch (clusterDie cl) cl b.part [] b.recs { k with batches := bs }
        ∃ t, exec (.batchApply cl) s = .next t ∧ t.clusters[cl] = applied.getD { k with batches := bs } ∧ t.cores = s.cores)) ∧
    (∀ (d : Fin 2) (part : BitVec 4) (r : BatchRec) (rs earlier : List BatchRec) (x : Cluster),
      let duplicate : Prop := ∃ n, x.keyBytes r = some n ∧ duplicateKey n earlier r = true
      s.applyBatch d cl part earlier [] x = some x ∧
      (duplicate ∨ s.applyRec d cl part x r = none → s.applyBatch d cl part earlier (r :: rs) x = none) ∧
      (∀ y, ¬ duplicate → s.applyRec d cl part x r = some y → s.applyBatch d cl part earlier (r :: rs) x = s.applyBatch d cl part (earlier ++ [r]) rs y)))

/-- R284, R286, R300–R304, R454, R458 (log entries 20 and 30; 17 for a signal in memory out of reach): what a commit does. A tenant packet commits when its tail check has
passed and its fate is known, first the one whose check passed first. An effect passes its check where its tile is the
Sieve's, of the packet's partition, with an OPEN crib and the span within it, or where its signal is valid. Where one fails nothing of
the packet is done, and the first that does counts LATE for a CLOSED crib, else VIOL. Where all pass, every effect is applied, in list
order: a payload's bytes in the tile, its elements added into the crib by MODE with SAT and FLG, a fill count raised, a signal
lowered; a word in error stays as it is and counts BADACT; then each crib that the packet's effects name and whose count has reached its threshold
closes and sends its trigger with the status word. A system packet is handed to the unit that its TYPE names. -/
def Obligations.CommitsTakeEffect : Prop :=
  (∀ (s : State) (cl : Fin 16) (sys : Bool), s.pkg.frz = 0 →
    let k := s.clusters[cl]
    (k.nextCommit sys = none → exec (.commit cl sys) s = .next s) ∧
    (∀ p n, k.nextCommit sys = some (p, n) →
      k.headers[n]? = some p ∧ p.sys = sys ∧ (p.fate = .absorb ∨ p.fate = .both) ∧ (p.tail = some true ∨ (p.tail = some false ∧ p.isAnswer = true)) ∧
      (∀ q ∈ k.headers, q.sys = sys → q.queued = true → p.order ≤ q.order) ∧
      (s.effectsAwake cl p = false → exec (.commit cl sys) s = .next s) ∧
      (s.effectsAwake cl p = true →
        let ends (u : State) : Prop := exec (.commit cl sys) s = .next ((u.updHeader cl n fun q => { q with effects := [] }).sweep cl)
        (sys = false →
          (∀ e, (p.effects.find? fun e => !s.effectOk cl p e) = some e →
            (e.onTile = true → (k.crib e.place).state = 3 → ends (s.count cl 10)) ∧
            (¬ (e.onTile = true ∧ (k.crib e.place).state = 3) → ends (s.viol cl e.op.toNat e.stage p))) ∧
          ((∀ e ∈ p.effects, s.effectOk cl p e = true) →
            let applied := p.effects.foldl (fun u e => u.applyEffect cl p e) s
            ends ((((p.effects.filter fun e => e.onTile).map Effect.place).eraseDups).foldl (fun u m => u.closeIf cl m) applied))) ∧
        (sys = true →
          let h := FHead.ofBytes p.packet
          let d := clusterDie cl
          let peer := BitVec.ofNat 12 h.speer
          (0x10 ≤ h.type → h.type ≤ 0x14 → ends (s.updDie d fun x => { x with target := x.target ++ [requestOf p.packet] })) ∧
          (h.type = 0x18 → p.tail = some true → ends (s.response peer h.tx (BitVec.ofNat 8 h.status) (BitVec.ofNat 5 h.mode) (pktData p.packet))) ∧
          (h.type = 0x19 ∨ (h.type = 0x18 ∧ p.tail = some false) → ends (s.answer peer h.tx (.failed 5) [] 0)) ∧
          (h.type = 0x1A → ends (if p.tail = some true then s.answer peer h.tx (.sent s.now) [] 0 else s)) ∧
          (h.type = 0x20 → let r := armOf p.packet
            ends (if armOver p.packet then (if s.severed d r.signal 8 then s else s.signalDec r.signal 1)
              else s.updDie d fun x => { x with thresher := { x.thresher with arms := x.thresher.arms ++ [{ r with after := x.thresher.tctail }] } })))))) ∧
  (∀ (s : State) (cl : Fin 16) (p : Packet) (e : Effect),
    let k := s.clusters[cl]
    let c : Fin 256 := ⟨16 * cl.val + e.core % 16, by omega⟩
    let g := s.cores[c]
    let crib := k.crib (64 * e.core + e.tile)
    let base := 24576 * e.tile + e.off
    let onTile : Prop := e.op = 0x18 ∨ e.op = 0x19 ∨ e.op = 0x1A ∨ e.op = 0x1B
    let t := s.applyEffect cl p e
    (s.effectOk cl p e = true ↔
      (onTile → (g.tile e.tile).owner = 5 ∧ (g.tile e.tile).part = p.part ∧ crib.state = 2 ∧ (e.op ≠ 0x1B → e.off + p.paylen ≤ 24576)) ∧
      (e.op = 0x1C → ∃ x ∈ k.signals, x.part = p.part ∧ x.idx = e.off)) ∧
    (s.effectOk cl p e = true → Memory.wf g.granary = true →
      (e.op = 0x18 ∨ e.op = 0x19 →
        let bs := p.payload
        let covers (a : Nat) : Prop := base ≤ a ∧ a < base + bs.length
        let whole (q : Nat) : Prop := ∀ j < 16, covers (16 * q + j)
        let kept (a : Nat) : Prop := a / 16 ∈ g.badWords ∧ ¬ whole (a / 16)
        (∀ a, readCell (t.cores[c]).granary a = readCell g.granary a ∨ covers a ∧ ¬ kept a) ∧
        (∀ a, covers a → ¬ kept a → readCell (t.cores[c]).granary a = bs.getD (a - base) 0) ∧
        (∀ q, q ∈ (t.cores[c]).badWords ↔ q ∈ g.badWords ∧ ¬ whole q) ∧
        ((∀ a, covers a → ¬ kept a) → t.clusters = s.clusters) ∧
        (∀ a, covers a → kept a → t.clusters = (s.count cl 11).clusters)) ∧
      (e.op = 0x1A → e.off % 4 = 0 → crib.mode ≠ 3 →
        let n := p.paylen / 4
        let bad (i : Nat) : Prop := (base + 4 * i) / 16 ∈ g.badWords
        let old (i : Nat) : Nat := leNat (readCells g.granary (base + 4 * i) 4)
        let v (i : Nat) : Nat := leNat ((p.payload.drop (4 * i)).take 4)
        let sum (i : Nat) : Int := toSigned 32 (old i) + toSigned 32 (v i)
        let fsum (i : Nat) : FVal × Flags := (valueOf .f32 (old i)).add (valueOf .f32 (v i))
        let after : Crib := (t.clusters[cl]).crib (64 * e.core + e.tile)
        (∀ i < n, leNat (readCells (t.cores[c]).granary (base + 4 * i) 4) % 2 ^ 32 =
          if (base + 4 * i) / 16 ∈ g.badWords then old i
          else if crib.mode = 0 then (old i + v i) % 2 ^ 32
          else if crib.mode = 1 then ofSigned 32 (min (max (sum i) (-(2 ^ 31))) (2 ^ 31 - 1))
          else (final .f32 .rne (fsum i).1).1 % 2 ^ 32) ∧
        (∀ a, a < base ∨ base + 4 * n ≤ a → readCell (t.cores[c]).granary a = readCell g.granary a) ∧
        (t.cores[c]).badWords = g.badWords ∧
        (after.sat = true ↔ crib.sat = true ∨ (crib.mode = 1 ∧ ∃ i < n, ¬ bad i ∧ (sum i < -(2 ^ 31) ∨ 2 ^ 31 - 1 < sum i))) ∧
        (∀ b : Fin 5, after.flg[b] = true ↔ crib.flg[b] = true ∨
          (crib.mode = 2 ∧ ∃ i < n, ¬ bad i ∧ ((fsum i).2 ||| (final .f32 .rne (fsum i).1).2)[b] = true)) ∧
        after = { crib with sat := after.sat, flg := after.flg } ∧
        (∀ j : Fin 17, (t.clusters[cl]).counters[j] = k.counters[j] + if j.val = 11 ∧ ∃ i < n, (base + 4 * i) / 16 ∈ g.badWords then 1 else 0)) ∧
      (e.op = 0x1B → t = s.updCluster cl fun x => x.setCrib (64 * e.core + e.tile)
        { crib with count := BitVec.ofNat 16 (min (crib.count.toNat + e.n) 65535) }) ∧
      (∀ pa, e.op = 0x1C → k.signal? p.part e.off = some pa → t = if s.severed (clusterDie cl) pa 8 then s else s.signalDec pa (word e.n)) ∧
      (onTile → ∀ d, d ≠ c → t.cores[d] = s.cores[d]))) ∧
  (∀ (s : State) (cl : Fin 16) (m : Nat),
    let x := (s.clusters[cl]).crib m
    let closes : Prop := x.state = 2 ∧ x.thr ≠ 0 ∧ x.thr.toNat ≤ x.count.toNat
    let t := s.closeIf cl m
    let status : Word := word (m % 64 * 2 ^ 42 + m / 64 * 2 ^ 38 + (if x.sat then 2 ^ 37 else 0) + x.flg.toNat * 2 ^ 32 + x.count.toNat)
    (¬ closes → t = s) ∧
    (closes → (t.clusters[cl]).crib m = { x with state := 3 } ∧ (∀ j, j ≠ m → (t.clusters[cl]).crib j = (s.clusters[cl]).crib j) ∧ t.cores = s.cores ∧
      (t.granger (clusterDie cl)).triggers = (s.granger (clusterDie cl)).triggers ++
        [⟨⟨⟨cl.val % 8, Nat.mod_lt _ (by decide)⟩, m, status⟩, x.part, x.tmpl.toNat, x.argslot, x.queue, x.count⟩]))

/-! ### Tasks, translation and the fault service (spec/01, spec/08, spec/12, spec/13) -/

/-- R37, R130, R133, R203, R240, R302, R306, R317, R320–R323, R326, R328–R330, R334 (log entries 19, 23,
38 and 39 for what the rules leave open): a task's first state, and how tasks come to a core and
leave it. What a task's first bundle sees. The Granger's choice is the first of its candidates
by effective priority, time of first READY, queue and index. Placed alone, a fresh task owns its
tiles, zeroed, and the tile of its crib, has the engine as at launch if its kernel uses it, and
its context is the first state of its launch; a saved one owns the tiles of its image again and
waits for it; either way its kernel holds a lease. A task fits a core by its tiles, with no access to them still to come (R203), the
matrix engine, its locks, the core of its crib and the leases. A gang is placed whole, with its barrier
context. A task at its end, with its engines done and nothing pending, is off its bank and out
of the Granger's list, its tiles free, its gang's barrier without it, its crib armed again or
freed, the counters of its launch, graph, phase and partition down by one; of a gang whose others are off
the cluster the barrier context is kept by the Granger; the first failure of a launch is written to its FAILSLOT; the task completes, or fails with the record of its failure
or of its lowest failed token. A READY task rises by 1 for every 2 ms at its priority, up to 7;
no other task does. -/
def Obligations.TasksComeAndGo : Prop :=
  (∀ a : Start, let x := Context.start a
    x.sdata 0 = 0 ∧ x.sdata 1 = 0 ∧ x.sdata 2 = a.stack ∧ x.sdata 3 = a.got ∧ x.sdata 4 = a.record ∧
    (∀ j : Fin 8, x.sdata (BitVec.ofNat 5 (5 + j.val)) = a.args.getD j.val 0) ∧ (∀ n : Fin 32, 13 ≤ n.val → x.s[n] = ⟨0, 0⟩) ∧
    (∀ n : Fin 32, (x.s[n]).tail = 0 ∧ x.v[n] = ⟨0, 0⟩ ∧ x.k[n] = ⟨0, false, 0⟩) ∧
    x.pRead 0 = BitVec.allOnes 512 ∧ x.pRead 1 = 0 ∧ (∀ q : Fin 8, q.val ≠ 0 → x.pRead (2 * q.val) = 0 ∧ x.pRead (2 * q.val + 1) = BitVec.allOnes 512) ∧
    (∀ n : Fin 8, x.ms[n] = 0 ∧ x.ws[n] = 0 ∧ x.fs[n] = 0) ∧ x.rmode = 0 ∧ x.fflags = 0 ∧ x.vbase = 0 ∧ x.pbase = 0 ∧
    x.chkmode = a.chk ∧ x.livecnt = a.live ∧ x.tvec = a.tvec &&& 0xFFFFFFFFFFFFC ∧ x.tepc = 0 ∧ x.tcause = 0 ∧ x.tval = 0 ∧ x.tscratch = 0 ∧
    x.locks = [] ∧ x.pc = a.entry ∧ x.hact = false ∧ x.partId = a.part ∧ x.tindex = a.index) ∧
  (∀ (xs : List (Task × Launch)), (firstOf xs = none ↔ xs = []) ∧ ∀ a, firstOf xs = some a → a ∈ xs ∧ ∀ b ∈ xs, before b a = false) ∧
  (∀ a b : Task × Launch, before a b = true ↔ b.1.prio.toNat < a.1.prio.toNat ∨ (a.1.prio = b.1.prio ∧ (a.1.firstReady < b.1.firstReady ∨
    (a.1.firstReady = b.1.firstReady ∧ (a.2.queue.val < b.2.queue.val ∨ (a.2.queue = b.2.queue ∧ a.1.index < b.1.index)))))) ∧
  (∀ (s : State) (c : Fin 256) (bank : Bool) (t : Task) (l : Launch),
    let k := s.cores[c]
    let d := coreDie c
    let tiles : List Nat := match t.image with | some im => im.owners.map (·.1) | none => (List.range 64).filter fun n => l.kernel.tiles.getLsbD n
    let locks : Nat := match t.image with | some im => im.locks | none => l.kernel.nlock
    let cribHere (n : Nat) : Prop := ∃ r, l.bound = some r ∧ c.val = 16 * (8 * d.val + r.cluster.val) + r.place / 64 % 16 ∧ ∃ q, l.crib = some q ∧ q.place % 64 = n
    (s.fits c bank t l = true ↔
      ((s.pkg.partmap[c]).getLsbD 7 = true ∧ (s.pkg.partmap[c]).setWidth 4 = l.part ∧ k.disabled = false ∧ ∀ w ∈ s.pkg.partNext, w.1 ≠ c) ∧
      (∀ n ∈ tiles, (k.tile n).owner = 0 ∧ k.accessDue n = false ∧ (((s.clusters[clusterOf c]).crib (cribPlace c n)).state = 0 ∨ cribHere n)) ∧
      (l.kernel.matrix = true → k.matrix.holder = none) ∧
      locks + (k.istore.filter fun r => if bank then r.lockA else r.lockB).length ≤ 32 ∧
      (∀ r, l.bound = some r → c.val = 16 * (8 * d.val + r.cluster.val) + r.place / 64 % 16) ∧
      ((∃ e ∈ k.leases, e.part = l.part ∧ e.kernel = l.kernel.kdesc.toNat) ∨ k.leases.length < 4 ∨ ∃ e ∈ k.leases, s.resident c e.part e.kernel = false)) ∧
    (l.gang < 2 → ((t, l) ∈ s.candidates c ↔
      (∃ u ∈ (s.granger d).tasks, u.state = .ready ∧ (s.granger d).launch? u.lid = some l ∧ t = u.age s.now) ∧
      ∃ b, s.freeBank c = some b ∧ s.fits c b t l = true))) ∧
  (∀ (s : State) (c : Fin 256) (bank : Bool) (t : Task) (l : Launch), s.pkg.frz = 0 →
    let d := coreDie c
    let k := s.cores[c]
    let own := tileSet l.kernel.tiles
    s.freeBank c = some bank → firstOf (s.candidates c) = some (t, l) → l.gang < 2 →
    ∃ u : State, exec (.taskPlace c) s = .next u ∧ (∀ e : Fin 256, e ≠ c → u.cores[e] = s.cores[e]) ∧ (u.cores[c]).ctx? (!bank) = k.ctx? (!bank) ∧
      (∃ e ∈ (u.cores[c]).leases, e.part = l.part ∧ e.kernel = l.kernel.kdesc.toNat ∧ e.lastRun = s.now) ∧
      (l.begun = true → l.kernel.npre = 0 → u.mem = s.mem) ∧
      (t.image = none → (u.cores[c]).ctx? bank = some (Context.start
          { taskDie := d, task := t.id, kernel := l.kernel.kdesc.toNat, entry := l.kernel.entry, stack := l.stack + word ((t.index + 1) * l.sstride),
            got := l.kernel.got, record := l.record, args := l.args.take 8, chk := l.chk, live := l.live, tvec := l.kernel.trape, part := l.part,
            index := BitVec.ofNat 24 t.index, extents := s.extentTable d l.kernel, barrier := none }) ∧
        (∀ n : Fin 64, n.val ∈ own ∨ l.cribTile = some n.val → ((u.cores[c]).tiles[n]).owner = bankOwner bank) ∧
        (∀ a, readCell (u.cores[c]).granary a = if a / 24576 ∈ own then 0 else readCell k.granary a) ∧
        (∀ r, r ∈ (u.cores[c]).dirty ↔ l.cribTile = some (r / 32) ∨ (r ∈ k.dirty ∧ r / 32 ∉ own)) ∧
        (u.cores[c]).matrix = (if l.kernel.matrix then { Matrix.reset with holder := some bank } else k.matrix) ∧
        (u.granger d).tasks = (s.granger d).tasks.map fun u => if u.id = t.id then { u with state := .placed c bank, placedAt := s.now, prio := l.prio } else u) ∧
      (∀ im, t.image = some im → (im.owners.map (·.1)).Nodup →
        let code (o : BitVec 3) : BitVec 3 := if o = bankOwner im.bank then bankOwner bank else o
        (u.cores[c]).ctx? bank = none ∧ (u.cores[c]).granary = k.granary ∧
        (∀ o ∈ im.owners, ∀ n : Fin 64, n.val = o.1 → ((u.cores[c]).tiles[n]).owner = code o.2) ∧
        (im.matrix = true → (u.cores[c]).matrix.holder = some bank) ∧
        (u.granger d).tasks = (s.granger d).tasks.map fun u => if u.id = t.id then
          { u with state := .restoring c bank, placedAt := s.now, prio := l.prio,
                   image := some { im with core := c, bank := bank, owners := im.owners.map (fun o => (o.1, code o.2)), barrier := none } } else u)) ∧
  (∀ (s : State) (c : Fin 256) (bank : Bool) (t : Task) (l : Launch) (ms : List Task) (cl : Fin 16) (b : Fin 4) (cs : List (Fin 256 × Bool × Task)),
    s.pkg.frz = 0 →
    let d := coreDie c
    let n := t.index / l.gang
    s.freeBank c = some bank → firstOf (s.candidates c) = some (t, l) → 2 ≤ l.gang → (s.granger d).gangBy t l = some ms →
    s.gangPlace d l ms = some (cl, cs) → (s.clusters[cl]).freeBarrier = some b →
    cs.map (fun p => p.2.2) = ms ∧ cs.Pairwise (fun p q => p.1.val < q.1.val) ∧
    ∃ u : State, exec (.taskPlace c) s = .next u ∧
      (u.clusters[cl]).barriers[b] = some (((s.granger d).saved.find? fun b => b.lid == l.lid && b.gang == n).getD ⟨l.lid, n, ms.map fun t => t.id, 0, []⟩) ∧
      (u.granger d).saved = (s.granger d).saved.filter (fun x => !(x.lid == l.lid && x.gang == n)) ∧
      ∀ p ∈ cs, clusterOf p.1 = cl ∧ (p.2.2.image = none →
        ∃ y, (u.cores[p.1]).ctx? p.2.1 = some y ∧ y.task = p.2.2.id ∧ y.barrier = some b ∧ y.begun = false)) ∧
  (∀ (s : State) (c : Fin 256) (bank : Bool) (x : Context) (tepc tcause tval : Word) (reason : Nat), s.pkg.frz = 0 →
    let k := s.cores[c]
    let g := s.granger x.taskDie
    let crib (l : Launch) (r : CribRef) : Prop := s.bankLaunch x = some l ∧ l.crib = some r
    let closed (r : CribRef) : Crib := (s.clusters[clusterOf c]).crib r.place
    let failed : Bool := decide (reason ≠ 0) || (x.failedToken).isSome
    k.ctx? bank = some x → x.status = .ending tepc tcause tval reason → x.drained = true → reason ≠ 9 → x.cancel = false →
    x.wain = [] → x.fabric = [] → (∀ m ∈ k.matrix.queue, m.bank ≠ bank) →
    (∀ z, k.ctx? (!bank) = some z → z.cancel = false ∧ ∀ a b e r, z.status ≠ .ending a b e r) →
    ∃ u : State, exec (.taskRetire c) s = .next u ∧ (u.cores[c]).ctx? bank = none ∧ (u.cores[c]).ctx? (!bank) = k.ctx? (!bank) ∧
      (∀ t ∈ (u.granger x.taskDie).tasks, t.id ≠ x.task) ∧
      (∀ t ∈ g.tasks, t.id ≠ x.task → t ∈ (u.granger x.taskDie).tasks) ∧
      (k.matrix.holder = some bank → (u.cores[c]).matrix.holder = none) ∧
      (∀ n : Fin 64, (k.tiles[n]).owner = bankOwner bank → ((u.cores[c]).tiles[n]).owner = 0 ∨
        (((u.cores[c]).tiles[n]).owner = 5 ∧ ∃ l r, crib l r ∧ r.place % 64 = n.val ∧ (closed r).state = 3 ∧ (closed r).rearm = true)) ∧
      (∀ l r, crib l r → (closed r).state = 3 →
        (((closed r).rearm = true ∧ r.place % 64 ∈ k.bankTiles bank) → (u.clusters[clusterOf c]).crib r.place =
          { closed r with state := 1, count := 0, sat := false, flg := 0, disarm := [], disarming := false } ∧ ((u.cores[c]).tile (r.place % 64)).owner = 5) ∧
        (¬ ((closed r).rearm = true ∧ r.place % 64 ∈ k.bankTiles bank) → (u.clusters[clusterOf c]).crib r.place =
          { closed r with state := 0, count := 0, sat := false, flg := 0, cmd := none, disarm := [], disarming := false })) ∧
      (∀ (cl : Fin 16) (n : Fin 4) b, clusterDie cl = x.taskDie → (s.clusters[cl]).barriers[n] = some b → x.task ∈ b.members →
        let rest := b.members.filter (· != x.task)
        let left : Barrier := { b with members := rest, arrived := b.arrived.filter (· != x.task) }
        let mates : Prop := (∃ (m : Fin 16) (e : Bool) (z : Context), (coreOf cl m, e) ≠ (c, bank) ∧ (s.cores[coreOf cl m]).ctx? e = some z ∧ z.barrier = some n) ∨
          ∃ t ∈ g.tasks, ∃ e a im, t.state = .restoring e a ∧ t.image = some im ∧ clusterOf e = cl ∧ im.barrier = some n
        (rest = [] → (u.clusters[cl]).barriers[n] = none) ∧
        (rest ≠ [] → cl ≠ clusterOf c ∨ x.barrier ≠ some n ∨ mates → (u.clusters[cl]).barriers[n] = some left) ∧
        (rest ≠ [] → cl = clusterOf c → x.barrier = some n → ¬ mates →
          (u.clusters[cl]).barriers[n] = none ∧ left ∈ (u.granger x.taskDie).saved)) ∧
      (∀ t l, g.tasks.find? (fun t => t.id == x.task) = some t → g.launch? t.lid = some l →
        (u.granger x.taskDie).launches = g.launches.map fun m =>
          if m.lid = l.lid then { m with out := m.out - 1, failn := m.failn + failed.toNat } else m) ∧
      (∀ t l, g.tasks.find? (fun t => t.id == x.task) = some t → g.launch? t.lid = some l →
        let falls (n : Counter) : Counter := { n with out := n.out - 1, failn := n.failn + failed.toNat }
        (u.granger x.taskDie).graphs = g.graphs.map (fun n => if l.graph ≠ 0 ∧ n.id = l.graph then falls n else n) ∧
        (u.granger x.taskDie).phases = g.phases.map (fun n => if l.phase ≠ 0 ∧ n.id = l.phase then falls n else n) ∧
        (∀ q : Fin 16, (u.granger x.taskDie).jobs[q] = if q = l.part.toFin then falls g.jobs[q] else g.jobs[q]) ∧
        ((∀ e : Fin 2, ∀ y ∈ (s.granger e).cmds, y.type ≠ 4) →
          (∀ rec, x.ended c bank tepc tcause tval reason = .failed rec → u.mem =
            if l.failn = 0 ∧ l.failslot ≠ 0 then ((s.grWrite x.taskDie l.part l.failslot.toNat rec).getD s).mem else s.mem) ∧
          (x.ended c bank tepc tcause tval reason = .completed → u.mem = s.mem)))) ∧
  (∀ (x : Context) (c : Fin 256) (bank : Bool) (tepc tcause tval : Word) (reason : Nat),
    let record (cause val : Word) (r : Nat) : List Byte := leBytes 8 tepc.toNat ++ leBytes 8 cause.toNat ++ leBytes 8 val.toNat ++
      leBytes 4 x.tindex.toNat ++ leBytes 2 (coreloc c bank).toNat ++ leBytes 2 r
    let e := x.ended c bank tepc tcause tval reason
    (∀ k : BitVec 5, x.failedToken = some k ↔ (x.k[k.toFin]).err = true ∧ ∀ j : Fin 32, j.val < k.toNat → (x.k[j]).err = false) ∧
    (reason = 9 → e = .cancelled) ∧ (reason ≠ 9 → reason ≠ 0 → e = .failed (record tcause tval reason)) ∧
    (reason = 0 → x.failedToken = none → e = .completed) ∧
    (∀ k, reason = 0 → x.failedToken = some k →
      e = .failed (record (tcauseWord 0x0C (tcause.setWidth 4) false) (tokenTval k x.k[k.toFin]) 4))) ∧
  (∀ (s : State) (d : Fin 2), s.pkg.frz = 0 → ∃ u : State, exec (.priorityAging d) s = .next u ∧ u.cores = s.cores ∧ u.mem = s.mem ∧
    (u.granger d).tasks = (s.granger d).tasks.map fun t =>
      if t.state = .ready then
        let n := min ((s.now - t.prioSince) / 5400000) (7 - t.prio.toNat)
        { t with prio := BitVec.ofNat 3 (t.prio.toNat + n), prioSince := t.prioSince + n * 5400000 }
      else t)

/-- R133, R134, R204, R248–R251, R253, R255, R306, R325, R326, R328, R331, R335 (log entries 11, 16, 17,
23, 40 and 51): pre-emption and what the Granger does at its leisure. A bank whose task may be
taken is empty afterwards, its tiles free, its accesses made, its pending results in the latch
bank and with everything else in the image that its save area holds; the task is READY, or waits
for its signal, which is read again (R134); the last member of a gang takes its barrier context along. A latch entry names
what its result writes and when, and runs from the first bc in which the bank issues again. An
image that can be read and decoded brings registers, latch bank, granary bytes and matrix engine
back; one that cannot fails the task. A running task is asked to make room only for a READY one
that takes it as its victim. A suspended task whose signal has come down to its threshold is
READY, and so are the tasks of a launch whose last dependence has; a task whose signal has not
stays. A quarter whose tiles have been free for 100 µs and are not needed is gated. -/
def Obligations.PreemptAndResume : Prop :=
  (∀ (s : State) (c : Fin 256) (bank : Bool) (x : Context) (t : Task) (l : Launch), s.pkg.frz = 0 →
    let k := s.cores[c]
    let k1 := k.latchBank bank
    let owned := k1.ownedTiles bank
    let g := s.granger x.taskDie
    let barriers := (s.clusters[clusterOf c]).barriers
    let im : Saved := ⟨c, bank, owned, k1.badWords.filter fun w => (owned.map (·.1)).contains (16 * w / 24576), k1.matrix.holder == some bank, x.locks.length, none⟩
    k.ctx? bank = some x → k.preemptable (s.dies[coreDie c]).self bank x = true →
    g.tasks.find? (fun t => t.id == x.task) = some t → g.launch? t.lid = some l →
    ∃ (y : Context) (u : State), k1.ctx? bank = some y ∧ x.sameRegs y ∧ y.pc = x.pc ∧ y.dly = x.dly ∧ y.hact = x.hact ∧ y.tepc = x.tepc ∧
      y.tcause = x.tcause ∧ y.tval = x.tval ∧ y.locks = x.locks ∧ y.status = x.status ∧ y.pend = [] ∧
      exec (.preempt c bank) s = .next u ∧ (u.cores[c]).ctx? bank = none ∧ (u.cores[c]).snap bank = ⟨[], Vector.replicate 15 0⟩ ∧
      (∀ n : Fin 64, n.val ∈ owned.map (·.1) → ((u.cores[c]).tiles[n]).owner = 0) ∧
      (∀ r ∈ (u.cores[c]).istore, r.lockedBy bank = false) ∧
      u.mem = (s.writeImage x.taskDie l t.index (k1.imageOf bank y).bytes).mem ∧
      (∀ a thr, x.status = .suspended a thr → u.reread = true ∧ (u.granger x.taskDie).tasks = g.tasks.map fun t =>
        if t.id = x.task then { t with state := .suspended a thr, image := some im, prioSince := s.now } else t) ∧
      ((∀ a thr, x.status ≠ .suspended a thr) → (u.granger x.taskDie).tasks = g.tasks.map fun t =>
        if t.id = x.task then { t with state := .ready, image := some im, prioSince := s.now } else t) ∧
      (∀ n b, x.barrier = some n → barriers[n] = some b →
        (∀ (m : Fin 16) (e : Bool) z, (coreOf (clusterOf c) m, e) ≠ (c, bank) → (s.cores[coreOf (clusterOf c) m]).ctx? e = some z → z.barrier ≠ some n) →
        (∀ t ∈ (s.granger (clusterDie (clusterOf c))).tasks, ∀ e a im, t.state = .restoring e a → t.image = some im → clusterOf e = clusterOf c → im.barrier ≠ some n) →
        (u.clusters[clusterOf c]).barriers[n] = none ∧
        (u.granger (clusterDie (clusterOf c))).saved = (s.granger (clusterDie (clusterOf c))).saved ++ [b])) ∧
  (∀ (k : Core) (bank : Bool) (x : Context), k.ctx? bank = some x →
    let old := k.snap bank
    let now := (k.latchResults bank).snap bank
    let rs := x.pend.filter fun p => !p.writes.isEmpty
    now.entries.length = old.entries.length + rs.length ∧ now.entries.take old.entries.length = old.entries ∧
    (∀ i p, rs[i]? = some p → ∃ e, now.entries[old.entries.length + i]? = some e ∧ e.writes = p.writes ∧ e.checked = p.checked ∧
      e.off = BitVec.ofNat 5 (p.due + 1 - k.bc) ∧ e.slot = BitVec.ofNat 3 p.pos ∧ e.age = BitVec.ofNat 16 (old.entries.length + i) ∧
      (∀ n v, p.writes = [.s n v] → e.kind = 0 ∧ e.reg = n) ∧ (∀ n v m, p.writes = [.v n v m] → e.kind = 1 ∧ e.reg = n) ∧
      (∀ n v m n' v' m', p.writes = [.v n v m, .v n' v' m'] → e.kind = 2 ∧ e.reg = n) ∧
      (∀ n v m w w' w'', p.writes = [.v n v m, w, w', w''] → e.kind = 3 ∧ e.reg = n) ∧
      (∀ q v m, p.writes = [.p q v m] → e.kind = 4 ∧ e.reg = BitVec.ofNat 5 (2 * q.toNat)) ∧ (∀ ls, p.writes = [.latches ls] → e.kind = 5)) ∧
    (∀ n : Fin 15, now.flags[n] = (x.pend.filter fun p => p.due - k.bc == n.val).foldl (fun f p => f ||| p.flags) old.flags[n])) ∧
  (∀ (k : Core) (bank : Bool) (x : Context), k.ctx? bank = some x →
    let old := k.snap bank
    ∃ y, (k.unlatch bank).ctx? bank = some y ∧ x.sameRegs y ∧ (k.unlatch bank).snap bank = ⟨[], Vector.replicate 15 0⟩ ∧ (∀ p ∈ x.pend, p ∈ y.pend) ∧
      (∀ e ∈ old.entries, ∃ p ∈ y.pend, p.due = k.bc + e.off.toNat - 1 ∧ p.writes = e.writes ∧ p.pos = e.slot.toNat ∧ p.flags = 0) ∧
      (∀ n : Fin 15, old.flags[n] ≠ 0 → ∃ p ∈ y.pend, p.due = k.bc + n.val ∧ p.writes = [] ∧ p.flags = old.flags[n])) ∧
  (∀ (s : State) (c : Fin 256) (bank : Bool) (t : Task) (l : Launch) (im : Saved), s.pkg.frz = 0 →
    let k := s.cores[c]
    let d := coreDie c
    let g := s.granger d
    let ts := im.owners.map (·.1)
    let r := s.readImage c t l
    g.tasks.find? (fun u => u.id == t.id) = some t → t.state = .restoring c bank → t.image = some im → g.launch? t.lid = some l →
    (k.awake ts = false → exec (.resume t.id c) s = .next s) ∧
    (k.awake ts = true →
      (r.2 = .held → exec (.resume t.id c) s = .next r.1) ∧
      (∀ bs m, r.2 = .bytes bs → decodeImage (r.1.imageBase c t l im) bank bs = some m → m.fits im im.owners = true →
        ∃ u : State, exec (.resume t.id c) s = .next u ∧ (u.cores[c]).ctx? bank = some { m.ctx with preempt := k.disabled } ∧
          (u.cores[c]).ctx? (!bank) = k.ctx? (!bank) ∧ (u.cores[c]).snap bank = m.snap ∧
          (u.cores[c]).granary = writeCells (k.granary.filter fun e => !ts.contains (e.1 / 24576)) (m.granary.filter fun e => ts.contains (e.1 / 24576)) ∧
          (∀ r, r ∈ (u.cores[c]).dirty ↔ (r ∈ m.dirty ∧ r / 32 ∈ ts) ∨ (r ∈ k.dirty ∧ r / 32 ∉ ts)) ∧
          (∀ e, m.matrix = some e → (u.cores[c]).matrix = { e with holder := some bank, queue := [] }) ∧
          (u.granger d).tasks = g.tasks.map fun u => if u.id = t.id then { u with state := .placed c bank } else u) ∧
      ((r.2 = .bad ∨ ∃ bs, r.2 = .bytes bs ∧ ∀ m, decodeImage (r.1.imageBase c t l im) bank bs = some m → m.fits im im.owners = false) →
        ∃ u : State, exec (.resume t.id c) s = .next u ∧ (u.cores[c]).ctx? bank = k.ctx? bank ∧ (∀ x ∈ (u.granger d).tasks, x.id ≠ t.id) ∧
          (l.crib = none → ∀ n : Fin 64, n.val ∈ ts → ((u.cores[c]).tiles[n]).owner = 0) ∧
          (u.granger d).launches = g.launches.map fun m => if m.lid = l.lid then { m with out := m.out - 1, failn := m.failn + 1 } else m))) ∧
  (∀ (s : State) (c : Fin 256) (bank : Bool), s.pkg.frz = 0 →
    let d := coreDie c
    (∀ v, (s.victims d).find? (fun v => v.2.1 == c && v.2.2 == bank) = some v → (s.granger d).gangMates v.1 = [v.1] → v.1.state = .placed c bank →
      (((s.granger d).ready s.now).any fun p => !s.served d p && s.isVictimOf d v p) = true →
      exec (.preemptRunElapsed c bank) s = .next (s.updCore c fun k => k.modCtx bank fun x => { x with preempt := true })) ∧
    ((s.granger d).ready s.now = [] → exec (.preemptRunElapsed c bank) s = .next s)) ∧
  (∀ (s : State) (d : Fin 2) (t : Task) (l : Launch) (a thr : Word), s.pkg.frz = 0 →
    let r := s.grSignal d (.signal t.id) l.part a.toNat
    (s.granger d).launches = [l] → l.deps = [] → (s.granger d).tasks = [t] → t.lid = l.lid → t.state = .suspended a thr →
    (∀ bs, r.2 = .bytes bs → ∃ u : State, exec (.signalReread d) s = .next u ∧ u.cores = s.cores ∧ (∀ b, s.sameByte u b) ∧
      (u.granger d).tasks = [if (word (leNat bs)).toInt ≤ thr.toInt then { t with state := .ready, prioSince := s.now } else t]) ∧
    (r.2 = .held ∨ r.2 = .bad → exec (.signalReread d) s = .next r.1)) ∧
  (∀ (s : State) (d : Fin 2), s.pkg.frz = 0 →
    let read := (s.granger d).launches.foldl (fun acc l => acc.rereadLaunch d l) s
    exec (.signalReread d) s = .next ((read.granger d).tasks.foldl (fun acc t => acc.rereadTask d t) read)) ∧
  (∀ (s : State) (d : Fin 2) (t : Task) (l : Launch), (s.granger d).launch? t.lid = some l →
    ((∀ a thr, t.state ≠ .suspended a thr) → s.rereadTask d t = s) ∧
    (∀ a thr, t.state = .suspended a thr →
      let r := s.grSignal d (.signal t.id) l.part a.toNat
      (∀ bs, r.2 = .bytes bs → s.rereadTask d t = if (word (leNat bs)).toInt ≤ thr.toInt then r.1.updGranger d fun g =>
        { g with tasks := g.tasks.map fun u => if u.id = t.id then { u with state := .ready, prioSince := s.now, firstReady := if u.state = .queued then s.now else u.firstReady } else u } else r.1) ∧
      (r.2 = .held ∨ r.2 = .bad → s.rereadTask d t = r.1))) ∧
  (∀ (s : State) (d : Fin 2) (l : Launch),
    let r := s.rereadDeps d l.lid l.part l.deps
    let u := r.1.updGranger d fun g => { g with launches := g.launches.map fun m => if m.lid = l.lid then { m with deps := r.2 } else m }
    (l.deps = [] → s.rereadLaunch d l = s) ∧ (l.deps ≠ [] → r.2 ≠ [] → s.rereadLaunch d l = u) ∧
    (l.deps ≠ [] → r.2 = [] → s.rereadLaunch d l = u.updGranger d fun g => { g with tasks := g.tasks.map fun t =>
      if t.lid = l.lid ∧ t.state = .queued then { t with state := .ready, prioSince := s.now, firstReady := s.now } else t })) ∧
  (∀ (s : State) (d : Fin 2) (lid : Nat) (part : BitVec 4) (p : Dep) (ps : List Dep),
    let r := s.grSignal d (.deps lid) part p.addr.toNat
    let after (u : State) (left : List Dep) : Prop := s.rereadDeps d lid part (p :: ps) = ((u.rereadDeps d lid part ps).1, left ++ (u.rereadDeps d lid part ps).2)
    s.rereadDeps d lid part [] = (s, []) ∧ (p.lost = true → after s [p]) ∧
    (p.lost = false → (∀ bs, r.2 = .bytes bs → after r.1 (if (word (leNat bs)).toInt ≤ p.thr.toInt then [] else [p])) ∧
      (r.2 = .held → after r.1 [p]) ∧ (r.2 = .bad → after r.1 [{ p with lost := true }]))) ∧
  (∀ (s : State) (d : Fin 2) (l : Launch) (p : Dep), s.pkg.frz = 0 →
    let r := s.grSignal d (.deps l.lid) l.part p.addr.toNat
    (s.granger d).launches = [l] → l.deps = [p] → p.lost = false → (∀ t ∈ (s.granger d).tasks, t.state = .ready ∨ t.state = .queued) →
    (∀ bs, r.2 = .bytes bs → ∃ u : State, exec (.signalReread d) s = .next u ∧ u.cores = s.cores ∧
      let met : Prop := (word (leNat bs)).toInt ≤ p.thr.toInt
      (met → (u.granger d).launches = [{ l with deps := [] }] ∧ (u.granger d).tasks = (s.granger d).tasks.map fun t =>
        if t.lid = l.lid ∧ t.state = .queued then { t with state := .ready, prioSince := s.now, firstReady := s.now } else t) ∧
      (¬ met → (u.granger d).launches = [l] ∧ (u.granger d).tasks = (s.granger d).tasks)) ∧
    (r.2 = .bad → ∃ u : State, exec (.signalReread d) s = .next u ∧ (u.granger d).launches = [{ l with deps := [{ p with lost := true }] }] ∧
      (u.granger d).tasks = (s.granger d).tasks)) ∧
  (∀ (s : State) (c : Fin 256) (q : Fin 4), s.pkg.frz = 0 →
    let k := s.cores[c]
    let ts := (List.range 16).map fun j => 16 * q.val + j
    (k.quarters[q] = .awake → (∀ t ∈ ts, (k.tile t).owner = 0 ∧ (k.tile t).since + 270000 ≤ s.now) → s.neededHere c ts = false →
      exec (.quarterGate c q) s = .next (s.updCore c fun k => { k with quarters := k.quarters.set q .gated })) ∧
    (∀ t ∈ ts, (k.tile t).owner ≠ 0 → exec (.quarterGate c q) s = .next s))

/-- R230, R231, R250–R254 (log entry 11): a save image keeps the task. The coding of 16-byte words: whatever codes a section decodes to
the words that its records give, and the bytes that the model writes decode to the section again, with what stands behind them untouched. The context
section brings back every register, control register, latch and lock; an entry of the latch bank has its header, payload and one lane mask, and what is read
from them does to the registers what the entry does; a
continuation brings back the command as it issued and how far it has come; the granary section the dirty rows with every byte of them, and the accumulator section
rows, planes and buffers. -/
def Obligations.ImageKeepsTheTask : Prop :=
  (∀ bs rest : List Byte, bs.length % 16 = 0 → decodeSection bs.length (codeSection bs ++ rest) = some (bs, rest)) ∧
  (∀ (fuel : Nat) (last : Option (List Byte)) (h : Byte) (bs ws : List (List Byte)) (body tail : List Byte),
    let n := h.toNat % 64 + 1
    let next (done : List (List Byte)) : Option (List Byte) := done.getLast?.or last
    let reads (done : List (List Byte)) (from_ : List Byte) : Prop := decodeWords fuel (next done) from_ = some (ws, tail)
    let gives (body : List Byte) (done : List (List Byte)) : Prop := decodeWords (fuel + 1) last (h :: body) = some (done ++ ws, tail)
    (h.toNat / 64 = 0 → bs.length = n → (∀ w ∈ bs, w.length = 16) → reads bs body → gives (bs.flatten ++ body) bs) ∧
    (h.toNat / 64 = 1 → reads (List.replicate n (List.replicate 16 0)) body → gives body (List.replicate n (List.replicate 16 0))) ∧
    (∀ w, h.toNat / 64 = 2 → last = some w → reads (List.replicate n w) body → gives body (List.replicate n w)) ∧
    (h.toNat / 64 = 2 → last = none → decodeWords (fuel + 1) last (h :: body) = none) ∧
    (h = 0xC0 → decodeWords (fuel + 1) last (h :: body) = some ([], body)) ∧
    (h.toNat / 64 = 3 → h ≠ 0xC0 → decodeWords (fuel + 1) last (h :: body) = none)) ∧
  (∀ (base x : Context), x.locks.length ≤ 32 → (∀ a ∈ x.locks, a < 2 ^ 52) → x.tvec &&& 0xFFFFFFFFFFFFC = x.tvec → x.tcause &&& 0x1FFF = x.tcause →
    base.partId = x.partId → base.tindex = x.tindex →
    let y := Context.ofSection base x.locks.length x.sectionBytes
    x.sectionBytes.length = 27088 + 16 * x.locks.length ∧ x.sameRegs y ∧ y.tepc = x.tepc ∧ y.tcause = x.tcause ∧ y.tval = x.tval ∧ y.locks = x.locks) ∧
  (∀ (x : Context) (e : LatchEntry) (n : BitVec 5) (v : SVal) (rest : List Byte), e.writes = [.s n v] → e.kind = 0 → e.reg = n → e.checked = false →
    readEntry (e.bytes x ++ rest) = some (e, rest)) ∧
  (∀ (x : Context) (e : LatchEntry) (rest : List Byte), e.checked = false →
    (∀ q v m, e.writes = [.p q v m] → e.kind = 4 → e.reg = BitVec.ofNat 5 (2 * q.toNat) → readEntry (e.bytes x ++ rest) = some (e, rest)) ∧
    (∀ ls, e.writes = [.latches ls] → ls.length = 4 → e.kind = 5 → readEntry (e.bytes x ++ rest) = some (e, rest)) ∧
    (∀ vs : List (BitVec 5 × VVal × VVal), e.writes = vs.map (fun w => RegWrite.v w.1 w.2.1 w.2.2) → (vs.map fun w => w.1).Nodup →
      (vs.length = 1 ∧ e.kind = 1 ∧ vs.map (fun w => w.1) = [e.reg]) ∨ (vs.length = 2 ∧ e.kind = 2) ∨ (vs.length = 4 ∧ e.kind = 3) →
      ∃ r, readEntry (e.bytes x ++ rest) = some (r, rest) ∧ { r with writes := e.writes } = e ∧ x.writes r.writes = x.writes e.writes)) ∧
  (∀ (x : Context) (e : LatchEntry),
    (e.bytes x).take 4 = leBytes 4 (e.reg.toNat * 2 ^ 27 + e.kind.toNat * 2 ^ 24 + e.off.toNat * 2 ^ 19 + e.slot.toNat * 2 ^ 16 + e.age.toNat) ∧
    (∀ n v m, e.writes = [.v n v m] → e.kind = 1 → (e.bytes x).drop 4 = ((x.v[n.toFin]).merge v m).image ++ leBytes 64 (lanesOf m).toNat) ∧
    (∀ n v m n' v' m', e.writes = [.v n v m, .v n' v' m'] → e.kind = 2 → (e.bytes x).drop 4 =
      leBytes 16 n.toNat ++ ((x.v[n.toFin]).merge v m).image ++ (leBytes 16 n'.toNat ++ ((x.v[n'.toFin]).merge v' m').image) ++
        leBytes 64 (entryMask 2 [lanesOf m, lanesOf m']).toNat) ∧
    (∀ n v m n' v' m' a b h a' b' h', e.writes = [.v n v m, .v n' v' m', .v a b h, .v a' b' h'] → e.kind = 3 → (e.bytes x).drop 4 =
      (leBytes 16 n.toNat ++ ((x.v[n.toFin]).merge v m).image) ++ (leBytes 16 n'.toNat ++ ((x.v[n'.toFin]).merge v' m').image) ++
        (leBytes 16 a.toNat ++ ((x.v[a.toFin]).merge b h).image) ++ (leBytes 16 a'.toNat ++ ((x.v[a'.toFin]).merge b' h').image) ++
        leBytes 64 (entryMask 3 [lanesOf m, lanesOf m', lanesOf h, lanesOf h']).toNat) ∧
    (∀ q v m, e.writes = [.p q v m] → e.kind = 4 → (e.bytes x).drop 4 = leBytes 64 v.toNat ++ leBytes 64 m.toNat) ∧
    (∀ l l' l'' l''', e.writes = [.latches [l, l', l'', l''']] → e.kind = 5 →
      let one (o : Option Latch) : List Byte := match o with
        | some l => leBytes 3 l.scale.toNat ++ [l.xv, BitVec.ofNat 8 l.oidx.toNat, if l.nanb then 1 else 0, 0, 0]
        | none => List.replicate 8 0
      (e.bytes x).drop 4 = one l ++ one l' ++ one l'' ++ one l''' ++
        leBytes 64 (l.isSome.toNat + 2 * l'.isSome.toNat + 4 * l''.isSome.toNat + 8 * l'''.isSome.toNat))) ∧
  (∀ (a b c d : PData) (u : Nat), u < 512 →
    ((entryMask 2 [a, b]).getLsbD u = true ↔ ∃ j < 2, (if u < 256 then a else b).getLsbD (2 * (u % 256) + j) = true) ∧
    ((entryMask 3 [a, b, c, d]).getLsbD u = true ↔
      ∃ j < 4, (if u < 128 then a else if u < 256 then b else if u < 384 then c else d).getLsbD (4 * (u % 128) + j) = true)) ∧
  (∀ (c : WCmd) (rest : List Byte), c.regs.length < 256 → c.images.length < 256 → c.gate.length < 2 ^ 32 → c.item < 2 ^ 32 →
    ∃ y, readWain (c.bytes ++ rest) = some (y, rest) ∧ y.op = c.op ∧ y.ws = c.ws ∧ y.rmode = c.rmode ∧ y.token = c.token ∧ y.item = c.item ∧
      y.enabled = c.enabled ∧ y.checked = c.checked ∧ y.ecode = c.ecode ∧ y.flags = c.flags ∧ y.regs = c.regs ∧ y.images = c.images ∧
      y.gate = c.gate ∧ y.gateDie = c.gateDie ∧ y.started = false ∧ y.held = none) ∧
  (∀ (c : FCmd) (rest : List Byte), c.items.length < 65536 → (∀ b, c.data = some b → b.length < 65536) →
    (∀ i ∈ c.items, i.off < 65536 ∧ i.len < 65536 ∧ i.data.length < 65536) →
    ∃ y, readFabric (c.contBytes ++ rest) = some (y, rest) ∧ y.op = c.op ∧ y.ty = c.ty ∧ y.fs = c.fs ∧ y.rmode = c.rmode ∧ y.token = c.token ∧
      y.enabled = c.enabled ∧ y.reg = c.reg ∧ y.scope = c.scope ∧ y.data = c.data ∧ y.dest = c.dest ∧ y.flags = c.flags ∧ y.checked = c.checked ∧ y.hact = c.hact ∧
      y.items = c.items.map fun i => { i with tx := 0, state := match i.state with | .done => .done | .failed e => .failed e | _ => .waiting }) ∧
  (∀ (dirty : List Nat) (m : List Host.Cell) (rest : List Byte), ∃ n, readGranary (granarySection dirty m ++ rest) = some (n, rest) ∧
    (∀ r, r ∈ n.1 ↔ r ∈ dirty ∧ r < 2048) ∧
    ∀ a, a < 1572864 → readCell n.2 a = if a / 768 ∈ dirty then readCell m a else 0) ∧
  (∀ (m : Matrix) (bank : Bool) (rest : List Byte), (∀ n ∈ m.active.bad ++ m.shadow.bad, n < 64) →
    ∃ y : Matrix, readMatrix bank (m.sectionBytes ++ rest) = some (y, rest) ∧ y.holder = some bank ∧ y.queue = [] ∧
      y.active.cols = m.active.cols ∧ y.active.tag = m.active.tag ∧ (∀ n, n ∈ y.active.bad ↔ n ∈ m.active.bad) ∧
      y.shadow.cols = m.shadow.cols ∧ y.shadow.tag = m.shadow.tag ∧ (∀ n, n ∈ y.shadow.bad ↔ n ∈ m.shadow.bad) ∧
      y.activeScale = m.activeScale ∧ y.shadowScale = m.shadowScale ∧
      (∀ n, n < 1024 → (y.actScale.lookup n).getD scaleEmpty = (m.actScale.lookup n).getD scaleEmpty ∧ y.acc.lookup n = m.acc.lookup n ∧
        (n ∈ y.accBad ↔ n ∈ m.accBad)))

/-- R223, R243, R244, R246, R247, R341, R350, R352, R353, R355, R420, R442, R455, R459 (log entries
16, 49, 50 and 51 for what the rules leave open, 58 for an answer that comes while the clocks stand, 63 for a failed boot): the fault service and the translations. A FANS
write that answers an outstanding request ends it: resolved, a bank that waits on the page
evaluates its bundle again, an item, a request of the target agent or a read of the Granger that
is held on it is tried again, and the tables are walked again; refused, the bank raises its
cause at its word next, the item fails with ECODE 3, and the request and the read are refused. A
Wain command that is held on the page goes on from the item it is held on, or behind it with ECODE 3 as its first failure. A
bank that waited for its held items is ready once none is left. A write that answers none is
ignored, and one that comes while the clocks stand waits for them. A write of INVCTL with GO
starts an invalidation, unless one runs; it ends once nothing that used the translations is on
its way, and then no covered translation is used again; with WB the lines of covered pages are
written back and dropped on both dies; every page that the tables map is known to it. After a failed boot no such write does anything. A way that is gated or woken holds no line afterwards, its newer lines
written back. -/
def Obligations.FaultAnswersAndInvalidation : Prop :=
  (∀ (s : State) (d : Fin 2) (v : BitVec 64),
    (s.pkg.halted = true → exec (.faultResolve d v) s = .next s ∧ exec (.faultRefuse d v) s = .next s ∧ exec (.invalidate d v) s = .next s) ∧
    (v.toNat % 4 ≠ 1 → exec (.faultResolve d v) s = .next s) ∧ (v.toNat % 4 ≠ 2 → exec (.faultRefuse d v) s = .next s) ∧
    (s.pkg.frz ≠ 0 → s.pkg.halted = false → let later := s.updDie d fun x => { x with answers := x.answers ++ [v] }
      (v.toNat % 4 = 1 → exec (.faultResolve d v) s = .next later) ∧ (v.toNat % 4 = 2 → exec (.faultRefuse d v) s = .next later)) ∧
    (s.pkg.frz = 0 → (s.dies[d]).answered? v = none → exec (.faultResolve d v) s = .next s ∧ exec (.faultRefuse d v) s = .next s) ∧
    (∀ f (c : Fin 256) (b : Bool) (x : Context) (w : WCmd) (ws : List WCmd) (h : HeldFault), s.pkg.frz = 0 → s.pkg.halted = false → (s.dies[d]).answered? v = some f →
      coreDie c = d → (s.cores[c]).ctx? b = some x → x.partId = f.part → x.wain = w :: ws → w.held = some h → h.addr / 65536 = f.page → h.kind.toNat + 1 = f.kind →
      (∀ (c' : Fin 256) b' y, (c', b') ≠ (c, b) → (s.cores[c']).ctx? b' = some y → ∀ w ∈ y.wain, w.held = none) →
      (∀ g ∈ (s.dies[d]).faults, g.slot ≠ f.slot → ¬ (g.page = f.page ∧ g.part = f.part ∧ g.kind = f.kind)) →
      let goes (e : Instr) (w' : WCmd) : Prop := ∃ (u t : State) (y z z' : Context), u.mem = s.mem ∧ (u.dies[d]).faults = (s.dies[d]).faults.filter (fun g => g.slot != f.slot) ∧
        (u.cores[c]).ctx? b = some y ∧ y.wain = x.wain ∧ x.sameRegs y ∧ exec e s = .next t ∧ t.mem = (u.runWain c b w' y).mem ∧
        ((u.runWain c b w' y).cores[c]).ctx? b = some z ∧ (t.cores[c]).ctx? b = some z' ∧ z'.wain = z.wain ∧ z.sameRegs z'
      (v.toNat % 4 = 1 → goes (.faultResolve d v) { w with held := none }) ∧
      (v.toNat % 4 = 2 → goes (.faultRefuse d v)
        { w with held := none, item := w.item + w.heldItems, ecode := if w.ecode = 0 then 3 else w.ecode,
                 res := if (w.item + w.heldItems) % w.rlen = 0 then none else w.res })) ∧
    (∀ f, s.pkg.frz = 0 → s.pkg.halted = false → (s.dies[d]).answered? v = some f →
      (∀ (c : Fin 256) b y, (s.cores[c]).ctx? b = some y → ∀ w ∈ y.wain, w.held = none) →
      (∀ g ∈ (s.dies[d]).faults, g.slot ≠ f.slot → ¬ (g.page = f.page ∧ g.part = f.part ∧ g.kind = f.kind)) →
      let waits (c : Fin 256) (b : Bool) (x : Context) (cause : BitVec 8) (addr : Word) (kind : BitVec 3) (pos : BitVec 4) : Prop :=
        coreDie c = d ∧ (s.cores[c]).ctx? b = some x ∧ x.status = .faultWaiting cause addr kind pos ∧ x.partId = f.part ∧
          addr.toNat / 65536 = f.page ∧ kind.toNat = f.kind
      let on (h : HeldFault) : Prop := h.addr / 65536 = f.page ∧ h.kind.toNat + 1 = f.kind
      let read (h : GHold) : Prop := h.part = f.part ∧ h.page = f.page ∧ h.kind = f.kind
      let common (t : State) (st : ItemState) (no : Bool) : Prop :=
        (t.dies[d]).faults = (s.dies[d]).faults.filter (fun g => g.slot != f.slot) ∧
        (∀ (c : Fin 256) b (x : Context) (n m : Nat) (cmd : FCmd) (item : FItem) h, coreDie c = d → (s.cores[c]).ctx? b = some x → x.partId = f.part → x.fabric[n]? = some cmd →
          cmd.items[m]? = some item → item.state = .held h → on h →
          ∃ (y : Context) (cmd' : FCmd) (item' : FItem), (t.cores[c]).ctx? b = some y ∧ y.fabric[n]? = some cmd' ∧ cmd'.items[m]? = some item' ∧ item'.state = st) ∧
        (∀ (c : Fin 256) b x, coreDie c = d → (s.cores[c]).ctx? b = some x → x.partId = f.part → x.status = .heldWaiting →
          (∀ cmd ∈ x.fabric, ∀ item ∈ cmd.items, ∀ h, item.state = .held h → on h) →
          ∃ y, (t.cores[c]).ctx? b = some y ∧ y.status = .running) ∧
        (∀ (n : Nat) (q : TReq) h, (s.dies[d]).target[n]? = some q → q.held = some h → q.part = f.part → on h →
          (t.dies[d]).target[n]? = some { q with held := none, refused := q.refused || no })
      (v.toNat % 4 = 1 → ∃ t : State, exec (.faultResolve d v) s = .next t ∧ common t .waiting false ∧
        (∀ c b x cause addr kind pos, waits c b x cause addr kind pos → ∃ y, (t.cores[c]).ctx? b = some y ∧ y.status = .running ∧ x.sameRegs y ∧ y.pc = x.pc) ∧
        (∀ e ∈ (t.dies[d]).tlb, e.part = f.part → e.page = f.page → e.live = false) ∧
        (∀ h ∈ (t.granger d).holds, read h → h.refused = true)) ∧
      (v.toNat % 4 = 2 → ∃ t : State, exec (.faultRefuse d v) s = .next t ∧ common t (.failed 3) true ∧
        (∀ c b x cause addr kind pos, waits c b x cause addr kind pos →
          ∃ y, (t.cores[c]).ctx? b = some y ∧ y.status = .refused cause addr pos ∧ x.sameRegs y ∧ y.pc = x.pc) ∧
        (∀ h ∈ (s.granger d).holds, read h → { h with refused := true } ∈ (t.granger d).holds)))) ∧
  (∀ (s : State) (d : Fin 2) (v : BitVec 64), let die := s.dies[d]
    let run : Invalidation := ⟨BitVec.ofNat 4 (v.toNat / 2 ^ 32 % 16), die.invaddr.toNat / 65536 % 2 ^ 36, v.toNat / 256 % 2 ^ 24, v.getLsbD 1⟩
    s.pkg.halted = false → exec (.invalidate d v) s = .next (s.updDie d fun x =>
      { x with invctl := v &&& 0x0000000FFFFFFF02, invRun := if v.getLsbD 0 = true ∧ x.invRun = none then some run else x.invRun })) ∧
  (∀ (s : State) (d : Fin 2) (i : Invalidation), s.pkg.frz = 0 → (s.dies[d]).invRun = some i →
    let used := (s.dies[0]).tlb ++ (s.dies[1]).tlb ++ s.mapped d i.part
    let goes (l : BarnLine) : Bool := (used.any fun e => i.covers e && e.holds l.line) || !used.any fun e => e.holds l.line
    (s.inUse d i.part = true → exec (.invalidateDone d) s = .next s) ∧
    (s.inUse d i.part = false → ∃ t : State, exec (.invalidateDone d) s = .next t ∧ (t.dies[d]).invRun = none ∧ t.cores = s.cores ∧
      (t.dies[d]).tlb = (s.dies[d]).tlb.map (fun e => if i.covers e then { e with live := false } else e) ∧
      (i.wb = false → t.mem = s.mem ∧ ∀ e : Fin 2, (t.dies[e]).barn = (s.dies[e]).barn) ∧
      (i.wb = true → (∀ e : Fin 2, (t.dies[e]).barn = (s.dies[e]).barn.filter (fun l => !goes l)) ∧
        t.mem = (((s.dies[0]).barn ++ (s.dies[1]).barn).filter fun l => goes l && l.dirty).foldl (fun m l => writeBytes m (128 * l.line) l.data) s.mem))) ∧
  (∀ (s : State) (d : Fin 2) (part : BitVec 4) (va level : Nat) (e : Word), va < 2 ^ 52 → s.walk d part va = .leaf e level →
    ∃ t ∈ s.mapped d part, t.part = part ∧ t.leaf = e ∧ t.level = level ∧ t.page * 65536 ≤ va ∧ va < t.page * 65536 + 2 ^ levelBits level) ∧
  (∀ (s : State) (d : Fin 2) (part : BitVec 4) (va : Nat), ((s.dies[d]).troot[part.toFin]).getLsbD 0 = false → s.currentLeaf d part va = .fault 4) ∧
  (∀ (s : State) (d : Fin 2) (way : Fin 16) (gate : Bool), s.pkg.frz = 0 → ∃ t : State, exec (.barnWayGate d way gate) s = .next t ∧
    (t.dies[d]).barn = (s.dies[d]).barn.filter (fun l => !(l.way == way)) ∧
    (t.dies[d]).gatedWays = (if gate then (s.dies[d]).gatedWays ||| (1#16 <<< way.val) else (s.dies[d]).gatedWays &&& ~~~(1#16 <<< way.val)) ∧
    t.mem = (((s.dies[d]).barn.filter fun l => l.way == way).filter fun l => l.dirty).foldl (fun m l => writeBytes m (128 * l.line) l.data) s.mem)

/-! ### Queues, launches and cribs (spec/11, spec/12) -/

/-- R313–R317, R321, R322, R327, R377, R413, R459 (log entries 17, 22, 36, 63 and 75 for what the rules leave open): the Granger's queues. A doorbell sets QTAIL of a host queue, up to what its ring
can hold beyond QHEAD, does nothing to a device
queue, and fetches; QCFG with EN = 1 takes the fields and starts a stopped, idle queue at 0, and leaves a running or active one as it is; EN = 0
stops fetch at once; after a failed boot none of these does anything. A fetch brings the packet at QHEAD to the front, journalled as accepted; one that is malformed or cannot be read fails at once and the
next is fetched. A journal entry has the layout of R317, and one that cannot be written stops the queue. The command at the front: a LAUNCH asks for acceptance. A WAIT is COMPLETE once its signal
has come down, and else waits; unreadable, it fails and stops the queue. A SIGDEC waits for the earlier commands of its queue, is then terminal, and lowers its signal. COUNTER opens a
free counter, with status 1 for one in use, and closes one with the signal it names. A CANCEL of nothing has status 1; one of tasks that have not been placed takes them
out of the list and completes; one of a running task stops it at its next boundary, with its engines, whose commands that have not
started post with ECODE 7, and completes after that; one of a task at its end leaves it as it is. A TEMPLATE
keeps the 256 bytes of its record. A TABLEUPD waits in the pipeline that its batch names. A command that ends leaves the queue,
and the next one comes to the front. -/
def Obligations.QueuesAndFrontCommands : Prop :=
  (∀ (s : State) (d : Fin 2) (q : Fin 64) (v : BitVec 64), s.pkg.halted = true →
     exec (.qtailDoorbell d q v) s = .next s ∧ exec (.queueEnable d q v) s = .next s ∧ exec (.queueDisable d q v) s = .next s) ∧
  (∀ (s : State) (d : Fin 2) (q : Fin 64) (v : BitVec 64), s.pkg.halted = false →
     let u := s.queue d q
     let ends (e : Instr) (w : Queue) : Prop := exec e s = .next (s.updQueue d q fun _ => w)
     let rung : Queue := if u.kind then u else { u with qtail := min v.toNat (u.qhead + 2 ^ (u.size.toNat + 4)) }
     let fields : Queue := { u with part := BitVec.ofNat 4 (v.toNat / 2 ^ 28 % 16), kind := v.getLsbD 27, pmax := BitVec.ofNat 3 (v.toNat / 2 ^ 24 % 8), size := BitVec.ofNat 4 (v.toNat / 2 ^ 20 % 16) }
     exec (.qtailDoorbell d q v) s = .next ((s.updQueue d q fun _ => rung).fetch d q) ∧ (u.en = false → ends (.qtailDoorbell d q v) rung) ∧
     (v.getLsbD 0 = true →
       (u.en = true ∨ (s.granger d).active q = true → exec (.queueEnable d q v) s = .next (s.fetch d q)) ∧
       (u.en = false → (s.granger d).active q = false → ends (.queueEnable d q v) { fields with en := true, qhead := 0, qtail := 0, stuck := false })) ∧
     (v.getLsbD 0 = false →
       (u.en = true ∨ (s.granger d).active q = true → ends (.queueDisable d q v) { u with en := false, stuck := false }) ∧
       (u.en = false → (s.granger d).active q = false → ends (.queueDisable d q v) { fields with en := false, stuck := false }))) ∧
  (∀ (s : State) (d : Fin 2) (q : Fin 64), s.pkg.frz = 0 →
     let u := s.queue d q
     let ring := 2 ^ (u.size.toNat + 4)
     let ready : Prop := u.en = true ∧ u.stuck = false ∧ u.size.toNat ≤ 12 ∧ u.qhead < u.qtail ∧ (s.granger d).front? q = none ∧
       (∀ c ∈ (s.granger d).cmds, c.queue = q → u.qhead < c.idx + ring) ∧ s.pkg.halted = false
     let r := s.grRead d (.front q) u.part (u.qbase.toNat / 64 % 2 ^ 46 * 64 + 64 * (u.qhead % ring)) 64
     let raised (t : State) : State := t.updQueue d q fun u => { u with qhead := u.qhead + 1 }
     let malformed (bs : List Byte) : Prop := leNat (bs.take 1) = 0 ∨ 9 < leNat (bs.take 1) ∨
       (leNat (bs.take 1) ≠ 6 ∧ leNat (bs.take 1) ≠ 7 ∧ ((bs.drop 1).take 3).any (· != 0) = true)
     (¬ ready → s.fetch d q = s) ∧
     (ready → r.2 = .held → s.fetch d q = r.1) ∧
     (ready → r.2 = .bad → s.fetch d q = (raised ((r.1.journalAt d q u.qhead (leBytes 8 u.qhead ++ [0, 0, 0, 0, 4, 0xFE] ++ List.replicate 18 0)).noteArm d q u.qhead 0xFE)).fetch d q) ∧
     (∀ bs, ready → r.2 = .bytes bs → let c : QCmd := ⟨q, u.qhead, bs, 1, 0, 0, true, false⟩
       (malformed bs → s.fetch d q = (raised ((r.1.journal d c 4 0xFF).noteArm d q u.qhead 0xFF)).fetch d q) ∧
       (¬ malformed bs → s.fetch d q = ((raised r.1).updGranger d fun g => { g with cmds := g.cmds ++ [c] }).journal d c 1 0))) ∧
  (∀ (s : State) (d : Fin 2) (c : QCmd) (st status : Nat),
     let u := s.queue d c.queue
     let entry := leBytes 8 c.idx ++ leBytes 4 (crc32c 0xFFFFFFFF c.packet).toNat ++ [BitVec.ofNat 8 st, BitVec.ofNat 8 status, 0, 0] ++ leBytes 4 c.lid ++ leBytes 4 c.failn ++ List.replicate 8 0
     let home := u.jbase.toNat / 64 % 2 ^ 46 * 64 + 32 * (c.idx % 2 ^ (u.size.toNat + 4))
     (∀ ps, s.resolve d u.part [] home 32 .write = .pieces ps → s.journal d c st status = (s.cachePages d u.part home 32).writePieces ps entry) ∧
     ((∀ ps, s.resolve d u.part [] home 32 .write ≠ .pieces ps) → s.journal d c st status = s.updQueue d c.queue fun u => { u with stuck := true })) ∧
  (∀ (s : State) (d : Fin 2) (who : Asker) (part : BitVec 4) (va pa n : Nat) (leaf amount : Word), s.memoryWf = true → va % 8 = 0 → pa % 8 = 0 →
     (physKind pa = .loft ∨ ∃ e, physKind pa = .hbm e) → s.resolve d part [] va 8 .write = .pieces [(pa, n, leaf)] → s.memBad pa 8 = false →
     ∃ u : State, s.grDecrement d who part va amount = (u, false) ∧ word (u.devNat pa 8) = word (s.devNat pa 8) - amount ∧ u.reread = true ∧ u.cores = s.cores) ∧
  (∀ (s : State) (d : Fin 2) (q : Fin 64) (c : QCmd), s.pkg.frz = 0 → (s.granger d).front? q = some c → c.queue = q →
     let g := s.granger d
     let part := (s.queue d q).part
     let sig := s.grSignal d (.front q) part (c.get 8 8)
     let rec256 := s.grRead d (.front q) part (c.get 16 8) 256
     let batch := s.readBatch d (.front q) part (c.get 8 8)
     let ended (u : State) (st status : Nat) : State := (u.finishCmd d c st status).fetch d q
     let counters := g.counters (c.get 8 1)
     let named := g.named part (c.get 8 1) (c.get 12 4) (c.get 16 4)
     (∀ (u : State) st status, ∀ x ∈ ((u.finishCmd d c st status).granger d).cmds, ¬ (x.queue = c.queue ∧ x.idx = c.idx)) ∧
     (c.type = 1 → exec (.launch d q) s = .next (s.updCmd d c fun x => { x with asked := true })) ∧
     (c.type = 2 →
       (∀ bs, sig.2 = .bytes bs → exec (.queueWait d q) s = .next (if (word (leNat bs)).toInt ≤ (word (c.get 16 8)).toInt then ended sig.1 3 0 else sig.1)) ∧
       (sig.2 = .held → exec (.queueWait d q) s = .next sig.1) ∧
       (sig.2 = .bad → exec (.queueWait d q) s = .next ((sig.1.finishCmd d c 4 2).updQueue d q fun u => { u with stuck := true }))) ∧
     (c.type = 3 → (∀ h ∈ g.decs, h.queue ≠ q) →
       ((∃ x ∈ g.cmds, x.queue = q ∧ x.idx < c.idx) → exec (.sigdec d q) s = .next s) ∧
       (∀ u held, (∀ x ∈ g.cmds, x.queue = q → c.idx ≤ x.idx) →
         (s.finishCmd d c 3 0).grDecrement d (.sigdec q) part (c.get 8 8) (word (c.get 16 8)) = (u, held) →
         exec (.sigdec d q) s = .next
           ((if held then u.updGranger d fun g => { g with decs := g.decs ++ [⟨q, part, c.get 8 8, word (c.get 16 8)⟩] } else u).fetch d q))) ∧
     (∀ h u, c.type = 3 → g.decs.find? (fun h => h.queue == q) = some h → s.grDecrement d (.sigdec q) h.part h.addr h.amount = (u, true) →
       exec (.sigdec d q) s = .next u) ∧
     (c.type = 4 → g.cancelObject part (c.get 8 1) (c.get 12 4) (c.get 16 4) = false → exec (.cancel d q) s = .next (ended s 3 1)) ∧
     (c.type = 4 → g.cancelObject part (c.get 8 1) (c.get 12 4) (c.get 16 4) = true → c.get 8 1 < 4 →
       ((∀ p ∈ named, (p.1.state = .ready ∨ p.1.state = .queued) ∧ p.1.image = none ∧ p.2.crib = none) → c.idx < (s.queue d q).qhead →
         ∃ u : State, exec (.cancel d q) s = .next u ∧ u.cores = s.cores ∧ (∀ x ∈ (u.granger d).cmds, ¬ (x.queue = q ∧ x.idx = c.idx)) ∧
           (∀ t, t ∈ (u.granger d).tasks ↔ t ∈ g.tasks ∧ ∀ p ∈ named, p.1.id ≠ t.id) ∧
           (c.get 8 1 = 1 → ∀ l ∈ (u.granger d).launches, l.lid = c.get 12 4 → l.part = part → l.cancel = true)) ∧
       (∀ t l (k : Fin 256) bank x, named = [(t, l)] → t.state = .placed k bank → (s.cores[k]).ctx? bank = some x → x.begun = true → x.atEnd = false → (∀ w ∈ x.wain, w.held = none) →
         let dropped (n : Fin 32) : Nat := ((s.cores[k]).matrix.queue.filter fun m => m.bank == bank && !m.started && m.token.toFin == n).length +
           (x.wain.filter fun w => !w.started && w.token.toFin == n).length
         ∃ (u : State) (y : Context), exec (.cancel d q) s = .next u ∧ (u.cores[k]).ctx? bank = some y ∧ y.cancel = true ∧ ({ x with k := y.k } : Context).sameRegs y ∧
           (∀ n : Fin 32, y.k[n] = if dropped n = 0 then x.k[n] else ⟨x.k[n].count + BitVec.ofNat 16 (dropped n), true, if x.k[n].err then x.k[n].ecode else 7⟩) ∧
           ((s.cores[k]).atBoundary bank = true → y.status = .ending x.pc 0 0 9) ∧
           y.wain = x.wain.filter (fun w => w.started) ∧
           y.fabric = (x.fabric.map fun f => { f with items := f.items.map fun i =>
             match i.state with | .waiting => { i with state := .failed 7 } | .held _ => { i with state := .failed 7 } | _ => i }) ∧
           (∀ m ∈ (u.cores[k]).matrix.queue, m.bank = bank → m.started = true) ∧
           (∃ z ∈ (u.granger d).cmds, z.queue = q ∧ z.idx = c.idx ∧ z.front = false)) ∧
       (∀ t l (k : Fin 256) bank x, named = [(t, l)] → t.state = .placed k bank → (s.cores[k]).ctx? bank = some x → x.atEnd = true →
         ∃ u : State, exec (.cancel d q) s = .next u ∧ u.cores = s.cores)) ∧
     (c.type = 5 → ((c.get 9 1 ≠ 0 ∧ c.get 9 1 ≠ 1) ∨ counterNamed c = false) → exec (.counterOpen d q) s = .next (ended s 4 0xFF)) ∧
     (c.type = 5 → counterNamed c = true → c.get 9 1 = 0 → exec (.counterOpen d q) s = .next
       (if counters.any (fun k => k.id == c.get 12 4) then ended s 4 1
        else ended (s.updGranger d fun g => g.setCounters (c.get 8 1) (⟨c.get 12 4, part, false, 0, 0, false, 0⟩ :: g.counters (c.get 8 1))) 3 0)) ∧
     (c.type = 5 → counterNamed c = true → c.get 9 1 = 1 → exec (.counterClose d q) s = .next
       ((((s.updGranger d fun g => g.setCounters (c.get 8 1) ((g.counters (c.get 8 1)).map fun k =>
         if k.id == c.get 12 4 && k.part == part then { k with closed := true, signal := word (c.get 16 8) } else k)).finishCmd d c 3 0).settleLevel d
           (c.get 8 1)).fetch d q)) ∧
     (c.type = 9 → (1023 < c.get 8 4 → exec (.template d q) s = .next (ended s 4 2)) ∧
       (c.get 8 4 ≤ 1023 →
         (∀ bs, rec256.2 = .bytes bs → exec (.template d q) s = .next
           (ended (rec256.1.updGranger d fun g =>
             { g with templates := ⟨part, c.get 8 4, bs, word (c.get 16 8)⟩ :: g.templates.filter fun t => !(t.part == part && t.index == c.get 8 4) }) 3 0)) ∧
         (rec256.2 = .held → exec (.template d q) s = .next rec256.1) ∧ (rec256.2 = .bad → exec (.template d q) s = .next (ended rec256.1 4 1)))) ∧
     (c.type = 8 →
       (∀ (cl : Fin 8) rs, batch.2 = .ok (cl, rs) → ∃ t : State, exec (.tableupd d q) s = .next t ∧
         (t.clusters[(⟨8 * d.val + cl.val, by omega⟩ : Fin 16)]).batches =
           (s.clusters[(⟨8 * d.val + cl.val, by omega⟩ : Fin 16)]).batches ++ [⟨part, rs, c.queue, c.idx⟩]) ∧
       (batch.2 = .held → exec (.tableupd d q) s = .next batch.1) ∧ (batch.2 = .bad → exec (.tableupd d q) s = .next (ended batch.1 4 1))))

/-- R203, R296–R299, R302 (log entry 36, and 87 for a descriptor that cannot be read): arming and disarming a crib. A CRIBARM fails with status 2
for a malformed packet, then 1 for a tile that is taken, then 3 for a template or kernel that
does not fit; else the crib is ARMING with the packet's fields, and the tile the Sieve's. The
zero fill waits for the core's accesses to the tile; its end makes the crib OPEN, empty, with
every byte of the tile 0, and completes the command; a disarm that waited for it then frees crib
and tile. A CRIBDISARM frees an OPEN crib of its partition and its tile, and waits for an ARMING
one; any other has status 1, a malformed one status 2. -/
def Obligations.CribCommands : Prop :=
  (∀ (s : State) (d : Fin 2) (q : Fin 64) (c : QCmd), s.pkg.frz = 0 → (s.granger d).front? q = some c → c.queue = q → cribTarget d c = none →
    (c.type = 6 → exec (.cribarm d q) s = .next ((s.finishCmd d c 3 2).fetch d q)) ∧ (c.type = 7 → exec (.cribdisarm d q) s = .next ((s.finishCmd d c 3 2).fetch d q))) ∧
  (∀ (d : Fin 2) (c : QCmd) (cl : Fin 16) (core : Fin 256) (tile : Nat), cribTarget d c = some (cl, core, tile) ↔
    c.get 8 1 < 8 ∧ c.get 9 1 < 16 ∧ c.get 10 1 < 64 ∧ cl.val = 8 * d.val + c.get 8 1 ∧ core.val = 16 * cl.val + c.get 9 1 ∧ tile = c.get 10 1) ∧
  (∀ (s : State) (d : Fin 2) (q : Fin 64) (c : QCmd) (cl : Fin 16) (core : Fin 256) (tile : Nat), s.pkg.frz = 0 →
    (s.granger d).front? q = some c → c.queue = q → cribTarget d c = some (cl, core, tile) →
    let part := (s.queue d q).part
    let place := cribPlace core tile
    let k := (s.clusters[cl]).crib place
    let o := c.get 11 1
    let filled (off n : Nat) : Bool := ((c.packet.drop off).take n).any (· != 0)
    let bad : Bool := filled 1 7 || filled 16 48 || decide (64 ≤ o) || decide (o % 4 = 3)
    let free := ((s.cores[core]).tile tile).owner = 0 ∧ k.state = 0
    let ended (u : State) (status : Nat) : State := (u.finishCmd d c 3 status).fetch d q
    let template := (s.granger d).templates.find? (fun t => t.part == part && t.index == c.get 14 2)
    (c.type = 6 → bad = true → exec (.cribarm d q) s = .next (ended s 2)) ∧
    (c.type = 6 → bad = false → ¬ free → exec (.cribarm d q) s = .next (ended s 1)) ∧
    (c.type = 6 → bad = false → free → template = none → exec (.cribarm d q) s = .next (ended s 3)) ∧
    (∀ t, c.type = 6 → bad = false → free → template = some t →
      let r := s.grRead d (.front q) part (recNat t.record 0 8) 128
      let map := s.pkg.partmap[core]
      let fits (kb : List Byte) : Prop := map.getLsbD 7 = true ∧ map.setWidth 4 = part ∧ (word (recNat kb 32 8)).getLsbD tile = false ∧ recNat kb 42 1 ≤ 32
      (r.2 = .held → exec (.cribarm d q) s = .next r.1) ∧ (r.2 = .bad → exec (.cribarm d q) s = .next (ended r.1 3)) ∧
      (∀ kb, r.2 = .bytes kb → ¬ fits kb → exec (.cribarm d q) s = .next (ended r.1 3)) ∧
      (∀ kb, r.2 = .bytes kb → fits kb → ∃ u : State, exec (.cribarm d q) s = .next u ∧
        (u.clusters[cl]).crib place =
          { state := 1, mode := BitVec.ofNat 2 o, part := part, rearm := o.testBit 2, argslot := BitVec.ofNat 3 (o / 8), sat := false, flg := 0,
            thr := BitVec.ofNat 16 (c.get 12 2), tmpl := BitVec.ofNat 16 (c.get 14 2), count := 0, queue := q, cmd := some c.idx, disarm := [], disarming := false } ∧
        ((u.cores[core]).tile tile).owner = 5 ∧ ((u.cores[core]).tile tile).part = part ∧ (u.cores[core]).granary = (s.cores[core]).granary)) ∧
    (c.type = 7 → filled 1 7 = true ∨ filled 11 53 = true → exec (.cribdisarm d q) s = .next (ended s 2)) ∧
    (c.type = 7 → filled 1 7 = false → filled 11 53 = false →
      (k.part ≠ part ∨ k.state = 0 ∨ k.state = 3 → exec (.cribdisarm d q) s = .next (ended s 1)) ∧
      (k.part = part → k.state = 1 → exec (.cribdisarm d q) s = .next
        (((s.updCluster cl fun x => x.setCrib place { k with disarm := k.disarm ++ [(q, c.idx)] }).leaveFront d c).fetch d q)) ∧
      (k.part = part → k.state = 2 → exec (.cribdisarm d q) s = .next
        (ended ((s.updCluster cl fun x => x.setCrib place { k with state := 0, count := 0, sat := false, flg := 0, cmd := none, disarm := [], disarming := false }).updCore
          core fun x => x.giveTile tile 0 false s.now) 0)))) ∧
  (∀ (s : State) (cl : Fin 16) (n : Fin 1024), s.pkg.frz = 0 →
    let k := (s.clusters[cl]).crib n.val
    let core : Fin 256 := ⟨16 * cl.val + n.val / 64, by omega⟩
    let tile := n.val % 64
    let fills : Prop := k.state = 1 ∧ (s.cores[core]).awake [tile] = true ∧ (s.cores[core]).accessDue tile = false
    let zeroed (t : State) : Prop := ∀ a, readCell (t.cores[core]).granary a = if a / 24576 = tile then 0 else readCell (s.cores[core]).granary a
    let completed (t : State) : Prop := ∀ x ∈ (t.granger (clusterDie cl)).cmds, x.queue = k.queue → k.cmd ≠ some x.idx
    (¬ fills → exec (.cribFillDone cl n) s = .next s) ∧
    (fills → k.disarming = false → k.disarm = [] → ∃ t : State, exec (.cribFillDone cl n) s = .next t ∧
      (t.clusters[cl]).crib n.val = { k with state := 2, cmd := none, count := 0, sat := false, flg := 0 } ∧ zeroed t ∧ completed t) ∧
    (fills → k.disarming = true ∨ k.disarm ≠ [] → ∃ t : State, exec (.cribFillDone cl n) s = .next t ∧
      (t.clusters[cl]).crib n.val = { k with state := 0, count := 0, sat := false, flg := 0, cmd := none, disarm := [], disarming := false } ∧
      ((t.cores[core]).tile tile).owner = 0 ∧ zeroed t ∧ completed t ∧
      ∀ p ∈ k.disarm, ∀ x ∈ (t.granger (clusterDie cl)).cmds, ¬ (x.queue = p.1 ∧ x.idx = p.2)))

/-- R302, R303, R315, R317–R319, R321–R326, R367, R368, R459 (log entries 13, 35, 37, 38 and 75 for
what the rules leave open): a launch that asks for acceptance and passes its checks takes the
lowest free launch counter; its tasks exist, READY where no dependence is open; its counters
rise by the number of tasks. One that fails a check ends with that status, and one that ORDER, a
missing counter or an unanswered fault holds stays. The record and the descriptor keep the
limits of R318 and R367, and a device hash of 0 names no device. A crib's trigger asks for one
task of its template's record, with the status word and the fill count put in; refused, its crib
is free. Every launch whose tasks have all retired completes, with the state of R317 and the
decrement of its signal: its counter is free again, and so is a closed graph or phase counter
with none outstanding. -/
def Obligations.LaunchesComeAndGo : Prop :=
  (∀ (s : State) (d : Fin 2) (q : Fin 64) (c : QCmd), s.pkg.frz = 0 →
    (s.granger d).front? q = some c → c.queue = q → c.type = 1 → c.asked = true →
    let g := s.granger d
    let u := s.queue d q
    let r := s.grRead d (.front q) u.part (c.get 8 8) 256
    let accept : Instr := .launchAccept d q.val
    (r.2 = .held → exec accept s = .next r.1) ∧ (r.2 = .bad → exec accept s = .next ((r.1.finishCmd d c 4 1).fetch d q)) ∧
    (∀ bs, r.2 = .bytes bs →
      let waits : Prop := (recNat bs 47 1 % 2 = 1 ∧ g.earlierLaunch c = true) ∨ g.freeLid = none
      let a : Ask := ⟨q, some c, bs, c.get 8 8, u.part, none⟩
      let v := r.1.verdict d a
      (waits → exec accept s = .next r.1) ∧ (¬ waits → v.2 = .held → exec accept s = .next v.1) ∧
      (∀ st, ¬ waits → v.2 = .refused st → exec accept s = .next ((v.1.finishCmd d c 4 st).fetch d q)) ∧
      (∀ lid k deps, ¬ waits → g.freeLid = some lid → v.2 = .accepted k deps →
        let n := recNat bs 8 3
        let l : Launch :=
          { lid := lid, queue := q, cmd := some c.idx, part := u.part, kernel := k, record := word (c.get 8 8), ntask := n, gang := recNat bs 12 1,
            prio := BitVec.ofNat 3 (min (recNat bs 13 1 % 8) u.pmax.toNat), chk := (recNat bs 13 1).testBit 7, live := BitVec.ofNat 16 (recNat bs 14 2),
            signal := word (recNat bs 16 8), failslot := word (recNat bs 24 8), stack := word (recNat bs 32 8), sstride := recNat bs 40 4,
            graph := recNat bs 44 2, phase := recNat bs 46 1, save := word (recNat bs 48 8), savesz := recNat bs 56 4, deps := deps,
            args := (List.range 16).map fun j => word (recNat bs (128 + 8 * j) 8), out := n, failn := 0, lost := false, begun := false, crib := none, bound := none, cancel := false }
        let counted (named : Nat) (k : Counter) : Counter := if named ≠ 0 ∧ k.id = named then { k with out := k.out + n } else k
        ∃ t : State, exec accept s = .next t ∧ (t.granger d).launches = g.launches ++ [l] ∧
          (t.granger d).tasks = g.tasks ++ (List.range n).map (fun j => ⟨g.nextTask + j, lid, j, if deps = [] then .ready else .queued, l.prio, s.now, s.now, s.now, none⟩) ∧
          ((t.granger d).jobs[u.part.toFin]).out = (g.jobs[u.part.toFin]).out + n ∧
          (t.granger d).graphs = g.graphs.map (counted l.graph) ∧ (t.granger d).phases = g.phases.map (counted l.phase)))) ∧
  (∀ (g : Granger), (g.freeLid = none ↔ ∀ n, n < 4096 → ∃ l ∈ g.launches, l.lid = n) ∧
    ∀ n, g.freeLid = some n → n < 4096 ∧ (∀ l ∈ g.launches, l.lid ≠ n) ∧ ∀ m, m < n → ∃ l ∈ g.launches, l.lid = m) ∧
  (∀ (va : Nat) (r : List Byte), let n (off len : Nat) : Nat := recNat r off len
    recordOk va r = true ↔ va % 64 = 0 ∧ 1 ≤ n 8 3 ∧ (((r.drop 11).take 1).all (· == 0)) = true ∧ n 12 1 ≤ 16 ∧ (2 ≤ n 12 1 → n 8 3 % n 12 1 = 0) ∧
      n 13 1 / 8 % 16 = 0 ∧ n 24 8 % 32 = 0 ∧ n 40 4 % 16 = 0 ∧ n 44 2 ≤ 1023 ∧ n 47 1 / 2 % 128 = 0 ∧ n 56 4 % 64 = 0 ∧ (((r.drop 60).take 4).all (· == 0)) = true) ∧
  (∀ (va : Nat) (k : List Byte), let n (off len : Nat) : Nat := recNat k off len
    kernelOk va k = true ↔ va % 64 = 0 ∧ n 40 1 ≤ 64 ∧ (n 40 1 = 0 → n 24 8 = 0) ∧ n 41 1 / 2 % 128 = 0 ∧ n 42 1 ≤ 32 ∧ n 43 1 ≤ 32 ∧ n 44 4 % 64 = 0 ∧
      word (n 48 8) = Config.deviceHash ∧ (((k.drop 61).take 67).all (· == 0)) = true) ∧
  Config.deviceHash ≠ 0 ∧
  (∀ (t : Trigger) (r : List Byte), r.length = 256 → let w := triggerRecord t r
    w.length = 256 ∧ recNat w 8 3 = 1 ∧ recNat w 12 1 = 0 ∧ recNat w 14 2 = t.count.toNat ∧ recNat w (128 + 8 * t.argslot.toNat) 8 = t.ref.status.toNat ∧
    ∀ i, ¬ (8 ≤ i ∧ i < 13) → ¬ (14 ≤ i ∧ i < 16) → ¬ (128 + 8 * t.argslot.toNat ≤ i ∧ i < 136 + 8 * t.argslot.toNat) → w[i]? = r[i]?) ∧
  (∀ (s : State) (d : Fin 2) (n : Nat) (t : Trigger), s.pkg.frz = 0 → (s.granger d).triggers[n]? = some t →
    let g := s.granger d
    let cl : Fin 16 := ⟨8 * d.val + t.ref.cluster.val, by omega⟩
    let core : Fin 256 := ⟨16 * cl.val + t.ref.place / 64 % 16, by omega⟩
    let k := (s.clusters[cl]).crib t.ref.place
    let template := g.templates.find? fun m => m.part == t.part && m.index == t.tmpl
    let freed (u : State) : Prop := (u.granger d).triggers = g.triggers.eraseIdx n ∧ (k.state = 3 → ((u.cores[core]).tile (t.ref.place % 64)).owner = 0 ∧
      (u.clusters[cl]).crib t.ref.place = { k with state := 0, count := 0, sat := false, flg := 0, cmd := none, disarm := [], disarming := false })
    (template = none → ∃ u : State, exec (.launchAccept d (64 + n)) s = .next u ∧ freed u) ∧
    (∀ m, template = some m →
      let a : Ask := ⟨t.queue, none, triggerRecord t m.record, m.addr.toNat, t.part, some t.ref⟩
      let v := s.verdict d a
      (g.freeLid = none → exec (.launchAccept d (64 + n)) s = .next s) ∧
      (g.freeLid ≠ none → v.2 = .held → exec (.launchAccept d (64 + n)) s = .next v.1) ∧
      (∀ st, g.freeLid ≠ none → v.2 = .refused st → ∃ u : State, exec (.launchAccept d (64 + n)) s = .next u ∧ freed u) ∧
      (∀ lid kk deps, g.freeLid = some lid → v.2 = .accepted kk deps → ∃ (u : State) (l : Launch), exec (.launchAccept d (64 + n)) s = .next u ∧
        (u.granger d).triggers = g.triggers.eraseIdx n ∧ (u.granger d).launches = g.launches ++ [l] ∧ l.lid = lid ∧ l.kernel = kk ∧ l.crib = some t.ref ∧ l.bound = some t.ref ∧ l.cmd = none ∧
        l.ntask = recNat a.record 8 3 ∧ l.gang = recNat a.record 12 1 ∧ l.live = BitVec.ofNat 16 (recNat a.record 14 2) ∧
        l.args = (List.range 16).map (fun j => word (recNat a.record (128 + 8 * j) 8)) ∧ l.deps = deps))) ∧
  (∀ (s : State) (d : Fin 2), s.pkg.frz = 0 → ∃ t : State, exec (.launchComplete d) s = .next t ∧ t.cores = s.cores ∧
    (∀ l ∈ (s.granger d).launches, l.out = 0 → l.signal = 0 → ∀ m ∈ (t.granger d).launches, m.lid ≠ l.lid) ∧
    (∀ l ∈ (s.granger d).launches, (∀ m ∈ (s.granger d).launches, m.lid = l.lid → m = l) → l.out ≠ 0 → l ∈ (t.granger d).launches) ∧
    (∀ k ∈ (s.granger d).graphs, k.closed = true → k.out = 0 → k.signal = 0 → ∀ m ∈ (t.granger d).graphs, m.id ≠ k.id) ∧
    (∀ k ∈ (s.granger d).phases, k.closed = true → k.out = 0 → k.signal = 0 → ∀ m ∈ (t.granger d).phases, m.id ≠ k.id)) ∧
  (∀ (s : State) (d : Fin 2) (l : Launch), s.pkg.frz = 0 → (s.granger d).launches = [l] → l.out = 0 → l.cmd = none → l.signal ≠ 0 → ∀ u held,
    s.grDecrement d (.launch l.lid) l.part l.signal.toNat 1 = (u, held) →
    ∃ t : State, exec (.launchComplete d) s = .next t ∧ (t.granger d).launches = if held then [l] else []) ∧
  (∀ (s : State) (d : Fin 2) (l : Launch) (c : QCmd), (s.granger d).cmds.find? (fun c => c.queue == l.queue && l.cmd == some c.idx) = some c →
    s.journalLaunch d l = (s.journal d { c with lid := l.lid, failn := l.failn } (if l.lost then 5 else if l.failn ≠ 0 then 4 else 3) 0).updGranger d fun g =>
      { g with launches := g.launches.map (fun x => if x.lid == l.lid then { x with cmd := none } else x), cmds := g.cmds.filter fun x => !x.same c })

/-! ### The Thresher (spec/15) -/

/-- R4, R386, R391, R392, R396–R399 (log entries 17, 32, 54, 55, 63 and 89 for what the rules leave open): arm requests and the Thresher's
commands, in the order in which both arrive. A request whose entry is not valid, or not this
die's, has status 1; any other raises INUSE first, and then puts a CRIBARM in its entry's queue,
waits for room there, or has status 2 where the queue does not take the partition's arms; at its
end the done signal falls, a failure is counted, and one that had raised INUSE lowers it. TCTAIL
submits commands; what is out of the Thresher's reach it waits for, and after a failed boot it reads
none. LAYER, ROUTE, EVICT and OVERRIDE, at the ring's head, have their effect and
end with status 0, and a malformed one with its own status; an EVICT frees its old crib if that
is OPEN, and ends once INUSE reads 0. A packet of no known form ends with status 0xFF. -/
def Obligations.ThresherCommands : Prop :=
  (∀ (s : State) (d : Fin 2) (v : Word), exec (.tctailDoorbell d v) s = .next (if s.pkg.halted then s else s.updThresher d fun t => { t with tctail := v.toNat })) ∧
  (∀ (s : State) (d : Fin 2) (r : ArmReq) (rs : List ArmReq), s.pkg.frz = 0 → (s.thresher d).arm = none → (s.thresher d).arms = r :: rs →
    let th := s.thresher d
    let turn : Prop := 8 < th.tcbase.toNat % 16 ∨ r.after ≤ th.tchead + (if th.evict.isSome then 1 else 0)
    let settled (u : State) (a : ArmRun) : State := u.updThresher d fun t => { t with arms := rs, arm := some a }
    (¬ turn → exec (.armRequest d) s = .next s) ∧
    (turn → (∀ e, (s.dies[d]).entry? r.index = some e → e.valid = false ∨ s.namesDie d e.dest = false) →
      exec (.armRequest d) s = .next (settled s ⟨r, 0, [], none, some 1, 0, 0⟩)) ∧
    (∀ e, turn → (s.dies[d]).entry? r.index = some e → e.valid = true → s.namesDie d e.dest = true →
      let a : ArmRun := ⟨r, e.armQueue, armPacket e r.thr, none, if 64 ≤ e.queue.toNat then some 2 else none, e.inuse, e.part⟩
      let w := settled (s.addWord d e.part e.inuse.toNat 1) a
      let u := w.queue d e.armQueue
      let then_ (t : State) (b : ArmRun) : State := t.updThresher d fun t => { t with arm := some b }
      (64 ≤ e.queue.toNat → exec (.armRequest d) s = .next w) ∧
      (e.queue.toNat < 64 → u.takesArms e.part = false → exec (.armRequest d) s = .next (then_ w { a with status := some 2 })) ∧
      (e.queue.toNat < 64 → u.takesArms e.part = true → 2 ^ (u.size.toNat + 4) ≤ u.qtail - u.qhead → exec (.armRequest d) s = .next w) ∧
      (e.queue.toNat < 64 → u.takesArms e.part = true → u.qtail - u.qhead < 2 ^ (u.size.toNat + 4) →
        exec (.armRequest d) s = .next (then_ (w.enqueue d e.armQueue a.packet) { a with placed := some (e.armQueue, u.qtail) })))) ∧
  (∀ (e : REntry) (thr : Nat), armPacket e thr = [6, 0, 0, 0, 0, 0, 0, 0, BitVec.ofNat 8 (e.dest.toNat / 2 ^ 48 % 8), BitVec.ofNat 8 (e.dest.toNat / 2 ^ 44 % 16),
      BitVec.ofNat 8 (e.dest.toNat / 2 ^ 38 % 64), BitVec.ofNat 8 (e.mode.toNat + 8 * e.argslot.toNat)] ++ leBytes 2 thr ++ leBytes 2 e.tmpl.toNat ++ List.replicate 48 0) ∧
  (∀ (s : State) (d : Fin 2) (a : ArmRun), s.pkg.frz = 0 → (s.thresher d).arm = some a →
    let u := s.queue d a.queue
    let then_ (t : State) (b : ArmRun) : State := t.updThresher d fun t => { t with arm := some b }
    (a.placed ≠ none ∨ a.status ≠ none → exec (.armRequest d) s = .next s) ∧
    (a.placed = none → a.status = none →
      (u.takesArms a.part = false → exec (.armRequest d) s = .next (then_ s { a with status := some 2 })) ∧
      (u.takesArms a.part = true → 2 ^ (u.size.toNat + 4) ≤ u.qtail - u.qhead → exec (.armRequest d) s = .next s) ∧
      (u.takesArms a.part = true → u.qtail - u.qhead < 2 ^ (u.size.toNat + 4) →
        exec (.armRequest d) s = .next (then_ (s.enqueue d a.queue a.packet) { a with placed := some (a.queue, u.qtail) }))) ∧
    (a.status = none → exec (.armRequestDone d) s = .next s) ∧
    (a.status = some 0 → exec (.armRequestDone d) s = .next ((s.updThresher d fun t => { t with arm := none }).doneSignal d a.req)) ∧
    (∀ st, a.status = some st → st ≠ 0 → exec (.armRequestDone d) s = .next
      (((if 2 ≤ st then s.addWord d a.part a.inuse.toNat (-1) else s).updThresher d fun t => { t with armfail := t.armfail + 1, arm := none }).doneSignal d a.req))) ∧
  (∀ (a : ArmRun) (q : Fin 64) (idx st : Nat), a.note q idx st = if a.placed = some (q, idx) then { a with status := some (if st = 0 then 0 else 2) } else a) ∧
  (∀ t : Thresher, t.hasCommand = true ↔ t.tcbase.toNat % 16 ≤ 8 ∧ t.tchead < t.tctail ∧ t.evict = none ∧ t.arm = none ∧ ∀ r ∈ t.arms, t.tchead < r.after) ∧
  (∀ (s : State) (d : Fin 2), s.pkg.halted = true ∨ s.severed d (s.thresher d).commandAt 64 = true →
    ∀ e ∈ [Instr.layer d, .route d, .evict d, .overrideSet d, .overrideDelete d], exec e s = .next s) ∧
  (∀ (s : State) (d : Fin 2), s.pkg.frz = 0 → s.pkg.halted = false → s.severed d (s.thresher d).commandAt 64 = false → (s.thresher d).hasCommand = true →
    let u := s.touch (s.thresher d).commandAt 64
    let c := u.devRead (s.thresher d).commandAt 64
    let w := u.touch (recNat c 16 8) 64
    let l := layerFrom (recNat c 24 1) (w.devRead (recNat c 16 8) 64)
    let old := (s.dies[d]).entry? (recNat c 16 2)
    let named (o : Override) : Bool := o.token.toNat == recNat c 16 4 && o.layer == recNat c 20 1
    let rest := (s.thresher d).overrides.filter fun o => !named o
    let nexp := match layerOf (s.thresher d).layers (recNat c 20 1) with | some l => l.nexp | none => 0
    (commandOk c = false → (s.thresher d).tctail = (s.thresher d).tchead + 1 → ∀ e ∈ [Instr.layer d, .route d, .evict d, .overrideSet d, .overrideDelete d],
      exec e s = .next (u.endCommand d 0xFF)) ∧
    (commandOk c = true →
      (recNat c 0 1 = 1 → exec (.layer d) s = .next
        (if 63 < recNat c 24 1 then u.endCommand d 1 else if u.severed d (recNat c 16 8) 64 then u
         else if layerOk (w.devRead (recNat c 16 8) 64) l = true then
          (w.updThresher d fun t => { t with layers := l :: t.layers.filter fun x => x.index != recNat c 24 1 }).endCommand d 0
         else w.endCommand d 1)) ∧
      (recNat c 0 1 = 2 → (routeOk c = false → exec (.route d) s = .next (u.endCommand d 1)) ∧
        (routeOk c = true → s.dieQuiet d = false → exec (.route d) s = .next u) ∧
        (routeOk c = true → s.dieQuiet d = true → exec (.route d) s = .next
          ((u.writeRoute d (routeEntryOf c (destGen (match old with | some e => e.dest | none => 0)))).endCommand d 0))) ∧
      (recNat c 0 1 = 3 → (routeOk c = false → exec (.evict d) s = .next (u.endCommand d 1)) ∧
        (routeOk c = true → (∀ e, old = some e → e.valid = false) → exec (.evict d) s = .next (u.endCommand d 2)) ∧
        (∀ e, routeOk c = true → old = some e → e.valid = true →
          let cl : Fin 16 := ⟨8 * d.val + e.dest.toNat / 2 ^ 48 % 8, by omega⟩
          let core : Fin 256 := ⟨16 * cl.val + e.dest.toNat / 2 ^ 44 % 16, by omega⟩
          let tile := e.dest.toNat / 2 ^ 38 % 64
          let k := (s.clusters[cl]).crib (cribPlace core tile)
          (s.dieQuiet d = false → exec (.evict d) s = .next u) ∧
          (s.dieQuiet d = true → ∃ t : State, exec (.evict d) s = .next t ∧ (t.thresher d).evict = some ⟨e.inuse, e.part⟩ ∧ (t.thresher d).tchead = (s.thresher d).tchead ∧
            (t.dies[d]).entry? (recNat c 16 2) = some (routeEntryOf c (destGen e.dest + 1)) ∧
            (s.namesDie d e.dest = true → k.part = e.part → k.state = 2 → ((t.cores[core]).tile tile).owner = 0 ∧
              (t.clusters[cl]).crib (cribPlace core tile) = { k with state := 0, count := 0, sat := false, flg := 0, cmd := none, disarm := [], disarming := false }) ∧
            (s.namesDie d e.dest = true → k.part = e.part → k.state = 1 → (t.clusters[cl]).crib (cribPlace core tile) = { k with disarming := true }) ∧
            (s.namesDie d e.dest = false ∨ k.part ≠ e.part ∨ k.state = 0 ∨ k.state = 3 → t.clusters = s.clusters ∧ t.cores = s.cores)))) ∧
      (recNat c 0 1 = 4 → recNat c 21 1 ≠ 1 → exec (.overrideSet d) s = .next
        (if recNat c 21 1 ≠ 0 ∨ nexp ≤ recNat c 22 2 then u.endCommand d 1 else if 1024 ≤ rest.length then u.endCommand d 2
         else (u.updThresher d fun t => { t with overrides := ⟨BitVec.ofNat 32 (recNat c 16 4), recNat c 20 1, recNat c 22 2⟩ :: rest }).endCommand d 0)) ∧
      (recNat c 0 1 = 4 → recNat c 21 1 = 1 → exec (.overrideDelete d) s = .next
        (if (s.thresher d).overrides.any named then (u.updThresher d fun t => { t with overrides := rest }).endCommand d 0 else u.endCommand d 3)))) ∧
  (∀ (s : State) (d : Fin 2) (e : EvictRun) (pa : Nat), s.pkg.frz = 0 → (s.thresher d).evict = some e →
    s.signalHome d e.part e.inuse.toNat = some pa →
    let u := s.touch pa 8
    (u.devNat pa 8 = 0 → exec (.evictComplete d) s = .next ((u.updThresher d fun t => { t with evict := none }).endCommand d 0)) ∧
    (u.devNat pa 8 ≠ 0 → exec (.evictComplete d) s = .next u)) ∧
  (∀ (s : State) (d : Fin 2) (status : Nat), let a := (s.thresher d).commandAt
    let sig := s.devNat (a + 8) 8
    let told := s.devWrite (a + 1) [BitVec.ofNat 8 status]
    s.endCommand d status = (if sig = 0 then told else if told.severed d sig 8 then told else told.signalDec sig 1).updThresher d (fun t => { t with tchead := t.tchead + 1 }))

/-! ### The package and the links (spec/16, spec/17) -/

/-- R4, R411, R412, R420 (log entries 57 and 58, and 63 for a failed boot): a PARTMAP write takes effect at once on a core
with both banks empty and waits, as the newest for its core, on any other; it reads as last
written. A write of RSTPART sets PART, and with GO begins a reset of its partition, unless one
runs, and cancels the partition's job, as soon as the clocks run; the reset ends once no task of
the partition is left, and then no core holds an instruction row or a lease of it, no stage or
pipeline a table, program, region, cell or signal entry of it, no override key of it is left,
the cancel bit of its job counter is clear, and BUSY is 0. Queues and PARTMAP stay. After a failed
boot neither write does anything. -/
def Obligations.Partitions : Prop :=
  (∀ (s : State) (c : Fin 256) (v : BitVec 64), s.pkg.halted = true → exec (.partmapWrite c v) s = .next s ∧ exec (.partitionReset v) s = .next s) ∧
  (∀ (s : State) (c : Fin 256) (v : BitVec 64), s.pkg.halted = false → (∀ w ∈ s.pkg.partNext, s.coreEmpty w.1 = false) →
    let w : BitVec 8 := v.setWidth 8 &&& 0x8F
    let rest := s.pkg.partNext.filter fun e => e.1 != c
    let p : Package := if s.coreEmpty c then { s.pkg with partmap := s.pkg.partmap.set c w, partNext := rest } else { s.pkg with partNext := rest ++ [(c, w)] }
    exec (.partmapWrite c v) s = .next { s with pkg := p } ∧ ({ s with pkg := p } : State).readReg (.partmap c) = v &&& 0x8F) ∧
  (∀ (s : State) (v : BitVec 64), s.pkg.halted = false →
    let part : BitVec 4 := v.setWidth 4
    let plain : State := { s with pkg := { s.pkg with rstPart := part } }
    let begun (waits : Bool) : State := { s with pkg := { s.pkg with rstPart := part, rstRun := some part, rstCancel := waits } }
    (s.pkg.rstRun ≠ none ∨ v.getLsbD 4 = false → exec (.partitionReset v) s = .next plain) ∧
    (s.pkg.rstRun = none → v.getLsbD 4 = true → s.pkg.frz ≠ 0 → exec (.partitionReset v) s = .next (begun true)) ∧
    (s.pkg.rstRun = none → v.getLsbD 4 = true → s.pkg.frz = 0 → exec (.partitionReset v) s = .next
      (((begun false).cancelBy 0 part 4 part.toNat 0).cancelBy 1 part 4 part.toNat 0)) ∧
    s.readReg .rstpart = BitVec.ofNat 64 ((if s.pkg.rstRun.isSome then 2 ^ 63 else 0) + s.pkg.rstPart.toNat)) ∧
  (∀ (s : State), s.pkg.frz = 0 → s.pkg.rstRun = none → exec .partitionResetDone s = .next s) ∧
  (∀ (s : State) (part : BitVec 4), s.pkg.frz = 0 → s.pkg.rstRun = some part → s.pkg.rstCancel = false →
    ((s.granger 0).busy part = true ∨ (s.granger 1).busy part = true → exec .partitionResetDone s = .next s) ∧
    ((s.granger 0).busy part = false → (s.granger 1).busy part = false →
      ∃ t : State, exec .partitionResetDone s = .next t ∧ t.pkg = { s.pkg with rstRun := none } ∧ t.mem = s.mem ∧
        (∀ c : Fin 256, t.cores[c].istore = s.cores[c].istore.filter (fun r => r.part != part) ∧
          t.cores[c].leases = s.cores[c].leases.filter (fun l => l.part != part) ∧ t.cores[c].granary = s.cores[c].granary) ∧
        (∀ cl : Fin 16, (t.clusters[cl]).signals = (s.clusters[cl]).signals.filter (fun e => e.part != part) ∧
          (t.clusters[cl]).cribs = (s.clusters[cl]).cribs ∧
          ∀ n : Fin 16, ((t.clusters[cl]).stages[n]).tables = ((s.clusters[cl]).stages[n]).tables.filter (fun e => e.part != part) ∧
            ((t.clusters[cl]).stages[n]).programs = ((s.clusters[cl]).stages[n]).programs.filter (fun e => e.part != part) ∧
            ((t.clusters[cl]).stages[n]).regions = ((s.clusters[cl]).stages[n]).regions.filter (fun e => e.part != part) ∧
            ((t.clusters[cl]).stages[n]).cells = ((s.clusters[cl]).stages[n]).cells.filter (fun e => e.part != part) ∧
            ((t.clusters[cl]).stages[n]).pairs = ((s.clusters[cl]).stages[n]).pairs.filter (fun e => e.part != part)) ∧
        (∀ d : Fin 2, (t.granger d).queues = (s.granger d).queues ∧ ((t.granger d).jobs[part.toFin]).cancel = false ∧
          (t.thresher d).overrides = (s.thresher d).overrides.filter (fun o => !(s.thresher d).overrideOf part o) ∧
          (t.thresher d).layers = (s.thresher d).layers ∧ (t.thresher d).routes = (s.thresher d).routes)))

/-- R133, R354, R363, R402, R404, R405, R407 (log entry 61): a host access changes which lines of the Loft the host holds a copy of, modified where it wrote
them, and nothing else but the bytes it writes. HBM and the Loft are written where the host reaches their home (through its own link, or the other one and the
die-to-die link, unless the boot has failed or the clocks stand), host memory always and past every Barn, the gate windows and addresses without memory never; a host atomic on an aligned word of
4 or 8 bytes puts its result there in one step; a write of the Loft has the signals read again that tasks wait for. A change of link state sets HIRQ.LINK.
R4, R313, R409, R410, R414, R415, R418–R420, R427, R435, R440, R441 (log entries 5, 53, 56, 63 and 78): management writes and reads, which a failed boot or
standing clocks do not keep from ending. A write of another width or alignment writes nothing, nor does one to
a read-only register; HIRQ is cleared by writing 1; a register keeps only its writable bits, and reads back what it keeps; a cause that becomes enabled raises its vector; slot 255 and
aperture 0 take no write, nor a slot cell whose IN names no port. A read of another width or alignment is 0. After a failed boot only the interrupt registers, BOOTST and the recovery region take part. -/
def Obligations.HostAccessesAndRegisterWrites : Prop :=
  (∀ (s : State) (a : Nat) (bs : List Byte),
     let reach (d : Fin 2) : Prop := (s.pkg.links[d] = true ∨ (s.pkg.links[1 - d] = true ∧ s.pkg.d2dLost = false)) ∧ s.pkg.halted = false ∧ s.pkg.frz = 0
     let written (b : Nat) : Prop := match physKind b with | .hbm d => reach d | .loft => reach 0 | .host _ => True | _ => False
     let touched (l : Nat) : Prop := reach 0 ∧ ∃ k < bs.length, physKind (a + k) = .loft ∧ l = (a + k) / 64
     let owned (l : Nat) : Prop := (l, true) ∈ s.pkg.hostLines
     let holds (t : State) (wrote : Bool) : Prop := ∀ l m, (l, m) ∈ t.pkg.hostLines ↔
       (touched l ∧ (m = true ↔ wrote = true ∨ owned l)) ∨ (¬ touched l ∧ (l, m) ∈ s.pkg.hostLines)
     let only (t : State) : Prop := t = { s with mem := t.mem, reread := t.reread, pkg := { s.pkg with hostLines := t.pkg.hostLines } }
     (∀ op, ∃ t : State, exec (.hostMemoryAccess a op bs) s = .next t ∧ only t) ∧
     (∃ t : State, exec (.hostMemoryAccess a .read bs) s = .next t ∧ t = { s with pkg := { s.pkg with hostLines := t.pkg.hostLines } } ∧ holds t false) ∧
     (∃ t : State, exec (.hostMemoryAccess a .write bs) s = .next t ∧ only t ∧ holds t true ∧
       (t.reread = true ↔ s.reread = true ∨ (reach 0 ∧ ∃ k < bs.length, physKind (a + k) = .loft)) ∧
       (Memory.wf s.mem = true → (∀ k, (h : k < bs.length) → written (a + k) → readCell t.mem (a + k) = bs[k]) ∧
         ∀ b, ¬ (a ≤ b ∧ b < a + bs.length ∧ written b) → readCell t.mem b = readCell s.mem b)) ∧
     (∀ op, (∀ k < bs.length, written (a + k)) → bs.length = 4 ∨ bs.length = 8 → a % bs.length = 0 →
       op ∈ [HostOp.add, .swap, .and, .or] ∨ (∃ c, op = .cas c) → Memory.wf s.mem = true →
       let n := bs.length
       let old := leNat (readCells s.mem a n)
       let arg := leNat bs
       let new := match op with
         | .add => (old + arg) % 2 ^ (8 * n) | .swap => arg | .and => old &&& arg | .or => old ||| arg
         | .cas c => if old = c.toNat % 2 ^ (8 * n) then arg else old | _ => old
       ∃ t : State, exec (.hostMemoryAccess a op bs) s = .next t ∧ only t ∧ leNat (readCells t.mem a n) = new ∧
         ∀ b, b < a ∨ a + n ≤ b → readCell t.mem b = readCell s.mem b) ∧
     (∀ op, op ∈ [HostOp.add, .swap, .and, .or] ∨ (∃ c, op = .cas c) → (bs.length ≠ 4 ∧ bs.length ≠ 8) ∨ a % bs.length ≠ 0 →
       ∃ t : State, exec (.hostMemoryAccess a op bs) s = .next t ∧ t.mem = s.mem ∧ t.cores = s.cores) ∧
     (∀ op, (∀ k < bs.length, ¬ written (a + k)) → exec (.hostMemoryAccess a op bs) s = .next s) ∧
     (∀ (l : Fin 2) (up : Bool), exec (.cxlLinkChange l up) s = .next
       (if s.pkg.links[l] = up then s else
        { s with pkg := { s.pkg with
          links := s.pkg.links.set l up
          hirq := s.pkg.hirq ||| 0x10
          msix := if s.pkg.hirqen.getLsbD 4 then s.pkg.msix ++ [4] else s.pkg.msix } }))) ∧
  (∀ (s : State) (r : MgmtReg) (aligned : Bool) (v : BitVec 64),
     (∃ t : State, exec (.registerWrite r aligned v) s = .next t) ∧
     exec (.registerWrite .hirq true v) s = .next { s with pkg := { s.pkg with hirq := s.pkg.hirq &&& ~~~(v.setWidth 6) } } ∧
     exec (.registerWrite .hirqen true v) s = .next { s with pkg := { s.pkg with
       hirqen := v.setWidth 6
       msix := s.pkg.msix ++ (List.range 6).filter fun n => s.pkg.hirq.getLsbD n && v.getLsbD n && !s.pkg.hirqen.getLsbD n } }) ∧
  (∀ (s : State) (v : BitVec 64), s.pkg.halted = false →
     let becomes (r : MgmtReg) (t : State) : Prop := exec (.registerWrite r true v) s = .next t
     let reads (r : MgmtReg) (w : BitVec 64) : Prop := ∃ t : State, exec (.registerWrite r true v) s = .next t ∧ t.readReg r = w ∧ t.mem = s.mem ∧ t.cores = s.cores
     (∀ (cl : Fin 16) (d : Fin 2) (p : BitVec 4) (q : Fin 64) (j : Fin 48) (n : Fin 17) (m : Nat), becomes .bootst s ∧ becomes (.clkstat cl) s ∧ becomes (.qhead d q) s ∧ becomes (.tchead d) s ∧
       becomes (.tstat d) s ∧ becomes (.counter cl n) s ∧ becomes (.fabcfg d) s ∧ becomes (.portstat j) s ∧ becomes (.allot cl p) s ∧
       becomes (.discovery m) s ∧ becomes (.measurement m) s ∧ becomes .scanWindow s ∧ becomes (.recovery m) s) ∧
     becomes .pwrcap { s with pkg := { s.pkg with pwrcap := v.setWidth 12 } } ∧
     reads .hirqen (v &&& 0x3F) ∧ reads .pwrcap (v &&& 0xFFF) ∧ (∀ cl, reads (.cntclr cl) 0) ∧
     (∀ (d : Fin 2) (p : BitVec 4), reads (.troot d p) (v &&& 0x0003FFFFFFFFF001) ∧ reads (.frbase d) (v &&& 0x0003FFFFFFFE0000) ∧
       reads (.invaddr d) (v &&& 0x000FFFFFFFFF0000) ∧ reads (.tcbase d) (v &&& 0x0003FFFFFFFFFFCF) ∧ reads (.tctail d) v) ∧
     (∀ (cl : Fin 16) (j : Fin 4) (p : BitVec 4), reads (.portcfg cl j) (v &&& 0xF01) ∧ reads (.pstart cl p) (v &&& 0x7F)) ∧
     (∀ (d : Fin 2) (p : BitVec 4) (w : BitVec 8), reads (.winbase d p w) (v &&& 0x800FFFFFFFFF0000) ∧ reads (.winctl d p w) (v &&& 0x000000FFFFFFFFF7)) ∧
     (∀ (d : Fin 2) (p : BitVec 4) (a : BitVec 5), (a = 0 → becomes (.aptab d p a) s) ∧ (a ≠ 0 → reads (.aptab d p a) (v &&& 0x800000FF00000FFF))) ∧
     (∀ (d : Fin 2) (slot : BitVec 8) (port : BitVec 5), (slot = 255 ∨ 64 < v.toNat / 2 ^ 24 % 128 → becomes (.slot d slot port) s) ∧
       (slot ≠ 255 → v.toNat / 2 ^ 24 % 128 ≤ 64 → reads (.slot d slot port) (v &&& 0xFFF000FF)))) ∧
  (∀ (s : State) (v : BitVec 64) (r : MgmtReg), exec (.registerWrite r false v) s = .next s ∧
     (s.pkg.halted = true → (∀ n, r ≠ .recovery n) → r ≠ .hirq → r ≠ .hirqen → exec (.registerWrite r true v) s = .next s) ∧
     (∀ n, s.pkg.halted = true → ∃ t : State, exec (.registerWrite (.recovery n) true v) s = .next t ∧ wordAt t.pkg.recovery n = v ∧
       ∀ m, m ≠ n → wordAt t.pkg.recovery m = wordAt s.pkg.recovery m)) ∧
  (∀ (s : State) (off width : Nat),
     (width ≠ 8 ∨ off % 8 ≠ 0 → s.readAt off width = 0) ∧ (0x3000000 ≤ off → s.readAt off width = 0) ∧
     (∀ n, 8 * n < 0x10000 → s.readAt (0x10000 + 8 * n) 8 = s.readReg (.discovery n)) ∧
     (∀ (d : Fin 2) (p : BitVec 4) (a : BitVec 5), s.readAt (0x1000000 * (1 + d.val) + 0x800000 + 256 * p.toNat + 8 * a.toNat) 8 = s.readReg (.aptab d p a)) ∧
     (∀ (d : Fin 2) (p : BitVec 4) (w : BitVec 8), let at_ := 0x1000000 * (1 + d.val) + 0x810000 + 4096 * p.toNat + 16 * w.toNat
       s.readAt at_ 8 = s.readReg (.winbase d p w) ∧ s.readAt (at_ + 8) 8 = s.readReg (.winctl d p w)) ∧
     (∀ (d : Fin 2) (slot : BitVec 8) (port : BitVec 5), s.readAt (0x1000000 * (1 + d.val) + 0x820000 + 256 * slot.toNat + 8 * port.toNat) 8 = s.readReg (.slot d slot port)) ∧
     (∀ d : Fin 2, s.readAt (0x1000000 * (1 + d.val) + 0x830000) 8 = s.readReg (.fabcfg d)))

/-- R200, R263, R377, R415, R416 (log entries 5, 14, 15, 21, 30, 34 and 63): the boot takes its images
in the order of their steps; each that verifies extends its measurement register by its digest,
is listed in the log, and has the Reeve write what it holds, and the first that does not verify
halts the boot, sets HIRQ.BOOT and extends nothing; a configuration blob below the security
version of the firmware's manifest is refused and loads nothing. It runs once after a reset. The
Reeve alone writes FABCFG, allotments, the system table memory, 64 KiB a stage, and the tiles of
tables. Every
SPDM request is answered; the log and the registers are in the answer of GET_MEASUREMENTS. (What
BOOTST then holds and what else an answer holds is free.) -/
def Obligations.BootAndMeasurement : Prop :=
  (∀ (s : State) (images config : List BootImage),
    (s.pkg.booted ≠ 0 ∨ s.pkg.halted = true → exec (.boot images config) s = .next s) ∧
    (s.pkg.booted = 0 → s.pkg.halted = false → exec (.boot images config) s = .next (s.bootFrom 0 (bootOrder images config)))) ∧
  (∀ images config : List BootImage, (bootOrder images config).Pairwise (fun i j => i.step.val ≤ j.step.val) ∧
    ∀ n : Fin 4, (bootOrder images config).filter (fun i => i.step == n) =
      (images.filter fun i => i.step == n) ++ if n = 2 then config.map (fun i => { i with step := 2 }) else []) ∧
  (∀ (s : State) (floor : Nat) (i : BootImage) (more : List BootImage),
    let r : Fin 16 := if i.step = 2 ∧ 4 ≤ i.mr.toNat then i.mr.toFin else ⟨i.step.val, by omega⟩
    let measured : State := { s with pkg := { s.pkg with
      mr := s.pkg.mr.set r (sha384 (beBytes 48 (s.pkg.mr[r]).toNat ++ beBytes 48 i.digest.toNat)), log := s.pkg.log ++ [(r.val, i.digest)], booted := s.pkg.booted + 1 } }
    s.bootFrom floor [] = s ∧
    (i.verified = false → ∃ x, s.bootFrom floor (i :: more) = { s with free := s.free + 1, pkg := { s.pkg with
      hirq := s.pkg.hirq ||| 0x20, msix := if s.pkg.hirqen.getLsbD 5 then s.pkg.msix ++ [5] else s.pkg.msix, bootst := x, halted := true } }) ∧
    (i.verified = true → i.step = 2 → i.version < floor → s.bootFrom floor (i :: more) = s.bootFrom floor more) ∧
    (i.verified = true → ¬ (i.step = 2 ∧ i.version < floor) →
      s.bootFrom floor (i :: more) = (i.writes.foldl State.reeveDo measured).bootFrom (if i.step = 0 then i.version else floor) more)) ∧
  (∀ (s : State) (v : BitVec 64) (d : Fin 2) (cl st : Fin 16) (p : BitVec 4) (n : BitVec 6) (b : BitVec 512),
    s.reeveDo (.reg (.fabcfg d) v) = s.updDie d (fun x => { x with fabcfg := v &&& 0x0FFF0FFF }) ∧
    s.reeveDo (.reg (.allot cl p) v) = s.updCluster cl (fun k => { k with allot := k.allot.set p.toFin v }) ∧
    s.reeveDo (.reg .pwrcap v) = { s with pkg := { s.pkg with pwrcap := v.setWidth 12 } } ∧
    (let k := s.clusters[cl]
     let fits (x : Cluster) : Prop := ∀ i : Fin 16, (x.sysStages[i]).room 0 + (if i = 0 then 64 * x.sysParser.length else 0) ≤ 65536
     let takes (w : ReeveWrite) (x : Cluster) : Prop := (fits x → s.reeveDo w = s.updCluster cl fun _ => x) ∧ (¬ fits x → s.reeveDo w = s)
     takes (.sysParser cl n b) { k with sysParser := (n.toNat, b) :: k.sysParser.filter fun e => e.1 != n.toNat } ∧
     ∀ kind index payload, let made := (k.sysStages[st]).applyRec true 0 ⟨kind, st.val, index, payload⟩
       (∀ x, made = some x → takes (.sysRecord cl kind st index payload) { k with sysStages := k.sysStages.set st x }) ∧
       (made = none → s.reeveDo (.sysRecord cl kind st index payload) = s)) ∧
    (let core : Fin 256 := ⟨16 * cl.val + st.val, by omega⟩
     let t := s.reeveDo (.tables cl st p v)
     ∀ j : Fin 64, let old := (s.cores[core]).tiles[j]
       let new := (t.cores[core]).tiles[j]
       (v.getLsbD j.val = true → old.owner = 0 → new.owner = 7 ∧ new.part = p) ∧ (v.getLsbD j.val = true → old.owner ≠ 0 → new = old) ∧
       (v.getLsbD j.val = false → old.owner = 7 → old.part = p → new.owner = 0) ∧
       (v.getLsbD j.val = false → ¬ (old.owner = 7 ∧ old.part = p) → new = old))) ∧
  (∀ (s : State) (e : Instr) (code : Nat),
    (e, code) ∈ [(.getVersion, 0x84), (.getCapabilities, 0xE1), (.negotiateAlgorithms, 0xE3), (.getDigests, 0x81), (.getCertificate, 0x82), (.challenge, 0x83)] →
    ∃ x, exec e s = .next { s with free := s.free + 1, pkg := { s.pkg with doe := some ⟨code, [], [], x⟩ } }) ∧
  (∀ (s : State), ∃ x, exec .getMeasurements s = .next { s with free := s.free + 1, pkg := { s.pkg with doe := some ⟨0xE0, s.pkg.log, s.pkg.mr.toList, x⟩ } })

/-- R417–R419: a re-plan of a cluster that is not disabled adds a voltage step, or lowers the clock by 100 MHz with a freeze of its cores for
at most 2 µs (5,400 bc at 2.7 GHz), or, below 2.1 GHz, disables it: its PARTMAP entries lose EN and its tasks are to be pre-empted; a lower
clock or a disabled cluster sets HIRQ.AGE. Power above the cap freezes a core's clocks and sets HIRQ.PWR, and at or below it nothing
happens; a cap of 0 or above 2,600 is 2,600. No register of a task changes. -/
def Obligations.AgeingAndPower : Prop :=
  (∀ (s : State) (cl : Fin 16), s.pkg.frz = 0 →
    let k := s.pkg.clk[cl]
    let raised (n : Nat) : List Nat := if s.pkg.hirqen.getLsbD n then s.pkg.msix ++ [n] else s.pkg.msix
    (k.off = true → ∀ v, exec (.ageingReplan cl v) s = .next s) ∧
    (k.off = false → exec (.ageingReplan cl true) s = .next { s with pkg := { s.pkg with clk := s.pkg.clk.set cl { k with vstep := k.vstep + 1 } } }) ∧
    (k.off = false → 21 < k.freq.toNat → ∃ t n, n ≤ 5400 ∧ exec (.ageingReplan cl false) s = .next t ∧ t.mem = s.mem ∧ t.dies = s.dies ∧
      t.pkg = { s.pkg with hirq := s.pkg.hirq ||| 4, msix := raised 2, clk := s.pkg.clk.set cl { k with freq := k.freq - 1 } } ∧
      ∀ c : Fin 256, t.cores[c] = if clusterOf c = cl then { s.cores[c] with freeze := s.cores[c].freeze + n } else s.cores[c]) ∧
    (k.off = false → k.freq.toNat ≤ 21 → ∃ t, exec (.ageingReplan cl false) s = .next t ∧ t.mem = s.mem ∧ t.dies = s.dies ∧
      t.pkg.hirq = s.pkg.hirq ||| 4 ∧ t.pkg.msix = raised 2 ∧ t.pkg.clk = s.pkg.clk.set cl { k with off := true } ∧
      (∀ c : Fin 256, t.pkg.partmap[c] = if clusterOf c = cl then s.pkg.partmap[c] &&& 0x7F else s.pkg.partmap[c]) ∧
      ∀ c : Fin 256, (clusterOf c ≠ cl → t.cores[c] = s.cores[c]) ∧ (clusterOf c = cl → t.cores[c].disabled = true ∧
        ∀ b, (t.cores[c]).ctx? b = ((s.cores[c]).ctx? b).map fun x => { x with preempt := true }))) ∧
  (∀ (s : State) (w : Nat) (c : Fin 256) (n : Nat), s.pkg.frz = 0 →
    let cap := if s.pkg.pwrcap.toNat = 0 ∨ 2600 < s.pkg.pwrcap.toNat then 2600 else s.pkg.pwrcap.toNat
    (w ≤ cap → exec (.powerThrottle w c n) s = .next s) ∧
    (cap < w → exec (.powerThrottle w c n) s = .next
      { s with cores := s.cores.set c { s.cores[c] with freeze := s.cores[c].freeze + n }, pkg := { s.pkg with hirq := s.pkg.hirq ||| 8, msix := if s.pkg.hirqen.getLsbD 3 then s.pkg.msix ++ [3] else s.pkg.msix } }))

/-- R350, R412, R420 (log entries 5, 53, 58 and 63 for what the rules leave open): freeze and readout. REQ
freezes a running module; SCAN starts a non-destructive and DSCAN a destructive readout, in the
states that allow it; a readout ends in state 3 or 4, and the scan window then
reads its words in sequence; THAW acts only in state 3, and there every
trained link trains again, and then the fault service takes up the answers that came while the
clocks stood, and a reset that began then cancels its job. No other state changes, and in a
frozen module packets, flits, accesses of its memory and the end of a reset do nothing, no clock passes
for a core, and time stands. A write of FRZCTL with one bit has that bit's effect. After a failed boot
SCAN, DSCAN and THAW do nothing. -/
def Obligations.FreezeAndReadout : Prop :=
  ∀ (s : State),
    let stays (e : Instr) : Prop := exec e s = .next s
    let settled : Prop := s.pkg.frz ≠ 0 ∨ ((s.dies[0]).answers = [] ∧ (s.dies[1]).answers = [] ∧ s.pkg.rstCancel = false)
    let ports : Vector Port 64 := s.pkg.ports.map fun p => if p.width = 0 then p else { p with up := false, retrains := p.retrains + 1, fails := 0 }
    let runs : State := { s with pkg := { s.pkg with frz := 0, ports := ports } }
    (s.pkg.frz = 0 → exec .freeze s = .next { s with pkg := { s.pkg with frz := 1 } }) ∧ (s.pkg.frz ≠ 0 → stays .freeze) ∧
    (s.pkg.halted = true → stays .scan ∧ stays .dscan ∧ stays .thaw) ∧
    (s.pkg.halted = false → s.pkg.frz = 1 → exec .scan s = .next { s with pkg := { s.pkg with frz := 2, dscan := false } }) ∧ (s.pkg.frz ≠ 1 → stays .scan) ∧
    (s.pkg.halted = false → s.pkg.frz = 1 ∨ s.pkg.frz = 3 → exec .dscan s = .next { s with pkg := { s.pkg with frz := 2, dscan := true } }) ∧
    (s.pkg.frz ≠ 1 → s.pkg.frz ≠ 3 → stays .dscan) ∧
    (s.pkg.frz = 2 → exec .readoutDone s = .next { s with free := s.free + 1, pkg := { s.pkg with frz := if s.pkg.dscan then 4 else 3, scanRun := s.free, scanPos := 0 } }) ∧ (s.pkg.frz ≠ 2 → stays .readoutDone) ∧
    (s.pkg.frz = 3 ∨ s.pkg.frz = 4 → s.readReg .scanWindow = Config.scanBits s.pkg.scanRun s.pkg.scanPos ∧
      s.afterRead .scanWindow = { s with pkg := { s.pkg with scanPos := s.pkg.scanPos + 1 } }) ∧
    (s.pkg.frz ≠ 3 → s.pkg.frz ≠ 4 → s.readReg .scanWindow = 0 ∧ s.afterRead .scanWindow = s) ∧ (∀ r, r ≠ .scanWindow → s.afterRead r = s) ∧
    (s.pkg.frz ≠ 3 → settled → stays .thaw) ∧
    (s.pkg.halted = false → s.pkg.frz = 3 → (s.dies[0]).answers = [] → (s.dies[1]).answers = [] → s.pkg.rstCancel = false → exec .thaw s = .next runs) ∧
    (s.pkg.halted = false → s.pkg.frz = 3 → exec .thaw s = .next (((runs.answersDue 0).answersDue 1).resetCancel)) ∧
    (∀ (d : Fin 2) (v w : Word), s.pkg.frz = 0 → ((s.dies[d]).answers = [v] → s.answersDue d = (s.updDie d fun x => { x with answers := [] }).writeFans d v) ∧
      ((s.dies[d]).answers = [v, w] → s.answersDue d = ((s.updDie d fun x => { x with answers := [] }).writeFans d v).writeFans d w)) ∧
    (∀ part, s.pkg.halted = false → s.pkg.frz = 3 → (s.dies[0]).answers = [] → (s.dies[1]).answers = [] → s.pkg.rstCancel = true → s.pkg.rstRun = some part →
      exec .thaw s = .next ((({ runs with pkg := { runs.pkg with rstCancel := false } } : State).cancelBy 0 part 4 part.toNat 0).cancelBy 1 part 4 part.toNat 0)) ∧
    (s.pkg.halted = false → settled →
      exec (.registerWrite .frzctl true 1) s = exec .freeze s ∧ exec (.registerWrite .frzctl true 2) s = exec .scan s ∧
      exec (.registerWrite .frzctl true 4) s = exec .thaw s ∧ exec (.registerWrite .frzctl true 8) s = exec .dscan s) ∧
    (s.pkg.frz ≠ 0 → (∀ n, s.passTime n = s) ∧ (∀ c, clockOf exec c s = s) ∧ stays .partitionResetDone ∧ (∀ a op (bs : List Byte), (∀ k < bs.length, ∀ d, physKind (a + k) ≠ .host d) → stays (.hostMemoryAccess a op bs)) ∧
      (∀ p q g, stays (.flitReceive p q g)) ∧
      (∀ p n, stays (.linkTrained p n)) ∧ (∀ c n, stays (.powerThrottle n c n)) ∧ (∀ d n, stays (.targetRequest d n)) ∧ (∀ d, stays (.gateEntryPop d)) ∧
      (∀ c b n, stays (.fabricItemSend c b n)) ∧ (∀ c, stays (.taskRetire c)) ∧ (∀ d n, stays (.launchAccept d n)) ∧ (∀ cl n, stays (.commit cl n)))

/-- R402, R424–R427, R436, R438 (log entries 46, 48 and 76): the links. The next flit is taken, one
taken before is discarded, one that comes after a gap is asked for again, and one that fails its
CRC as well; the 17th failure in a row of the flit that is awaited trains the link again. On the die-to-die
link the 17th such failure in a row makes the accesses that need the link fail, until a flit passes.
A lane's failure retrains the link at the next lower width and marks it degraded, and the last
lane's takes it down; training at a width brings it up. A time code sets the slot counter, which
then runs with the clock, and a priority flow control frame pauses and resumes the classes it
names, and a frame that waits for a class that is not paused any more leaves. -/
def Obligations.Links : Prop :=
  ∀ (s : State), s.pkg.frz = 0 →
    (∀ (n : Fin 48) (p : Port), s.pkg.ports[n.val] = p →
      let m : Fin 49 := ⟨n.val, by omega⟩
      let ends (e : Instr) (q : Port) : Prop := exec e s = .next { s with pkg := { s.pkg with ports := s.pkg.ports.set n.val q } }
      let failed : Port := { p with replays := p.replays + 1, fails := p.fails + 1 }
      (∀ q g, p.up = false → ends (.flitReceive m q g) p) ∧
      (p.up = true → ends (.flitReceive m p.expected true) { p with expected := p.expected + 1, fails := 0 }) ∧
      (∀ q, p.up = true → q < p.expected → ends (.flitReceive m q true) p) ∧
      (∀ q, p.up = true → p.expected < q → ends (.flitReceive m q true) { p with replays := p.replays + 1 }) ∧
      (∀ q, p.up = true → q ≠ p.expected → ends (.flitReceive m q false) { p with replays := p.replays + 1 }) ∧
      (p.up = true → p.fails < 16 → ends (.flitReceive m p.expected false) failed) ∧
      (p.up = true → 16 ≤ p.fails → ends (.flitReceive m p.expected false) { failed with up := false, retrains := p.retrains + 1, fails := 0 }) ∧
      (p.width = 0 → ends (.laneFailure n) p) ∧ (p.width = 1 → ends (.laneFailure n) { p with width := 0, up := false, cdeg := true, fails := 0 }) ∧
      (2 ≤ p.width.toNat → ends (.laneFailure n) { p with width := p.width - 1, up := false, retrains := p.retrains + 1, fails := 0, cdeg := true }) ∧
      (∀ w : BitVec 2, w ≠ 0 → ends (.linkTrained n w) { p with width := w, up := true, cdeg := decide (w ≠ 3), fails := 0 })) ∧
    (let p := s.pkg
     let ends (q : Nat) (g : Bool) (x : Package) : Prop := exec (.flitReceive 48 q g) s = .next { s with pkg := x }
     ends p.d2dNext true { p with d2dNext := p.d2dNext + 1, d2dFails := 0, d2dLost := false } ∧ (∀ q g, q ≠ p.d2dNext → ends q g p) ∧
     (p.d2dFails < 16 → ends p.d2dNext false { p with d2dFails := p.d2dFails + 1 }) ∧ (16 ≤ p.d2dFails → ends p.d2dNext false { p with d2dFails := p.d2dFails + 1, d2dLost := true })) ∧
    (∀ (d : Fin 2) (n : BitVec 8), exec (.timeCode d n) s = .next (s.updDie d fun x => { x with slotNow := n, slotAt := s.now })) ∧
    (∀ (n : Fin 16) (classes pause : BitVec 8), ∃ t : State, exec (.priorityFlowControl n classes pause) s = .next t ∧ t.cores = s.cores ∧ t.dies = s.dies ∧
      t.pkg.egress = s.pkg.egress.map (fun (o : OutPkt) => if o.port = 48 + n.val ∧ (t.pkg.ports[48 + n.val]).paused.getLsbD o.qcls.toNat = false then { o with waits := false } else o) ∧
      ∀ m : Fin 64, (t.pkg.ports[m] = if m.val = 48 + n.val then { s.pkg.ports[m] with paused := t.pkg.ports[m].paused } else s.pkg.ports[m]) ∧
        (m.val = 48 + n.val → ∀ i : Fin 8, (t.pkg.ports[m].paused).getLsbD i = if classes.getLsbD i then pause.getLsbD i else (s.pkg.ports[m].paused).getLsbD i))
end

