-- ==== Sys2Proof/Laws/Exec.lean ====
section
/-! SUPPORT. What the dispatch calls for each instruction, one equation per constructor of Instr, so that no proof unfolds
`exec`. -/
namespace Sys2Proof.Machine

@[simp] theorem exec_add (g rd rs rt) (s : State) : exec (.add g rd rs rt) s = execAdd g rd rs rt s := rfl
@[simp] theorem exec_sub (g rd rs rt) (s : State) : exec (.sub g rd rs rt) s = execSub g rd rs rt s := rfl
@[simp] theorem exec_and (g rd rs rt) (s : State) : exec (.and g rd rs rt) s = execAnd g rd rs rt s := rfl
@[simp] theorem exec_or (g rd rs rt) (s : State) : exec (.or g rd rs rt) s = execOr g rd rs rt s := rfl
@[simp] theorem exec_xor (g rd rs rt) (s : State) : exec (.xor g rd rs rt) s = execXor g rd rs rt s := rfl
@[simp] theorem exec_andn (g rd rs rt) (s : State) : exec (.andn g rd rs rt) s = execAndn g rd rs rt s := rfl
@[simp] theorem exec_sll (g rd rs rt) (s : State) : exec (.sll g rd rs rt) s = execSll g rd rs rt s := rfl
@[simp] theorem exec_srl (g rd rs rt) (s : State) : exec (.srl g rd rs rt) s = execSrl g rd rs rt s := rfl
@[simp] theorem exec_sra (g rd rs rt) (s : State) : exec (.sra g rd rs rt) s = execSra g rd rs rt s := rfl
@[simp] theorem exec_ror (g rd rs rt) (s : State) : exec (.ror g rd rs rt) s = execRor g rd rs rt s := rfl
@[simp] theorem exec_slt (g rd rs rt) (s : State) : exec (.slt g rd rs rt) s = execSlt g rd rs rt s := rfl
@[simp] theorem exec_sltn (g rd rs rt) (s : State) : exec (.sltn g rd rs rt) s = execSltn g rd rs rt s := rfl
@[simp] theorem exec_seq (g rd rs rt) (s : State) : exec (.seq g rd rs rt) s = execSeq g rd rs rt s := rfl
@[simp] theorem exec_sne (g rd rs rt) (s : State) : exec (.sne g rd rs rt) s = execSne g rd rs rt s := rfl
@[simp] theorem exec_min (g rd rs rt) (s : State) : exec (.min g rd rs rt) s = execMin g rd rs rt s := rfl
@[simp] theorem exec_max (g rd rs rt) (s : State) : exec (.max g rd rs rt) s = execMax g rd rs rt s := rfl
@[simp] theorem exec_minn (g rd rs rt) (s : State) : exec (.minn g rd rs rt) s = execMinn g rd rs rt s := rfl
@[simp] theorem exec_maxn (g rd rs rt) (s : State) : exec (.maxn g rd rs rt) s = execMaxn g rd rs rt s := rfl
@[simp] theorem exec_mul (g rd rs rt) (s : State) : exec (.mul g rd rs rt) s = execMul g rd rs rt s := rfl
@[simp] theorem exec_mulh (g rd rs rt) (s : State) : exec (.mulh g rd rs rt) s = execMulh g rd rs rt s := rfl
@[simp] theorem exec_mulhn (g rd rs rt) (s : State) : exec (.mulhn g rd rs rt) s = execMulhn g rd rs rt s := rfl
@[simp] theorem exec_div (g rd rs rt) (s : State) : exec (.div g rd rs rt) s = execDiv g rd rs rt s := rfl
@[simp] theorem exec_divn (g rd rs rt) (s : State) : exec (.divn g rd rs rt) s = execDivn g rd rs rt s := rfl
@[simp] theorem exec_rem (g rd rs rt) (s : State) : exec (.rem g rd rs rt) s = execRem g rd rs rt s := rfl
@[simp] theorem exec_remn (g rd rs rt) (s : State) : exec (.remn g rd rs rt) s = execRemn g rd rs rt s := rfl
@[simp] theorem exec_bfxr (g rd rs rt) (s : State) : exec (.bfxr g rd rs rt) s = execBfxr g rd rs rt s := rfl
@[simp] theorem exec_bfir (g rd rs rt) (s : State) : exec (.bfir g rd rs rt) s = execBfir g rd rs rt s := rfl
@[simp] theorem exec_popc (g rd rs) (s : State) : exec (.popc g rd rs) s = execPopc g rd rs s := rfl
@[simp] theorem exec_clz (g rd rs) (s : State) : exec (.clz g rd rs) s = execClz g rd rs s := rfl
@[simp] theorem exec_fadd (g rd rs rt fmt) (s : State) : exec (.fadd g rd rs rt fmt) s = execFadd g rd rs rt fmt s := rfl
@[simp] theorem exec_fsub (g rd rs rt fmt) (s : State) : exec (.fsub g rd rs rt fmt) s = execFsub g rd rs rt fmt s := rfl
@[simp] theorem exec_fmul (g rd rs rt fmt) (s : State) : exec (.fmul g rd rs rt fmt) s = execFmul g rd rs rt fmt s := rfl
@[simp] theorem exec_ffma (g rd rs rt fmt) (s : State) : exec (.ffma g rd rs rt fmt) s = execFfma g rd rs rt fmt s := rfl
@[simp] theorem exec_fmin (g rd rs rt fmt) (s : State) : exec (.fmin g rd rs rt fmt) s = execFmin g rd rs rt fmt s := rfl
@[simp] theorem exec_fmax (g rd rs rt fmt) (s : State) : exec (.fmax g rd rs rt fmt) s = execFmax g rd rs rt fmt s := rfl
@[simp] theorem exec_fdiv (g rd rs rt fmt) (s : State) : exec (.fdiv g rd rs rt fmt) s = execFdiv g rd rs rt fmt s := rfl
@[simp] theorem exec_fsqrt (g rd rs fmt) (s : State) : exec (.fsqrt g rd rs fmt) s = execFsqrt g rd rs fmt s := rfl
@[simp] theorem exec_fceq (g rd rs rt fmt) (s : State) : exec (.fceq g rd rs rt fmt) s = execFceq g rd rs rt fmt s := rfl
@[simp] theorem exec_fclt (g rd rs rt fmt) (s : State) : exec (.fclt g rd rs rt fmt) s = execFclt g rd rs rt fmt s := rfl
@[simp] theorem exec_fcle (g rd rs rt fmt) (s : State) : exec (.fcle g rd rs rt fmt) s = execFcle g rd rs rt fmt s := rfl
@[simp] theorem exec_fcvt (g rd rs sel) (s : State) : exec (.fcvt g rd rs sel) s = execFcvt g rd rs sel s := rfl
@[simp] theorem exec_fmov (g rd rs) (s : State) : exec (.fmov g rd rs) s = execFmov g rd rs s := rfl
@[simp] theorem exec_gtail (g rd rs) (s : State) : exec (.gtail g rd rs) s = execGtail g rd rs s := rfl
@[simp] theorem exec_stail (g rd rs) (s : State) : exec (.stail g rd rs) s = execStail g rd rs s := rfl
@[simp] theorem exec_stageMs (g num rs) (s : State) : exec (.stageMs g num rs) s = execStageMs g num rs s := rfl
@[simp] theorem exec_stageWs (g num rs) (s : State) : exec (.stageWs g num rs) s = execStageWs g num rs s := rfl
@[simp] theorem exec_stageFs (g num rs) (s : State) : exec (.stageFs g num rs) s = execStageFs g num rs s := rfl
@[simp] theorem exec_addi (rd rs imm) (s : State) : exec (.addi rd rs imm) s = execAddi rd rs imm s := rfl
@[simp] theorem exec_andi (rd rs imm) (s : State) : exec (.andi rd rs imm) s = execAndi rd rs imm s := rfl
@[simp] theorem exec_ori (rd rs imm) (s : State) : exec (.ori rd rs imm) s = execOri rd rs imm s := rfl
@[simp] theorem exec_xori (rd rs imm) (s : State) : exec (.xori rd rs imm) s = execXori rd rs imm s := rfl
@[simp] theorem exec_slli (rd rs amt) (s : State) : exec (.slli rd rs amt) s = execSlli rd rs amt s := rfl
@[simp] theorem exec_srli (rd rs amt) (s : State) : exec (.srli rd rs amt) s = execSrli rd rs amt s := rfl
@[simp] theorem exec_srai (rd rs amt) (s : State) : exec (.srai rd rs amt) s = execSrai rd rs amt s := rfl
@[simp] theorem exec_rori (rd rs amt) (s : State) : exec (.rori rd rs amt) s = execRori rd rs amt s := rfl
@[simp] theorem exec_slti (rd rs imm) (s : State) : exec (.slti rd rs imm) s = execSlti rd rs imm s := rfl
@[simp] theorem exec_sltni (rd rs imm) (s : State) : exec (.sltni rd rs imm) s = execSltni rd rs imm s := rfl
@[simp] theorem exec_bfx (rd rs wid off) (s : State) : exec (.bfx rd rs wid off) s = execBfx rd rs wid off s := rfl
@[simp] theorem exec_bfi (rd rs wid off) (s : State) : exec (.bfi rd rs wid off) s = execBfi rd rs wid off s := rfl
@[simp] theorem exec_ld (rd rs ty off) (s : State) : exec (.ld rd rs ty off) s = execLd rd rs ty off s := rfl
@[simp] theorem exec_st (rd rs ty off) (s : State) : exec (.st rd rs ty off) s = execSt rd rs ty off s := rfl
@[simp] theorem exec_stf (rd rs ty off) (s : State) : exec (.stf rd rs ty off) s = execStf rd rs ty off s := rfl
@[simp] theorem exec_crd (rd cidx) (s : State) : exec (.crd rd cidx) s = execCrd rd cidx s := rfl
@[simp] theorem exec_cwr (rs cidx) (s : State) : exec (.cwr rs cidx) s = execCwr rs cidx s := rfl
@[simp] theorem exec_lui (rd imm) (s : State) : exec (.lui rd imm) s = execLui rd imm s := rfl
@[simp] theorem exec_aupc (rd imm) (s : State) : exec (.aupc rd imm) s = execAupc rd imm s := rfl
@[simp] theorem exec_br (g imm) (s : State) : exec (.br g imm) s = execBr g imm s := rfl
@[simp] theorem exec_call (g imm) (s : State) : exec (.call g imm) s = execCall g imm s := rfl
@[simp] theorem exec_jr (g rs) (s : State) : exec (.jr g rs) s = execJr g rs s := rfl
@[simp] theorem exec_callr (g rs) (s : State) : exec (.callr g rs) s = execCallr g rs s := rfl
@[simp] theorem exec_bz (g rs imm) (s : State) : exec (.bz g rs imm) s = execBz g rs imm s := rfl
@[simp] theorem exec_bnz (g rs imm) (s : State) : exec (.bnz g rs imm) s = execBnz g rs imm s := rfl
@[simp] theorem exec_bbs (g rs bitn imm) (s : State) : exec (.bbs g rs bitn imm) s = execBbs g rs bitn imm s := rfl
@[simp] theorem exec_bbc (g rs bitn imm) (s : State) : exec (.bbc g rs bitn imm) s = execBbc g rs bitn imm s := rfl
@[simp] theorem exec_loop (g rs imm) (s : State) : exec (.loop g rs imm) s = execLoop g rs imm s := rfl
@[simp] theorem exec_wait (g k thr) (s : State) : exec (.wait g k thr) s = execWait g k thr s := rfl
@[simp] theorem exec_waitr (g k rs) (s : State) : exec (.waitr g k rs) s = execWaitr g k rs s := rfl
@[simp] theorem exec_tkset (g k imm) (s : State) : exec (.tkset g k imm) s = execTkset g k imm s := rfl
@[simp] theorem exec_dly (g num) (s : State) : exec (.dly g num) s = execDly g num s := rfl
@[simp] theorem exec_bar (g) (s : State) : exec (.bar g) s = execBar g s := rfl
@[simp] theorem exec_sysLaunch (g rs) (s : State) : exec (.sysLaunch g rs) s = execSysLaunch g rs s := rfl
@[simp] theorem exec_sigDec (g rs rt) (s : State) : exec (.sigDec g rs rt) s = execSigDec g rs rt s := rfl
@[simp] theorem exec_sigWait (g rs rt) (s : State) : exec (.sigWait g rs rt) s = execSigWait g rs rt s := rfl
@[simp] theorem exec_trap (g code) (s : State) : exec (.trap g code) s = execTrap g code s := rfl
@[simp] theorem exec_tret (g) (s : State) : exec (.tret g) s = execTret g s := rfl
@[simp] theorem exec_ilock (g rd rs) (s : State) : exec (.ilock g rd rs) s = execIlock g rd rs s := rfl
@[simp] theorem exec_iunlk (g rs) (s : State) : exec (.iunlk g rs) s = execIunlk g rs s := rfl
@[simp] theorem exec_fence (g scope) (s : State) : exec (.fence g scope) s = execFence g scope s := rfl
@[simp] theorem exec_tgive (g tile owner) (s : State) : exec (.tgive g tile owner) s = execTgive g tile owner s := rfl
@[simp] theorem exec_endTask (g) (s : State) : exec (.endTask g) s = execEndTask g s := rfl
@[simp] theorem exec_vadd (g ty vd va vb) (s : State) : exec (.vadd g ty vd va vb) s = execVadd g ty vd va vb s := rfl
@[simp] theorem exec_vsub (g ty vd va vb) (s : State) : exec (.vsub g ty vd va vb) s = execVsub g ty vd va vb s := rfl
@[simp] theorem exec_vmul (g ty vd va vb) (s : State) : exec (.vmul g ty vd va vb) s = execVmul g ty vd va vb s := rfl
@[simp] theorem exec_vmulh (g ty vd va vb) (s : State) : exec (.vmulh g ty vd va vb) s = execVmulh g ty vd va vb s := rfl
@[simp] theorem exec_vsadd (g ty vd va vb) (s : State) : exec (.vsadd g ty vd va vb) s = execVsadd g ty vd va vb s := rfl
@[simp] theorem exec_vssub (g ty vd va vb) (s : State) : exec (.vssub g ty vd va vb) s = execVssub g ty vd va vb s := rfl
@[simp] theorem exec_vabs (g ty vd va) (s : State) : exec (.vabs g ty vd va) s = execVabs g ty vd va s := rfl
@[simp] theorem exec_vneg (g ty vd va) (s : State) : exec (.vneg g ty vd va) s = execVneg g ty vd va s := rfl
@[simp] theorem exec_vand (g ty vd va vb) (s : State) : exec (.vand g ty vd va vb) s = execVand g ty vd va vb s := rfl
@[simp] theorem exec_vor (g ty vd va vb) (s : State) : exec (.vor g ty vd va vb) s = execVor g ty vd va vb s := rfl
@[simp] theorem exec_vxor (g ty vd va vb) (s : State) : exec (.vxor g ty vd va vb) s = execVxor g ty vd va vb s := rfl
@[simp] theorem exec_vandn (g ty vd va vb) (s : State) : exec (.vandn g ty vd va vb) s = execVandn g ty vd va vb s := rfl
@[simp] theorem exec_vshl (g ty vd va vb) (s : State) : exec (.vshl g ty vd va vb) s = execVshl g ty vd va vb s := rfl
@[simp] theorem exec_vshr (g ty vd va vb) (s : State) : exec (.vshr g ty vd va vb) s = execVshr g ty vd va vb s := rfl
@[simp] theorem exec_vmin (g ty vd va vb) (s : State) : exec (.vmin g ty vd va vb) s = execVmin g ty vd va vb s := rfl
@[simp] theorem exec_vmax (g ty vd va vb) (s : State) : exec (.vmax g ty vd va vb) s = execVmax g ty vd va vb s := rfl
@[simp] theorem exec_vfadd (g ty vd va vb) (s : State) : exec (.vfadd g ty vd va vb) s = execVfadd g ty vd va vb s := rfl
@[simp] theorem exec_vfsub (g ty vd va vb) (s : State) : exec (.vfsub g ty vd va vb) s = execVfsub g ty vd va vb s := rfl
@[simp] theorem exec_vfmul (g ty vd va vb) (s : State) : exec (.vfmul g ty vd va vb) s = execVfmul g ty vd va vb s := rfl
@[simp] theorem exec_vfma (g ty vd va vb) (s : State) : exec (.vfma g ty vd va vb) s = execVfma g ty vd va vb s := rfl
@[simp] theorem exec_vfms (g ty vd va vb) (s : State) : exec (.vfms g ty vd va vb) s = execVfms g ty vd va vb s := rfl
@[simp] theorem exec_vfmin (g ty vd va vb) (s : State) : exec (.vfmin g ty vd va vb) s = execVfmin g ty vd va vb s := rfl
@[simp] theorem exec_vfmax (g ty vd va vb) (s : State) : exec (.vfmax g ty vd va vb) s = execVfmax g ty vd va vb s := rfl
@[simp] theorem exec_vfneg (g ty vd va) (s : State) : exec (.vfneg g ty vd va) s = execVfneg g ty vd va s := rfl
@[simp] theorem exec_vfabs (g ty vd va) (s : State) : exec (.vfabs g ty vd va) s = execVfabs g ty vd va s := rfl
@[simp] theorem exec_vfredsum (g ty vd va) (s : State) : exec (.vfredsum g ty vd va) s = execVfredsum g ty vd va s := rfl
@[simp] theorem exec_vfredmax (g ty vd va) (s : State) : exec (.vfredmax g ty vd va) s = execVfredmax g ty vd va s := rfl
@[simp] theorem exec_vfredmin (g ty vd va) (s : State) : exec (.vfredmin g ty vd va) s = execVfredmin g ty vd va s := rfl
@[simp] theorem exec_vredsum (g ty vd va) (s : State) : exec (.vredsum g ty vd va) s = execVredsum g ty vd va s := rfl
@[simp] theorem exec_vredmax (g ty vd va) (s : State) : exec (.vredmax g ty vd va) s = execVredmax g ty vd va s := rfl
@[simp] theorem exec_vredmin (g ty vd va) (s : State) : exec (.vredmin g ty vd va) s = execVredmin g ty vd va s := rfl
@[simp] theorem exec_vsel (g sz vd va vb) (s : State) : exec (.vsel g sz vd va vb) s = execVsel g sz vd va vb s := rfl
@[simp] theorem exec_vceq (g ty vd va vb) (s : State) : exec (.vceq g ty vd va vb) s = execVceq g ty vd va vb s := rfl
@[simp] theorem exec_vcne (g ty vd va vb) (s : State) : exec (.vcne g ty vd va vb) s = execVcne g ty vd va vb s := rfl
@[simp] theorem exec_vclt (g ty vd va vb) (s : State) : exec (.vclt g ty vd va vb) s = execVclt g ty vd va vb s := rfl
@[simp] theorem exec_vcle (g ty vd va vb) (s : State) : exec (.vcle g ty vd va vb) s = execVcle g ty vd va vb s := rfl
@[simp] theorem exec_vfceq (g ty vd va vb) (s : State) : exec (.vfceq g ty vd va vb) s = execVfceq g ty vd va vb s := rfl
@[simp] theorem exec_vfclt (g ty vd va vb) (s : State) : exec (.vfclt g ty vd va vb) s = execVfclt g ty vd va vb s := rfl
@[simp] theorem exec_vfcle (g ty vd va vb) (s : State) : exec (.vfcle g ty vd va vb) s = execVfcle g ty vd va vb s := rfl
@[simp] theorem exec_vfcun (g ty vd va vb) (s : State) : exec (.vfcun g ty vd va vb) s = execVfcun g ty vd va vb s := rfl
@[simp] theorem exec_vperm (g sz vd va vb) (s : State) : exec (.vperm g sz vd va vb) s = execVperm g sz vd va vb s := rfl
@[simp] theorem exec_vzip (g sz vd va vb) (s : State) : exec (.vzip g sz vd va vb) s = execVzip g sz vd va vb s := rfl
@[simp] theorem exec_vunzip (g sz vd va vb) (s : State) : exec (.vunzip g sz vd va vb) s = execVunzip g sz vd va vb s := rfl
@[simp] theorem exec_vrot (g sz vd va rs) (s : State) : exec (.vrot g sz vd va rs) s = execVrot g sz vd va rs s := rfl
@[simp] theorem exec_vbcast (g sz vd rs) (s : State) : exec (.vbcast g sz vd rs) s = execVbcast g sz vd rs s := rfl
@[simp] theorem exec_vext (g sz vd va rs) (s : State) : exec (.vext g sz vd va rs) s = execVext g sz vd va rs s := rfl
@[simp] theorem exec_vins (g sz vd va rs) (s : State) : exec (.vins g sz vd va rs) s = execVins g sz vd va rs s := rfl
@[simp] theorem exec_vmov (g sz vd va) (s : State) : exec (.vmov g sz vd va) s = execVmov g sz vd va s := rfl
@[simp] theorem exec_vwadd (g ty vd va vb) (s : State) : exec (.vwadd g ty vd va vb) s = execVwadd g ty vd va vb s := rfl
@[simp] theorem exec_vwmul (g ty vd va vb) (s : State) : exec (.vwmul g ty vd va vb) s = execVwmul g ty vd va vb s := rfl
@[simp] theorem exec_vfwma (g ty vd va vb) (s : State) : exec (.vfwma g ty vd va vb) s = execVfwma g ty vd va vb s := rfl
@[simp] theorem exec_pand (g vd va vb) (s : State) : exec (.pand g vd va vb) s = execPand g vd va vb s := rfl
@[simp] theorem exec_por (g vd va vb) (s : State) : exec (.por g vd va vb) s = execPor g vd va vb s := rfl
@[simp] theorem exec_pxor (g vd va vb) (s : State) : exec (.pxor g vd va vb) s = execPxor g vd va vb s := rfl
@[simp] theorem exec_pandn (g vd va vb) (s : State) : exec (.pandn g vd va vb) s = execPandn g vd va vb s := rfl
@[simp] theorem exec_vcvtFloat (g fmt vd va sty) (s : State) : exec (.vcvtFloat g fmt vd va sty) s = execVcvtFloat g fmt vd va sty s := rfl
@[simp] theorem exec_vcvtInt (g fmt vd va sty) (s : State) : exec (.vcvtInt g fmt vd va sty) s = execVcvtInt g fmt vd va sty s := rfl
@[simp] theorem exec_qmax (g va) (s : State) : exec (.qmax g va) s = execQmax g va s := rfl
@[simp] theorem exec_qcvt (g vd va) (s : State) : exec (.qcvt g vd va) s = execQcvt g vd va s := rfl
@[simp] theorem exec_vrcp (g fmt vd va) (s : State) : exec (.vrcp g fmt vd va) s = execVrcp g fmt vd va s := rfl
@[simp] theorem exec_vrsqrt (g fmt vd va) (s : State) : exec (.vrsqrt g fmt vd va) s = execVrsqrt g fmt vd va s := rfl
@[simp] theorem exec_vsqrt (g fmt vd va) (s : State) : exec (.vsqrt g fmt vd va) s = execVsqrt g fmt vd va s := rfl
@[simp] theorem exec_vdiv (g fmt vd va vb) (s : State) : exec (.vdiv g fmt vd va vb) s = execVdiv g fmt vd va vb s := rfl
@[simp] theorem exec_vexp2 (g fmt vd va) (s : State) : exec (.vexp2 g fmt vd va) s = execVexp2 g fmt vd va s := rfl
@[simp] theorem exec_vlog2 (g fmt vd va) (s : State) : exec (.vlog2 g fmt vd va) s = execVlog2 g fmt vd va s := rfl
@[simp] theorem exec_vexp (g fmt vd va) (s : State) : exec (.vexp g fmt vd va) s = execVexp g fmt vd va s := rfl
@[simp] theorem exec_vlog (g fmt vd va) (s : State) : exec (.vlog g fmt vd va) s = execVlog g fmt vd va s := rfl
@[simp] theorem exec_vsin (g fmt vd va) (s : State) : exec (.vsin g fmt vd va) s = execVsin g fmt vd va s := rfl
@[simp] theorem exec_vcos (g fmt vd va) (s : State) : exec (.vcos g fmt vd va) s = execVcos g fmt vd va s := rfl
@[simp] theorem exec_vtanh (g fmt vd va) (s : State) : exec (.vtanh g fmt vd va) s = execVtanh g fmt vd va s := rfl
@[simp] theorem exec_vsigm (g fmt vd va) (s : State) : exec (.vsigm g fmt vd va) s = execVsigm g fmt vd va s := rfl
@[simp] theorem exec_verf (g fmt vd va) (s : State) : exec (.verf g fmt vd va) s = execVerf g fmt vd va s := rfl
@[simp] theorem exec_vrint (g fmt vd va) (s : State) : exec (.vrint g fmt vd va) s = execVrint g fmt vd va s := rfl
@[simp] theorem exec_vscl (g fmt vd va vb) (s : State) : exec (.vscl g fmt vd va vb) s = execVscl g fmt vd va vb s := rfl
@[simp] theorem exec_mload (g k tile) (s : State) : exec (.mload g k tile) s = execMload g k tile s := rfl
@[simp] theorem exec_mswap (g k) (s : State) : exec (.mswap g k) s = execMswap g k s := rfl
@[simp] theorem exec_mstream (g k tile) (s : State) : exec (.mstream g k tile) s = execMstream g k tile s := rfl
@[simp] theorem exec_mstreamz (g k tile) (s : State) : exec (.mstreamz g k tile) s = execMstreamz g k tile s := rfl
@[simp] theorem exec_mstore (g k tile) (s : State) : exec (.mstore g k tile) s = execMstore g k tile s := rfl
@[simp] theorem exec_mzero (g k) (s : State) : exec (.mzero g k) s = execMzero g k s := rfl
@[simp] theorem exec_mscaleW (g k tile) (s : State) : exec (.mscaleW g k tile) s = execMscaleW g k tile s := rfl
@[simp] theorem exec_mscaleA (g k tile) (s : State) : exec (.mscaleA g k tile) s = execMscaleA g k tile s := rfl
@[simp] theorem exec_mread (g k vd) (s : State) : exec (.mread g k vd) s = execMread g k vd s := rfl
@[simp] theorem exec_mwrite (g k va) (s : State) : exec (.mwrite g k va) s = execMwrite g k va s := rfl
@[simp] theorem exec_mdrain (g k) (s : State) : exec (.mdrain g k) s = execMdrain g k s := rfl
@[simp] theorem exec_ldV (slot g reg base off) (s : State) : exec (.ldV slot g reg base off) s = execLdV slot g reg base off s := rfl
@[simp] theorem exec_stV (slot g reg base off) (s : State) : exec (.stV slot g reg base off) s = execStV slot g reg base off s := rfl
@[simp] theorem exec_stVF32 (slot g reg base off) (s : State) : exec (.stVF32 slot g reg base off) s = execStVF32 slot g reg base off s := rfl
@[simp] theorem exec_stVF16 (slot g reg base off) (s : State) : exec (.stVF16 slot g reg base off) s = execStVF16 slot g reg base off s := rfl
@[simp] theorem exec_stVBf16 (slot g reg base off) (s : State) : exec (.stVBf16 slot g reg base off) s = execStVBf16 slot g reg base off s := rfl
@[simp] theorem exec_stVE4m3 (slot g reg base off) (s : State) : exec (.stVE4m3 slot g reg base off) s = execStVE4m3 slot g reg base off s := rfl
@[simp] theorem exec_stVE5m2 (slot g reg base off) (s : State) : exec (.stVE5m2 slot g reg base off) s = execStVE5m2 slot g reg base off s := rfl
@[simp] theorem exec_ldP (slot g reg base off) (s : State) : exec (.ldP slot g reg base off) s = execLdP slot g reg base off s := rfl
@[simp] theorem exec_stP (slot g reg base off) (s : State) : exec (.stP slot g reg base off) s = execStP slot g reg base off s := rfl
@[simp] theorem exec_vspill (slot g reg base off) (s : State) : exec (.vspill slot g reg base off) s = execVspill slot g reg base off s := rfl
@[simp] theorem exec_vfill (slot g reg base off) (s : State) : exec (.vfill slot g reg base off) s = execVfill slot g reg base off s := rfl
@[simp] theorem exec_ldVb (slot g reg base off) (s : State) : exec (.ldVb slot g reg base off) s = execLdVb slot g reg base off s := rfl
@[simp] theorem exec_wnCopy (g k) (s : State) : exec (.wnCopy g k) s = execWnCopy g k s := rfl
@[simp] theorem exec_wnGather (g k) (s : State) : exec (.wnGather g k) s = execWnGather g k s := rfl
@[simp] theorem exec_wnScatter (g k) (s : State) : exec (.wnScatter g k) s = execWnScatter g k s := rfl
@[simp] theorem exec_wnDecode (g k) (s : State) : exec (.wnDecode g k) s = execWnDecode g k s := rfl
@[simp] theorem exec_wnEncode (g k) (s : State) : exec (.wnEncode g k) s = execWnEncode g k s := rfl
@[simp] theorem exec_wnExpand (g k) (s : State) : exec (.wnExpand g k) s = execWnExpand g k s := rfl
@[simp] theorem exec_wnFlush (g k) (s : State) : exec (.wnFlush g k) s = execWnFlush g k s := rfl
@[simp] theorem exec_wnFar (g k sd) (s : State) : exec (.wnFar g k sd) s = execWnFar g k sd s := rfl
@[simp] theorem exec_vspillM (g k vfirst vlast) (s : State) : exec (.vspillM g k vfirst vlast) s = execVspillM g k vfirst vlast s := rfl
@[simp] theorem exec_vfillM (g k vfirst vlast) (s : State) : exec (.vfillM g k vfirst vlast) s = execVfillM g k vfirst vlast s := rfl
@[simp] theorem exec_fxLd (g k) (s : State) : exec (.fxLd g k) s = execFxLd g k s := rfl
@[simp] theorem exec_fxSt (g k) (s : State) : exec (.fxSt g k) s = execFxSt g k s := rfl
@[simp] theorem exec_fxAdd (g k ty) (s : State) : exec (.fxAdd g k ty) s = execFxAdd g k ty s := rfl
@[simp] theorem exec_fxMin (g k ty) (s : State) : exec (.fxMin g k ty) s = execFxMin g k ty s := rfl
@[simp] theorem exec_fxMax (g k ty) (s : State) : exec (.fxMax g k ty) s = execFxMax g k ty s := rfl
@[simp] theorem exec_fxSwap (g k ty) (s : State) : exec (.fxSwap g k ty) s = execFxSwap g k ty s := rfl
@[simp] theorem exec_fxCas (g k ty) (s : State) : exec (.fxCas g k ty) s = execFxCas g k ty s := rfl
@[simp] theorem exec_fxAnd (g k ty) (s : State) : exec (.fxAnd g k ty) s = execFxAnd g k ty s := rfl
@[simp] theorem exec_fxOr (g k ty) (s : State) : exec (.fxOr g k ty) s = execFxOr g k ty s := rfl
@[simp] theorem exec_fxFlush (g k) (s : State) : exec (.fxFlush g k) s = execFxFlush g k s := rfl
@[simp] theorem exec_fxFence (g k vd scope) (s : State) : exec (.fxFence g k vd scope) s = execFxFence g k vd scope s := rfl
@[simp] theorem exec_fxSdec (g k) (s : State) : exec (.fxSdec g k) s = execFxSdec g k s := rfl
@[simp] theorem exec_actNop (l) (s : State) : exec (.actNop l) s = execActNop l s := rfl
@[simp] theorem exec_actSet (l doff dw d imm) (s : State) : exec (.actSet l doff dw d imm) s = execActSet l doff dw d imm s := rfl
@[simp] theorem exec_actCopy (l doff dw soff sw) (s : State) : exec (.actCopy l doff dw soff sw) s = execActCopy l doff dw soff sw s := rfl
@[simp] theorem exec_actAdd (l doff dw d imm) (s : State) : exec (.actAdd l doff dw d imm) s = execActAdd l doff dw d imm s := rfl
@[simp] theorem exec_actHash (l doff dw fmask) (s : State) : exec (.actHash l doff dw fmask) s = execActHash l doff dw fmask s := rfl
@[simp] theorem exec_actRegAdd (l doff dw soff sw d x wb base) (s : State) : exec (.actRegAdd l doff dw soff sw d x wb base) s = execActRegAdd l doff dw soff sw d x wb base s := rfl
@[simp] theorem exec_actRegMax (l doff dw soff sw d x wb base) (s : State) : exec (.actRegMax l doff dw soff sw d x wb base) s = execActRegMax l doff dw soff sw d x wb base s := rfl
@[simp] theorem exec_actCount (l soff sw x base) (s : State) : exec (.actCount l soff sw x base) s = execActCount l soff sw x base s := rfl
@[simp] theorem exec_actMark (l bits) (s : State) : exec (.actMark l bits) s = execActMark l bits s := rfl
@[simp] theorem exec_actFwd (l soff x peer port) (s : State) : exec (.actFwd l soff x peer port) s = execActFwd l soff x peer port s := rfl
@[simp] theorem exec_actDrop (l code) (s : State) : exec (.actDrop l code) s = execActDrop l code s := rfl
@[simp] theorem exec_actRoute (l doff soff sw base) (s : State) : exec (.actRoute l doff soff sw base) s = execActRoute l doff soff sw base s := rfl
@[simp] theorem exec_actAbsorb (l soff sw x core tile off) (s : State) : exec (.actAbsorb l soff sw x core tile off) s = execActAbsorb l soff sw x core tile off s := rfl
@[simp] theorem exec_actMirror (l soff sw x core tile off) (s : State) : exec (.actMirror l soff sw x core tile off) s = execActMirror l soff sw x core tile off s := rfl
@[simp] theorem exec_actCribAdd (l soff sw x core tile off) (s : State) : exec (.actCribAdd l soff sw x core tile off) s = execActCribAdd l soff sw x core tile off s := rfl
@[simp] theorem exec_actCribBump (l core tile num) (s : State) : exec (.actCribBump l core tile num) s = execActCribBump l core tile num s := rfl
@[simp] theorem exec_actSigdec (l idx num) (s : State) : exec (.actSigdec l idx num) s = execActSigdec l idx num s := rfl
@[simp] theorem exec_actMemop (l) (s : State) : exec (.actMemop l) s = execActMemop l s := rfl
@[simp] theorem exec_trapEntry (core) (s : State) : exec (.trapEntry core) s = execTrapEntry core s := rfl
@[simp] theorem exec_barGenerationComplete (cluster ctx) (s : State) : exec (.barGenerationComplete cluster ctx) s = execBarGenerationComplete cluster ctx s := rfl
@[simp] theorem exec_taskRetire (core) (s : State) : exec (.taskRetire core) s = execTaskRetire core s := rfl
@[simp] theorem exec_istoreFill (core) (s : State) : exec (.istoreFill core) s = execIstoreFill core s := rfl
@[simp] theorem exec_quarterWake (core quarter) (s : State) : exec (.quarterWake core quarter) s = execQuarterWake core quarter s := rfl
@[simp] theorem exec_bankSwitch (core) (s : State) : exec (.bankSwitch core) s = execBankSwitch core s := rfl
@[simp] theorem exec_preempt (core bank) (s : State) : exec (.preempt core bank) s = execPreempt core bank s := rfl
@[simp] theorem exec_matrixCommandStart (core n) (s : State) : exec (.matrixCommandStart core n) s = execMatrixCommandStart core n s := rfl
@[simp] theorem exec_matrixCommandComplete (core n) (s : State) : exec (.matrixCommandComplete core n) s = execMatrixCommandComplete core n s := rfl
@[simp] theorem exec_wainCommandStart (core bank) (s : State) : exec (.wainCommandStart core bank) s = execWainCommandStart core bank s := rfl
@[simp] theorem exec_wainCommandComplete (core bank) (s : State) : exec (.wainCommandComplete core bank) s = execWainCommandComplete core bank s := rfl
@[simp] theorem exec_gatePushEnter (core bank) (s : State) : exec (.gatePushEnter core bank) s = execGatePushEnter core bank s := rfl
@[simp] theorem exec_fabricItemSend (core bank n) (s : State) : exec (.fabricItemSend core bank n) s = execFabricItemSend core bank n s := rfl
@[simp] theorem exec_fabricCommandComplete (core bank n) (s : State) : exec (.fabricCommandComplete core bank n) s = execFabricCommandComplete core bank n s := rfl
@[simp] theorem exec_resultLand (core) (s : State) : exec (.resultLand core) s = execResultLand core s := rfl
@[simp] theorem exec_granaryAccess (core) (s : State) : exec (.granaryAccess core) s = execGranaryAccess core s := rfl
@[simp] theorem exec_waitSatisfied (core) (s : State) : exec (.waitSatisfied core) s = execWaitSatisfied core s := rfl
@[simp] theorem exec_sigDecPerform (core) (s : State) : exec (.sigDecPerform core) s = execSigDecPerform core s := rfl
@[simp] theorem exec_fenceRelease (core) (s : State) : exec (.fenceRelease core) s = execFenceRelease core s := rfl
@[simp] theorem exec_sysLaunchWrite (core) (s : State) : exec (.sysLaunchWrite core) s = execSysLaunchWrite core s := rfl
@[simp] theorem exec_quarterGate (core quarter) (s : State) : exec (.quarterGate core quarter) s = execQuarterGate core quarter s := rfl
@[simp] theorem exec_faultResolve (die answer) (s : State) : exec (.faultResolve die answer) s = execFaultResolve die answer s := rfl
@[simp] theorem exec_faultRefuse (die answer) (s : State) : exec (.faultRefuse die answer) s = execFaultRefuse die answer s := rfl
@[simp] theorem exec_resume (task core) (s : State) : exec (.resume task core) s = execResume task core s := rfl
@[simp] theorem exec_fabricResponse (peer tag status flags data) (s : State) : exec (.fabricResponse peer tag status flags data) s = execFabricResponse peer tag status flags data s := rfl
@[simp] theorem exec_failureNotice (peer tag) (s : State) : exec (.failureNotice peer tag) s = execFailureNotice peer tag s := rfl
@[simp] theorem exec_holdNotice (peer tag) (s : State) : exec (.holdNotice peer tag) s = execHoldNotice peer tag s := rfl
@[simp] theorem exec_fabricTimeout (peer tag) (s : State) : exec (.fabricTimeout peer tag) s = execFabricTimeout peer tag s := rfl
@[simp] theorem exec_packetParse (cluster port packet) (s : State) : exec (.packetParse cluster port packet) s = execPacketParse cluster port packet s := rfl
@[simp] theorem exec_stagePass (cluster n) (s : State) : exec (.stagePass cluster n) s = execStagePass cluster n s := rfl
@[simp] theorem exec_tailCheck (cluster n stomped) (s : State) : exec (.tailCheck cluster n stomped) s = execTailCheck cluster n stomped s := rfl
@[simp] theorem exec_commit (cluster sys) (s : State) : exec (.commit cluster sys) s = execCommit cluster sys s := rfl
@[simp] theorem exec_targetRequest (die n) (s : State) : exec (.targetRequest die n) s = execTargetRequest die n s := rfl
@[simp] theorem exec_holdNoticeSend (die) (s : State) : exec (.holdNoticeSend die) s = execHoldNoticeSend die s := rfl
@[simp] theorem exec_cntclrWrite (cluster value) (s : State) : exec (.cntclrWrite cluster value) s = execCntclrWrite cluster value s := rfl
@[simp] theorem exec_qtailDoorbell (die queue value) (s : State) : exec (.qtailDoorbell die queue value) s = execQtailDoorbell die queue value s := rfl
@[simp] theorem exec_queueEnable (die queue value) (s : State) : exec (.queueEnable die queue value) s = execQueueEnable die queue value s := rfl
@[simp] theorem exec_queueDisable (die queue value) (s : State) : exec (.queueDisable die queue value) s = execQueueDisable die queue value s := rfl
@[simp] theorem exec_launch (die queue) (s : State) : exec (.launch die queue) s = execLaunch die queue s := rfl
@[simp] theorem exec_launchAccept (die ask) (s : State) : exec (.launchAccept die ask) s = execLaunchAccept die ask s := rfl
@[simp] theorem exec_queueWait (die queue) (s : State) : exec (.queueWait die queue) s = execQueueWait die queue s := rfl
@[simp] theorem exec_sigdec (die queue) (s : State) : exec (.sigdec die queue) s = execSigdec die queue s := rfl
@[simp] theorem exec_cancel (die queue) (s : State) : exec (.cancel die queue) s = execCancel die queue s := rfl
@[simp] theorem exec_counterOpen (die queue) (s : State) : exec (.counterOpen die queue) s = execCounterOpen die queue s := rfl
@[simp] theorem exec_counterClose (die queue) (s : State) : exec (.counterClose die queue) s = execCounterClose die queue s := rfl
@[simp] theorem exec_cribarm (die queue) (s : State) : exec (.cribarm die queue) s = execCribarm die queue s := rfl
@[simp] theorem exec_cribFillDone (cluster place) (s : State) : exec (.cribFillDone cluster place) s = execCribFillDone cluster place s := rfl
@[simp] theorem exec_cribdisarm (die queue) (s : State) : exec (.cribdisarm die queue) s = execCribdisarm die queue s := rfl
@[simp] theorem exec_tableupd (die queue) (s : State) : exec (.tableupd die queue) s = execTableupd die queue s := rfl
@[simp] theorem exec_batchApply (cluster) (s : State) : exec (.batchApply cluster) s = execBatchApply cluster s := rfl
@[simp] theorem exec_template (die queue) (s : State) : exec (.template die queue) s = execTemplate die queue s := rfl
@[simp] theorem exec_signalReread (die) (s : State) : exec (.signalReread die) s = execSignalReread die s := rfl
@[simp] theorem exec_priorityAging (die) (s : State) : exec (.priorityAging die) s = execPriorityAging die s := rfl
@[simp] theorem exec_taskPlace (core) (s : State) : exec (.taskPlace core) s = execTaskPlace core s := rfl
@[simp] theorem exec_launchComplete (die) (s : State) : exec (.launchComplete die) s = execLaunchComplete die s := rfl
@[simp] theorem exec_invalidate (die value) (s : State) : exec (.invalidate die value) s = execInvalidate die value s := rfl
@[simp] theorem exec_invalidateDone (die) (s : State) : exec (.invalidateDone die) s = execInvalidateDone die s := rfl
@[simp] theorem exec_gateEntryPop (die) (s : State) : exec (.gateEntryPop die) s = execGateEntryPop die s := rfl
@[simp] theorem exec_armRequest (die) (s : State) : exec (.armRequest die) s = execArmRequest die s := rfl
@[simp] theorem exec_armRequestDone (die) (s : State) : exec (.armRequestDone die) s = execArmRequestDone die s := rfl
@[simp] theorem exec_tctailDoorbell (die value) (s : State) : exec (.tctailDoorbell die value) s = execTctailDoorbell die value s := rfl
@[simp] theorem exec_layer (die) (s : State) : exec (.layer die) s = execLayer die s := rfl
@[simp] theorem exec_route (die) (s : State) : exec (.route die) s = execRoute die s := rfl
@[simp] theorem exec_evict (die) (s : State) : exec (.evict die) s = execEvict die s := rfl
@[simp] theorem exec_evictComplete (die) (s : State) : exec (.evictComplete die) s = execEvictComplete die s := rfl
@[simp] theorem exec_overrideSet (die) (s : State) : exec (.overrideSet die) s = execOverrideSet die s := rfl
@[simp] theorem exec_overrideDelete (die) (s : State) : exec (.overrideDelete die) s = execOverrideDelete die s := rfl
@[simp] theorem exec_hostMemoryAccess (addr op data) (s : State) : exec (.hostMemoryAccess addr op data) s = execHostMemoryAccess addr op data s := rfl
@[simp] theorem exec_cxlLinkChange (link up) (s : State) : exec (.cxlLinkChange link up) s = execCxlLinkChange link up s := rfl
@[simp] theorem exec_partmapWrite (core value) (s : State) : exec (.partmapWrite core value) s = execPartmapWrite core value s := rfl
@[simp] theorem exec_partitionReset (value) (s : State) : exec (.partitionReset value) s = execPartitionReset value s := rfl
@[simp] theorem exec_partitionResetDone (s : State) : exec (.partitionResetDone) s = execPartitionResetDone s := rfl
@[simp] theorem exec_boot (images config) (s : State) : exec (.boot images config) s = execBoot images config s := rfl
@[simp] theorem exec_getVersion (s : State) : exec (.getVersion) s = execGetVersion s := rfl
@[simp] theorem exec_getCapabilities (s : State) : exec (.getCapabilities) s = execGetCapabilities s := rfl
@[simp] theorem exec_negotiateAlgorithms (s : State) : exec (.negotiateAlgorithms) s = execNegotiateAlgorithms s := rfl
@[simp] theorem exec_getDigests (s : State) : exec (.getDigests) s = execGetDigests s := rfl
@[simp] theorem exec_getCertificate (s : State) : exec (.getCertificate) s = execGetCertificate s := rfl
@[simp] theorem exec_challenge (s : State) : exec (.challenge) s = execChallenge s := rfl
@[simp] theorem exec_getMeasurements (s : State) : exec (.getMeasurements) s = execGetMeasurements s := rfl
@[simp] theorem exec_ageingReplan (cluster volts) (s : State) : exec (.ageingReplan cluster volts) s = execAgeingReplan cluster volts s := rfl
@[simp] theorem exec_powerThrottle (watts core clocks) (s : State) : exec (.powerThrottle watts core clocks) s = execPowerThrottle watts core clocks s := rfl
@[simp] theorem exec_freeze (s : State) : exec (.freeze) s = execFreeze s := rfl
@[simp] theorem exec_scan (s : State) : exec (.scan) s = execScan s := rfl
@[simp] theorem exec_dscan (s : State) : exec (.dscan) s = execDscan s := rfl
@[simp] theorem exec_thaw (s : State) : exec (.thaw) s = execThaw s := rfl
@[simp] theorem exec_readoutDone (s : State) : exec (.readoutDone) s = execReadoutDone s := rfl
@[simp] theorem exec_flitReceive (port seq good) (s : State) : exec (.flitReceive port seq good) s = execFlitReceive port seq good s := rfl
@[simp] theorem exec_laneFailure (port) (s : State) : exec (.laneFailure port) s = execLaneFailure port s := rfl
@[simp] theorem exec_timeCode (die slot) (s : State) : exec (.timeCode die slot) s = execTimeCode die slot s := rfl
@[simp] theorem exec_registerWrite (reg aligned value) (s : State) : exec (.registerWrite reg aligned value) s = execRegisterWrite reg aligned value s := rfl
@[simp] theorem exec_linkTrained (port lanes) (s : State) : exec (.linkTrained port lanes) s = execLinkTrained port lanes s := rfl
@[simp] theorem exec_preemptRunElapsed (core bank) (s : State) : exec (.preemptRunElapsed core bank) s = execPreemptRunElapsed core bank s := rfl
@[simp] theorem exec_barnWayGate (die way gate) (s : State) : exec (.barnWayGate die way gate) s = execBarnWayGate die way gate s := rfl
@[simp] theorem exec_priorityFlowControl (port classes pause) (s : State) : exec (.priorityFlowControl port classes pause) s = execPriorityFlowControl port classes pause s := rfl

end Sys2Proof.Machine
end

