-- ==== Sys2Proof/Laws/Memory.lean ====
section
/-! SUPPORT. The laws of a byte memory: its canonical form as a statement about the list, that every memory operation keeps
it, and what a read answers after each. -/
namespace Sys2Proof.Machine

/-- The canonical form: addresses strictly rising, and no entry 0. -/
theorem Memory.wf_iff (m : List Host.Cell) :
    Memory.wf m = true ↔ m.Pairwise (fun c d => c.1 < d.1) ∧ ∀ c ∈ m, c.2 ≠ 0 := by
  induction m with
  | nil => simp [Memory.wf]
  | cons c rest ih =>
    cases rest with
    | nil => simp [Memory.wf]
    | cons d rest =>
      simp only [Memory.wf, Bool.and_eq_true, bne_iff_ne, decide_eq_true_eq, ih]
      constructor
      · rintro ⟨⟨hc, hlt⟩, hp, hz⟩
        refine ⟨List.pairwise_cons.2 ⟨?_, hp⟩, ?_⟩
        · intro e he
          rcases List.mem_cons.1 he with rfl | he
          · exact hlt
          · exact lt_trans hlt ((List.pairwise_cons.1 hp).1 e he)
        · intro e he
          rcases List.mem_cons.1 he with rfl | he
          · exact hc
          · exact hz e he
      · rintro ⟨hp, hz⟩
        have h := List.pairwise_cons.1 hp
        exact ⟨⟨hz c (by simp), h.1 d (by simp)⟩, h.2, fun e he => hz e (List.mem_cons_of_mem _ he)⟩

/-- An empty memory is in canonical form. -/
theorem Memory.wf_nil : Memory.wf [] = true := rfl

/-- Zeroing bytes keeps the canonical form. -/
theorem Memory.wf_zeroCells {m : List Host.Cell} (h : Memory.wf m = true) (a n : Nat) :
    Memory.wf (zeroCells m a n) = true := by
  rw [Memory.wf_iff] at *
  exact ⟨h.1.filter _, fun c hc => h.2 c (List.mem_of_mem_filter hc)⟩

/-- An address below every listed one reads 0. -/
theorem readCell_of_lt (m : List Host.Cell) (a : Nat) (h : ∀ c ∈ m, a < c.1) : readCell m a = 0 := by
  induction m with
  | nil => rfl
  | cons c rest ih =>
    have hc : c.1 ≠ a := (h c (by simp)).ne'
    simp [readCell, hc, ih fun d hd => h d (List.mem_cons_of_mem _ hd)]

/-- The addresses that a write of one byte lists are the old ones and its own. -/
theorem mem_writeCell {m : List Host.Cell} {a : Nat} {b : Byte} {c : Host.Cell} (h : c ∈ writeCell m a b) :
    c ∈ m ∨ (c = (a, b) ∧ b ≠ 0) := by
  induction m with
  | nil =>
    simp only [writeCell] at h
    split at h <;> simp_all
  | cons d rest ih =>
    simp only [writeCell] at h
    split at h
    · split at h
      · exact .inl h
      · rename_i hb
        rcases List.mem_cons.1 h with rfl | h
        · exact .inr ⟨rfl, by simpa using hb⟩
        · exact .inl h
    · split at h
      · split at h
        · exact .inl (List.mem_cons_of_mem _ h)
        · rename_i hb
          rcases List.mem_cons.1 h with rfl | h
          · exact .inr ⟨rfl, by simpa using hb⟩
          · exact .inl (List.mem_cons_of_mem _ h)
      · rcases List.mem_cons.1 h with rfl | h
        · exact .inl (by simp)
        · exact (ih h).imp (List.mem_cons_of_mem _) id

/-- Writing a byte keeps the canonical form. -/
theorem Memory.wf_writeCell {m : List Host.Cell} (h : Memory.wf m = true) (a : Nat) (b : Byte) :
    Memory.wf (writeCell m a b) = true := by
  rw [Memory.wf_iff] at *
  refine ⟨?_, fun c hc => ?_⟩
  · induction m with
    | nil => simp only [writeCell]; split <;> simp
    | cons d rest ih =>
      obtain ⟨hp, hz⟩ := h
      have hd := List.pairwise_cons.1 hp
      simp only [writeCell]
      split
      · split
        · exact hp
        · refine List.pairwise_cons.2 ⟨fun e he => ?_, hp⟩
          rcases List.mem_cons.1 he with rfl | he
          · assumption
          · exact lt_trans ‹a < d.1› (hd.1 e he)
      · split
        · have hda : a = d.1 := by simpa using ‹(a == d.1) = true›
          split
          · exact hd.2
          · exact List.pairwise_cons.2 ⟨fun e he => hda ▸ hd.1 e he, hd.2⟩
        · have hlt : d.1 < a := by
            have : a ≠ d.1 := by simpa using ‹¬(a == d.1) = true›
            omega
          refine List.pairwise_cons.2 ⟨fun e he => ?_, ih ⟨hd.2, fun c hc => hz c (List.mem_cons_of_mem _ hc)⟩⟩
          rcases mem_writeCell he with he | ⟨rfl, -⟩
          · exact hd.1 e he
          · exact hlt
  · rcases mem_writeCell hc with hc | ⟨rfl, hb⟩
    · exact h.2 c hc
    · exact hb

/-- Writing several bytes keeps the canonical form. -/
theorem Memory.wf_writeCells {m : List Host.Cell} (h : Memory.wf m = true) (cs : List Host.Cell) :
    Memory.wf (writeCells m cs) = true := by
  unfold writeCells
  induction cs generalizing m with
  | nil => exact h
  | cons c cs ih => exact ih (Memory.wf_writeCell h c.1 c.2)

/-- Writing consecutive bytes keeps the canonical form. -/
theorem Memory.wf_writeBytes {m : List Host.Cell} (h : Memory.wf m = true) (a : Nat) (bs : List Byte) :
    Memory.wf (writeBytes m a bs) = true := Memory.wf_writeCells h _

/-- A read after a write of one byte. -/
theorem readCell_writeCell {m : List Host.Cell} (h : Memory.wf m = true) (a x : Nat) (b : Byte) :
    readCell (writeCell m a b) x = if x = a then b else readCell m x := by
  rw [Memory.wf_iff] at h
  induction m with
  | nil =>
    by_cases hb : b = 0#8 <;> by_cases hx : x = a
    · simp [writeCell, hb, readCell, hx]
    · simp [writeCell, hb, readCell, hx]
    · simp [writeCell, hb, readCell, hx]
    · simp [writeCell, hb, readCell, hx, Ne.symm hx]
  | cons d rest ih =>
    have hd := List.pairwise_cons.1 h.1
    have hz := h.2
    have ih := ih ⟨hd.2, fun c hc => hz c (List.mem_cons_of_mem _ hc)⟩
    have hlow : a < d.1 → readCell (d :: rest) a = 0#8 := fun hlt =>
      readCell_of_lt _ _ fun c hc => by
        rcases List.mem_cons.1 hc with rfl | hc
        · exact hlt
        · exact lt_trans hlt (hd.1 c hc)
    have hrest : readCell rest d.1 = 0#8 := readCell_of_lt _ _ fun c hc => hd.1 c hc
    rcases lt_trichotomy a d.1 with hlt | heq | hgt
    · by_cases hb : b = 0#8 <;> by_cases hx : x = a
      · subst hx; simp [writeCell, hlt, hb, hlow hlt]
      · simp [writeCell, hlt, hb, hx]
      · subst hx; simp [writeCell, hlt, hb, readCell]
      · simp [writeCell, hlt, hb, hx, readCell, Ne.symm hx]
    · subst heq
      by_cases hb : b = 0#8 <;> by_cases hx : x = d.1
      · subst hx; simp [writeCell, hb, hrest]
      · simp [writeCell, hb, hx, readCell, Ne.symm hx]
      · subst hx; simp [writeCell, hb, readCell]
      · simp [writeCell, hb, hx, readCell, Ne.symm hx]
    · have h1 : ¬ a < d.1 := by omega
      have h2 : a ≠ d.1 := by omega
      by_cases hx : d.1 = x
      · subst hx
        simp [writeCell, h1, h2, readCell, Ne.symm h2]
      · simp [writeCell, h1, h2, readCell, hx, ih]

/-- A write of several bytes leaves every other address alone. -/
theorem readCell_writeCells_of_not_mem {m : List Host.Cell} (h : Memory.wf m = true) (cs : List Host.Cell) (x : Nat)
    (hx : ∀ c ∈ cs, c.1 ≠ x) : readCell (writeCells m cs) x = readCell m x := by
  unfold writeCells
  induction cs generalizing m with
  | nil => rfl
  | cons c cs ih =>
    rw [List.foldl_cons, ih (Memory.wf_writeCell h c.1 c.2) fun d hd => hx d (List.mem_cons_of_mem _ hd),
      readCell_writeCell h]
    simp [(hx c (by simp)).symm]

/-- A read after zeroing bytes. -/
theorem readCell_zeroCells (m : List Host.Cell) (a n x : Nat) :
    readCell (zeroCells m a n) x = if a ≤ x ∧ x < a + n then 0 else readCell m x := by
  unfold zeroCells
  induction m with
  | nil => simp [readCell]
  | cons c rest ih =>
    simp only [List.filter_cons]
    by_cases hk : c.1 < a ∨ a + n ≤ c.1
    · rw [if_pos (by simpa using hk)]
      by_cases hx : c.1 = x
      · subst hx
        have : ¬ (a ≤ c.1 ∧ c.1 < a + n) := by omega
        simp [readCell, this]
      · simp [readCell, hx, ih]
    · rw [if_neg (by simpa using hk), ih]
      by_cases hx : c.1 = x
      · subst hx
        have : a ≤ c.1 ∧ c.1 < a + n := by omega
        simp [this]
      · simp [readCell, hx]

end Sys2Proof.Machine
end

