-- ==== Sys2Proof/Laws/PerInstr.lean ====
section
/-! SUPPORT. One statement about every instruction as syntax: no instruction has both the 32-bit word of a bundle and the
64-bit word of an action program (R94). -/
namespace Sys2Proof.Laws.OneEncoding

/-- An instruction with a bundle word has no primitive word (R94). -/
def Statement (i : Instr) : Prop := (encode true i).isSome = true → encodePrim i = none

theorem add (g : BitVec 4) (rd rs rt : BitVec 5) : Statement (.add g rd rs rt) := fun _ => rfl
theorem sub (g : BitVec 4) (rd rs rt : BitVec 5) : Statement (.sub g rd rs rt) := fun _ => rfl
theorem and (g : BitVec 4) (rd rs rt : BitVec 5) : Statement (.and g rd rs rt) := fun _ => rfl
theorem or (g : BitVec 4) (rd rs rt : BitVec 5) : Statement (.or g rd rs rt) := fun _ => rfl
theorem xor (g : BitVec 4) (rd rs rt : BitVec 5) : Statement (.xor g rd rs rt) := fun _ => rfl
theorem andn (g : BitVec 4) (rd rs rt : BitVec 5) : Statement (.andn g rd rs rt) := fun _ => rfl
theorem sll (g : BitVec 4) (rd rs rt : BitVec 5) : Statement (.sll g rd rs rt) := fun _ => rfl
theorem srl (g : BitVec 4) (rd rs rt : BitVec 5) : Statement (.srl g rd rs rt) := fun _ => rfl
theorem sra (g : BitVec 4) (rd rs rt : BitVec 5) : Statement (.sra g rd rs rt) := fun _ => rfl
theorem ror (g : BitVec 4) (rd rs rt : BitVec 5) : Statement (.ror g rd rs rt) := fun _ => rfl
theorem slt (g : BitVec 4) (rd rs rt : BitVec 5) : Statement (.slt g rd rs rt) := fun _ => rfl
theorem sltn (g : BitVec 4) (rd rs rt : BitVec 5) : Statement (.sltn g rd rs rt) := fun _ => rfl
theorem seq (g : BitVec 4) (rd rs rt : BitVec 5) : Statement (.seq g rd rs rt) := fun _ => rfl
theorem sne (g : BitVec 4) (rd rs rt : BitVec 5) : Statement (.sne g rd rs rt) := fun _ => rfl
theorem min (g : BitVec 4) (rd rs rt : BitVec 5) : Statement (.min g rd rs rt) := fun _ => rfl
theorem max (g : BitVec 4) (rd rs rt : BitVec 5) : Statement (.max g rd rs rt) := fun _ => rfl
theorem minn (g : BitVec 4) (rd rs rt : BitVec 5) : Statement (.minn g rd rs rt) := fun _ => rfl
theorem maxn (g : BitVec 4) (rd rs rt : BitVec 5) : Statement (.maxn g rd rs rt) := fun _ => rfl
theorem mul (g : BitVec 4) (rd rs rt : BitVec 5) : Statement (.mul g rd rs rt) := fun _ => rfl
theorem mulh (g : BitVec 4) (rd rs rt : BitVec 5) : Statement (.mulh g rd rs rt) := fun _ => rfl
theorem mulhn (g : BitVec 4) (rd rs rt : BitVec 5) : Statement (.mulhn g rd rs rt) := fun _ => rfl
theorem div (g : BitVec 4) (rd rs rt : BitVec 5) : Statement (.div g rd rs rt) := fun _ => rfl
theorem divn (g : BitVec 4) (rd rs rt : BitVec 5) : Statement (.divn g rd rs rt) := fun _ => rfl
theorem rem (g : BitVec 4) (rd rs rt : BitVec 5) : Statement (.rem g rd rs rt) := fun _ => rfl
theorem remn (g : BitVec 4) (rd rs rt : BitVec 5) : Statement (.remn g rd rs rt) := fun _ => rfl
theorem bfxr (g : BitVec 4) (rd rs rt : BitVec 5) : Statement (.bfxr g rd rs rt) := fun _ => rfl
theorem bfir (g : BitVec 4) (rd rs rt : BitVec 5) : Statement (.bfir g rd rs rt) := fun _ => rfl
theorem popc (g : BitVec 4) (rd rs : BitVec 5) : Statement (.popc g rd rs) := fun _ => rfl
theorem clz (g : BitVec 4) (rd rs : BitVec 5) : Statement (.clz g rd rs) := fun _ => rfl
theorem fadd (g : BitVec 4) (rd rs rt : BitVec 5) (fmt : BitVec 2) : Statement (.fadd g rd rs rt fmt) := fun _ => rfl
theorem fsub (g : BitVec 4) (rd rs rt : BitVec 5) (fmt : BitVec 2) : Statement (.fsub g rd rs rt fmt) := fun _ => rfl
theorem fmul (g : BitVec 4) (rd rs rt : BitVec 5) (fmt : BitVec 2) : Statement (.fmul g rd rs rt fmt) := fun _ => rfl
theorem ffma (g : BitVec 4) (rd rs rt : BitVec 5) (fmt : BitVec 2) : Statement (.ffma g rd rs rt fmt) := fun _ => rfl
theorem fmin (g : BitVec 4) (rd rs rt : BitVec 5) (fmt : BitVec 2) : Statement (.fmin g rd rs rt fmt) := fun _ => rfl
theorem fmax (g : BitVec 4) (rd rs rt : BitVec 5) (fmt : BitVec 2) : Statement (.fmax g rd rs rt fmt) := fun _ => rfl
theorem fdiv (g : BitVec 4) (rd rs rt : BitVec 5) (fmt : BitVec 2) : Statement (.fdiv g rd rs rt fmt) := fun _ => rfl
theorem fsqrt (g : BitVec 4) (rd rs : BitVec 5) (fmt : BitVec 2) : Statement (.fsqrt g rd rs fmt) := fun _ => rfl
theorem fceq (g : BitVec 4) (rd rs rt : BitVec 5) (fmt : BitVec 2) : Statement (.fceq g rd rs rt fmt) := fun _ => rfl
theorem fclt (g : BitVec 4) (rd rs rt : BitVec 5) (fmt : BitVec 2) : Statement (.fclt g rd rs rt fmt) := fun _ => rfl
theorem fcle (g : BitVec 4) (rd rs rt : BitVec 5) (fmt : BitVec 2) : Statement (.fcle g rd rs rt fmt) := fun _ => rfl
theorem fcvt (g : BitVec 4) (rd rs sel : BitVec 5) : Statement (.fcvt g rd rs sel) := fun _ => rfl
theorem fmov (g : BitVec 4) (rd rs : BitVec 5) : Statement (.fmov g rd rs) := fun _ => rfl
theorem gtail (g : BitVec 4) (rd rs : BitVec 5) : Statement (.gtail g rd rs) := fun _ => rfl
theorem stail (g : BitVec 4) (rd rs : BitVec 5) : Statement (.stail g rd rs) := fun _ => rfl
theorem stageMs (g : BitVec 4) (num : BitVec 3) (rs : BitVec 5) : Statement (.stageMs g num rs) := fun _ => rfl
theorem stageWs (g : BitVec 4) (num : BitVec 3) (rs : BitVec 5) : Statement (.stageWs g num rs) := fun _ => rfl
theorem stageFs (g : BitVec 4) (num : BitVec 3) (rs : BitVec 5) : Statement (.stageFs g num rs) := fun _ => rfl
theorem addi (rd rs : BitVec 5) (imm : BitVec 12) : Statement (.addi rd rs imm) := fun _ => rfl
theorem andi (rd rs : BitVec 5) (imm : BitVec 12) : Statement (.andi rd rs imm) := fun _ => rfl
theorem ori (rd rs : BitVec 5) (imm : BitVec 12) : Statement (.ori rd rs imm) := fun _ => rfl
theorem xori (rd rs : BitVec 5) (imm : BitVec 12) : Statement (.xori rd rs imm) := fun _ => rfl
theorem slli (rd rs : BitVec 5) (amt : BitVec 6) : Statement (.slli rd rs amt) := fun _ => rfl
theorem srli (rd rs : BitVec 5) (amt : BitVec 6) : Statement (.srli rd rs amt) := fun _ => rfl
theorem srai (rd rs : BitVec 5) (amt : BitVec 6) : Statement (.srai rd rs amt) := fun _ => rfl
theorem rori (rd rs : BitVec 5) (amt : BitVec 6) : Statement (.rori rd rs amt) := fun _ => rfl
theorem slti (rd rs : BitVec 5) (imm : BitVec 12) : Statement (.slti rd rs imm) := fun _ => rfl
theorem sltni (rd rs : BitVec 5) (imm : BitVec 12) : Statement (.sltni rd rs imm) := fun _ => rfl
theorem bfx (rd rs : BitVec 5) (wid off : BitVec 6) : Statement (.bfx rd rs wid off) := fun _ => rfl
theorem bfi (rd rs : BitVec 5) (wid off : BitVec 6) : Statement (.bfi rd rs wid off) := fun _ => rfl
theorem ld (rd rs : BitVec 5) (ty : BitVec 3) (off : BitVec 9) : Statement (.ld rd rs ty off) := fun _ => rfl
theorem st (rd rs : BitVec 5) (ty : BitVec 3) (off : BitVec 9) : Statement (.st rd rs ty off) := fun _ => rfl
theorem stf (rd rs : BitVec 5) (ty : BitVec 3) (off : BitVec 9) : Statement (.stf rd rs ty off) := fun _ => rfl
theorem crd (rd : BitVec 5) (cidx : BitVec 12) : Statement (.crd rd cidx) := fun _ => rfl
theorem cwr (rs : BitVec 5) (cidx : BitVec 12) : Statement (.cwr rs cidx) := fun _ => rfl
theorem lui (rd : BitVec 5) (imm : BitVec 20) : Statement (.lui rd imm) := fun _ => rfl
theorem aupc (rd : BitVec 5) (imm : BitVec 20) : Statement (.aupc rd imm) := fun _ => rfl
theorem br (g : BitVec 4) (imm : BitVec 17) : Statement (.br g imm) := fun _ => rfl
theorem call (g : BitVec 4) (imm : BitVec 17) : Statement (.call g imm) := fun _ => rfl
theorem jr (g : BitVec 4) (rs : BitVec 5) : Statement (.jr g rs) := fun _ => rfl
theorem callr (g : BitVec 4) (rs : BitVec 5) : Statement (.callr g rs) := fun _ => rfl
theorem bz (g : BitVec 4) (rs : BitVec 5) (imm : BitVec 12) : Statement (.bz g rs imm) := fun _ => rfl
theorem bnz (g : BitVec 4) (rs : BitVec 5) (imm : BitVec 12) : Statement (.bnz g rs imm) := fun _ => rfl
theorem bbs (g : BitVec 4) (rs : BitVec 5) (bitn imm : BitVec 6) : Statement (.bbs g rs bitn imm) := fun _ => rfl
theorem bbc (g : BitVec 4) (rs : BitVec 5) (bitn imm : BitVec 6) : Statement (.bbc g rs bitn imm) := fun _ => rfl
theorem loop (g : BitVec 4) (rs : BitVec 5) (imm : BitVec 12) : Statement (.loop g rs imm) := fun _ => rfl
theorem wait (g : BitVec 4) (k : BitVec 5) (thr : BitVec 12) : Statement (.wait g k thr) := fun _ => rfl
theorem waitr (g : BitVec 4) (k rs : BitVec 5) : Statement (.waitr g k rs) := fun _ => rfl
theorem tkset (g : BitVec 4) (k : BitVec 5) (imm : BitVec 12) : Statement (.tkset g k imm) := fun _ => rfl
theorem dly (g : BitVec 4) (num : BitVec 8) : Statement (.dly g num) := fun _ => rfl
theorem bar (g : BitVec 4) : Statement (.bar g) := fun _ => rfl
theorem sysLaunch (g : BitVec 4) (rs : BitVec 5) : Statement (.sysLaunch g rs) := fun _ => rfl
theorem sigDec (g : BitVec 4) (rs rt : BitVec 5) : Statement (.sigDec g rs rt) := fun _ => rfl
theorem sigWait (g : BitVec 4) (rs rt : BitVec 5) : Statement (.sigWait g rs rt) := fun _ => rfl
theorem trap (g : BitVec 4) (code : BitVec 12) : Statement (.trap g code) := fun _ => rfl
theorem tret (g : BitVec 4) : Statement (.tret g) := fun _ => rfl
theorem ilock (g : BitVec 4) (rd rs : BitVec 5) : Statement (.ilock g rd rs) := fun _ => rfl
theorem iunlk (g : BitVec 4) (rs : BitVec 5) : Statement (.iunlk g rs) := fun _ => rfl
theorem fence (g : BitVec 4) (scope : BitVec 3) : Statement (.fence g scope) := fun _ => rfl
theorem tgive (g : BitVec 4) (tile : BitVec 6) (owner : BitVec 3) : Statement (.tgive g tile owner) := fun _ => rfl
theorem endTask (g : BitVec 4) : Statement (.endTask g) := fun _ => rfl
theorem vadd (g : BitVec 4) (ty : BitVec 3) (vd va vb : BitVec 5) : Statement (.vadd g ty vd va vb) := fun _ => rfl
theorem vsub (g : BitVec 4) (ty : BitVec 3) (vd va vb : BitVec 5) : Statement (.vsub g ty vd va vb) := fun _ => rfl
theorem vmul (g : BitVec 4) (ty : BitVec 3) (vd va vb : BitVec 5) : Statement (.vmul g ty vd va vb) := fun _ => rfl
theorem vmulh (g : BitVec 4) (ty : BitVec 3) (vd va vb : BitVec 5) : Statement (.vmulh g ty vd va vb) := fun _ => rfl
theorem vsadd (g : BitVec 4) (ty : BitVec 3) (vd va vb : BitVec 5) : Statement (.vsadd g ty vd va vb) := fun _ => rfl
theorem vssub (g : BitVec 4) (ty : BitVec 3) (vd va vb : BitVec 5) : Statement (.vssub g ty vd va vb) := fun _ => rfl
theorem vabs (g : BitVec 4) (ty : BitVec 3) (vd va : BitVec 5) : Statement (.vabs g ty vd va) := fun _ => rfl
theorem vneg (g : BitVec 4) (ty : BitVec 3) (vd va : BitVec 5) : Statement (.vneg g ty vd va) := fun _ => rfl
theorem vand (g : BitVec 4) (ty : BitVec 3) (vd va vb : BitVec 5) : Statement (.vand g ty vd va vb) := fun _ => rfl
theorem vor (g : BitVec 4) (ty : BitVec 3) (vd va vb : BitVec 5) : Statement (.vor g ty vd va vb) := fun _ => rfl
theorem vxor (g : BitVec 4) (ty : BitVec 3) (vd va vb : BitVec 5) : Statement (.vxor g ty vd va vb) := fun _ => rfl
theorem vandn (g : BitVec 4) (ty : BitVec 3) (vd va vb : BitVec 5) : Statement (.vandn g ty vd va vb) := fun _ => rfl
theorem vshl (g : BitVec 4) (ty : BitVec 3) (vd va vb : BitVec 5) : Statement (.vshl g ty vd va vb) := fun _ => rfl
theorem vshr (g : BitVec 4) (ty : BitVec 3) (vd va vb : BitVec 5) : Statement (.vshr g ty vd va vb) := fun _ => rfl
theorem vmin (g : BitVec 4) (ty : BitVec 3) (vd va vb : BitVec 5) : Statement (.vmin g ty vd va vb) := fun _ => rfl
theorem vmax (g : BitVec 4) (ty : BitVec 3) (vd va vb : BitVec 5) : Statement (.vmax g ty vd va vb) := fun _ => rfl
theorem vfadd (g : BitVec 4) (ty : BitVec 3) (vd va vb : BitVec 5) : Statement (.vfadd g ty vd va vb) := fun _ => rfl
theorem vfsub (g : BitVec 4) (ty : BitVec 3) (vd va vb : BitVec 5) : Statement (.vfsub g ty vd va vb) := fun _ => rfl
theorem vfmul (g : BitVec 4) (ty : BitVec 3) (vd va vb : BitVec 5) : Statement (.vfmul g ty vd va vb) := fun _ => rfl
theorem vfma (g : BitVec 4) (ty : BitVec 3) (vd va vb : BitVec 5) : Statement (.vfma g ty vd va vb) := fun _ => rfl
theorem vfms (g : BitVec 4) (ty : BitVec 3) (vd va vb : BitVec 5) : Statement (.vfms g ty vd va vb) := fun _ => rfl
theorem vfmin (g : BitVec 4) (ty : BitVec 3) (vd va vb : BitVec 5) : Statement (.vfmin g ty vd va vb) := fun _ => rfl
theorem vfmax (g : BitVec 4) (ty : BitVec 3) (vd va vb : BitVec 5) : Statement (.vfmax g ty vd va vb) := fun _ => rfl
theorem vfneg (g : BitVec 4) (ty : BitVec 3) (vd va : BitVec 5) : Statement (.vfneg g ty vd va) := fun _ => rfl
theorem vfabs (g : BitVec 4) (ty : BitVec 3) (vd va : BitVec 5) : Statement (.vfabs g ty vd va) := fun _ => rfl
theorem vfredsum (g : BitVec 4) (ty : BitVec 3) (vd va : BitVec 5) : Statement (.vfredsum g ty vd va) := fun _ => rfl
theorem vfredmax (g : BitVec 4) (ty : BitVec 3) (vd va : BitVec 5) : Statement (.vfredmax g ty vd va) := fun _ => rfl
theorem vfredmin (g : BitVec 4) (ty : BitVec 3) (vd va : BitVec 5) : Statement (.vfredmin g ty vd va) := fun _ => rfl
theorem vredsum (g : BitVec 4) (ty : BitVec 3) (vd va : BitVec 5) : Statement (.vredsum g ty vd va) := fun _ => rfl
theorem vredmax (g : BitVec 4) (ty : BitVec 3) (vd va : BitVec 5) : Statement (.vredmax g ty vd va) := fun _ => rfl
theorem vredmin (g : BitVec 4) (ty : BitVec 3) (vd va : BitVec 5) : Statement (.vredmin g ty vd va) := fun _ => rfl
theorem vsel (g : BitVec 4) (sz : BitVec 3) (vd va vb : BitVec 5) : Statement (.vsel g sz vd va vb) := fun _ => rfl
theorem vceq (g : BitVec 4) (ty : BitVec 3) (vd va vb : BitVec 5) : Statement (.vceq g ty vd va vb) := fun _ => rfl
theorem vcne (g : BitVec 4) (ty : BitVec 3) (vd va vb : BitVec 5) : Statement (.vcne g ty vd va vb) := fun _ => rfl
theorem vclt (g : BitVec 4) (ty : BitVec 3) (vd va vb : BitVec 5) : Statement (.vclt g ty vd va vb) := fun _ => rfl
theorem vcle (g : BitVec 4) (ty : BitVec 3) (vd va vb : BitVec 5) : Statement (.vcle g ty vd va vb) := fun _ => rfl
theorem vfceq (g : BitVec 4) (ty : BitVec 3) (vd va vb : BitVec 5) : Statement (.vfceq g ty vd va vb) := fun _ => rfl
theorem vfclt (g : BitVec 4) (ty : BitVec 3) (vd va vb : BitVec 5) : Statement (.vfclt g ty vd va vb) := fun _ => rfl
theorem vfcle (g : BitVec 4) (ty : BitVec 3) (vd va vb : BitVec 5) : Statement (.vfcle g ty vd va vb) := fun _ => rfl
theorem vfcun (g : BitVec 4) (ty : BitVec 3) (vd va vb : BitVec 5) : Statement (.vfcun g ty vd va vb) := fun _ => rfl
theorem vperm (g : BitVec 4) (sz : BitVec 3) (vd va vb : BitVec 5) : Statement (.vperm g sz vd va vb) := fun _ => rfl
theorem vzip (g : BitVec 4) (sz : BitVec 3) (vd va vb : BitVec 5) : Statement (.vzip g sz vd va vb) := fun _ => rfl
theorem vunzip (g : BitVec 4) (sz : BitVec 3) (vd va vb : BitVec 5) : Statement (.vunzip g sz vd va vb) := fun _ => rfl
theorem vrot (g : BitVec 4) (sz : BitVec 3) (vd va rs : BitVec 5) : Statement (.vrot g sz vd va rs) := fun _ => rfl
theorem vbcast (g : BitVec 4) (sz : BitVec 3) (vd rs : BitVec 5) : Statement (.vbcast g sz vd rs) := fun _ => rfl
theorem vext (g : BitVec 4) (sz : BitVec 3) (vd va rs : BitVec 5) : Statement (.vext g sz vd va rs) := fun _ => rfl
theorem vins (g : BitVec 4) (sz : BitVec 3) (vd va rs : BitVec 5) : Statement (.vins g sz vd va rs) := fun _ => rfl
theorem vmov (g : BitVec 4) (sz : BitVec 3) (vd va : BitVec 5) : Statement (.vmov g sz vd va) := fun _ => rfl
theorem vwadd (g : BitVec 4) (ty : BitVec 3) (vd va vb : BitVec 5) : Statement (.vwadd g ty vd va vb) := fun _ => rfl
theorem vwmul (g : BitVec 4) (ty : BitVec 3) (vd va vb : BitVec 5) : Statement (.vwmul g ty vd va vb) := fun _ => rfl
theorem vfwma (g : BitVec 4) (ty : BitVec 3) (vd va vb : BitVec 5) : Statement (.vfwma g ty vd va vb) := fun _ => rfl
theorem pand (g : BitVec 4) (vd va vb : BitVec 5) : Statement (.pand g vd va vb) := fun _ => rfl
theorem por (g : BitVec 4) (vd va vb : BitVec 5) : Statement (.por g vd va vb) := fun _ => rfl
theorem pxor (g : BitVec 4) (vd va vb : BitVec 5) : Statement (.pxor g vd va vb) := fun _ => rfl
theorem pandn (g : BitVec 4) (vd va vb : BitVec 5) : Statement (.pandn g vd va vb) := fun _ => rfl
theorem vcvtFloat (g : BitVec 4) (fmt : BitVec 3) (vd va sty : BitVec 5) : Statement (.vcvtFloat g fmt vd va sty) := fun _ => rfl
theorem vcvtInt (g : BitVec 4) (fmt : BitVec 3) (vd va sty : BitVec 5) : Statement (.vcvtInt g fmt vd va sty) := fun _ => rfl
theorem qmax (g : BitVec 4) (va : BitVec 5) : Statement (.qmax g va) := fun _ => rfl
theorem qcvt (g : BitVec 4) (vd va : BitVec 5) : Statement (.qcvt g vd va) := fun _ => rfl
theorem vrcp (g : BitVec 4) (fmt : BitVec 3) (vd va : BitVec 5) : Statement (.vrcp g fmt vd va) := fun _ => rfl
theorem vrsqrt (g : BitVec 4) (fmt : BitVec 3) (vd va : BitVec 5) : Statement (.vrsqrt g fmt vd va) := fun _ => rfl
theorem vsqrt (g : BitVec 4) (fmt : BitVec 3) (vd va : BitVec 5) : Statement (.vsqrt g fmt vd va) := fun _ => rfl
theorem vdiv (g : BitVec 4) (fmt : BitVec 3) (vd va vb : BitVec 5) : Statement (.vdiv g fmt vd va vb) := fun _ => rfl
theorem vexp2 (g : BitVec 4) (fmt : BitVec 3) (vd va : BitVec 5) : Statement (.vexp2 g fmt vd va) := fun _ => rfl
theorem vlog2 (g : BitVec 4) (fmt : BitVec 3) (vd va : BitVec 5) : Statement (.vlog2 g fmt vd va) := fun _ => rfl
theorem vexp (g : BitVec 4) (fmt : BitVec 3) (vd va : BitVec 5) : Statement (.vexp g fmt vd va) := fun _ => rfl
theorem vlog (g : BitVec 4) (fmt : BitVec 3) (vd va : BitVec 5) : Statement (.vlog g fmt vd va) := fun _ => rfl
theorem vsin (g : BitVec 4) (fmt : BitVec 3) (vd va : BitVec 5) : Statement (.vsin g fmt vd va) := fun _ => rfl
theorem vcos (g : BitVec 4) (fmt : BitVec 3) (vd va : BitVec 5) : Statement (.vcos g fmt vd va) := fun _ => rfl
theorem vtanh (g : BitVec 4) (fmt : BitVec 3) (vd va : BitVec 5) : Statement (.vtanh g fmt vd va) := fun _ => rfl
theorem vsigm (g : BitVec 4) (fmt : BitVec 3) (vd va : BitVec 5) : Statement (.vsigm g fmt vd va) := fun _ => rfl
theorem verf (g : BitVec 4) (fmt : BitVec 3) (vd va : BitVec 5) : Statement (.verf g fmt vd va) := fun _ => rfl
theorem vrint (g : BitVec 4) (fmt : BitVec 3) (vd va : BitVec 5) : Statement (.vrint g fmt vd va) := fun _ => rfl
theorem vscl (g : BitVec 4) (fmt : BitVec 3) (vd va vb : BitVec 5) : Statement (.vscl g fmt vd va vb) := fun _ => rfl
theorem mload (g : BitVec 4) (k : BitVec 5) (tile : BitVec 6) : Statement (.mload g k tile) := fun _ => rfl
theorem mswap (g : BitVec 4) (k : BitVec 5) : Statement (.mswap g k) := fun _ => rfl
theorem mstream (g : BitVec 4) (k : BitVec 5) (tile : BitVec 6) : Statement (.mstream g k tile) := fun _ => rfl
theorem mstreamz (g : BitVec 4) (k : BitVec 5) (tile : BitVec 6) : Statement (.mstreamz g k tile) := fun _ => rfl
theorem mstore (g : BitVec 4) (k : BitVec 5) (tile : BitVec 6) : Statement (.mstore g k tile) := fun _ => rfl
theorem mzero (g : BitVec 4) (k : BitVec 5) : Statement (.mzero g k) := fun _ => rfl
theorem mscaleW (g : BitVec 4) (k : BitVec 5) (tile : BitVec 6) : Statement (.mscaleW g k tile) := fun _ => rfl
theorem mscaleA (g : BitVec 4) (k : BitVec 5) (tile : BitVec 6) : Statement (.mscaleA g k tile) := fun _ => rfl
theorem mread (g : BitVec 4) (k vd : BitVec 5) : Statement (.mread g k vd) := fun _ => rfl
theorem mwrite (g : BitVec 4) (k va : BitVec 5) : Statement (.mwrite g k va) := fun _ => rfl
theorem mdrain (g : BitVec 4) (k : BitVec 5) : Statement (.mdrain g k) := fun _ => rfl
theorem ldV (slot : Bool) (g : BitVec 4) (reg base : BitVec 5) (off : BitVec 8) : Statement (.ldV slot g reg base off) := fun _ => rfl
theorem stV (slot : Bool) (g : BitVec 4) (reg base : BitVec 5) (off : BitVec 8) : Statement (.stV slot g reg base off) := fun _ => rfl
theorem stVF32 (slot : Bool) (g : BitVec 4) (reg base : BitVec 5) (off : BitVec 8) : Statement (.stVF32 slot g reg base off) := fun _ => rfl
theorem stVF16 (slot : Bool) (g : BitVec 4) (reg base : BitVec 5) (off : BitVec 8) : Statement (.stVF16 slot g reg base off) := fun _ => rfl
theorem stVBf16 (slot : Bool) (g : BitVec 4) (reg base : BitVec 5) (off : BitVec 8) : Statement (.stVBf16 slot g reg base off) := fun _ => rfl
theorem stVE4m3 (slot : Bool) (g : BitVec 4) (reg base : BitVec 5) (off : BitVec 8) : Statement (.stVE4m3 slot g reg base off) := fun _ => rfl
theorem stVE5m2 (slot : Bool) (g : BitVec 4) (reg base : BitVec 5) (off : BitVec 8) : Statement (.stVE5m2 slot g reg base off) := fun _ => rfl
theorem ldP (slot : Bool) (g : BitVec 4) (reg base : BitVec 5) (off : BitVec 8) : Statement (.ldP slot g reg base off) := fun _ => rfl
theorem stP (slot : Bool) (g : BitVec 4) (reg base : BitVec 5) (off : BitVec 8) : Statement (.stP slot g reg base off) := fun _ => rfl
theorem vspill (slot : Bool) (g : BitVec 4) (reg base : BitVec 5) (off : BitVec 8) : Statement (.vspill slot g reg base off) := fun _ => rfl
theorem vfill (slot : Bool) (g : BitVec 4) (reg base : BitVec 5) (off : BitVec 8) : Statement (.vfill slot g reg base off) := fun _ => rfl
theorem ldVb (slot : Bool) (g : BitVec 4) (reg base : BitVec 5) (off : BitVec 8) : Statement (.ldVb slot g reg base off) := fun _ => rfl
theorem wnCopy (g : BitVec 4) (k : BitVec 5) : Statement (.wnCopy g k) := fun _ => rfl
theorem wnGather (g : BitVec 4) (k : BitVec 5) : Statement (.wnGather g k) := fun _ => rfl
theorem wnScatter (g : BitVec 4) (k : BitVec 5) : Statement (.wnScatter g k) := fun _ => rfl
theorem wnDecode (g : BitVec 4) (k : BitVec 5) : Statement (.wnDecode g k) := fun _ => rfl
theorem wnEncode (g : BitVec 4) (k : BitVec 5) : Statement (.wnEncode g k) := fun _ => rfl
theorem wnExpand (g : BitVec 4) (k : BitVec 5) : Statement (.wnExpand g k) := fun _ => rfl
theorem wnFlush (g : BitVec 4) (k : BitVec 5) : Statement (.wnFlush g k) := fun _ => rfl
theorem wnFar (g : BitVec 4) (k sd : BitVec 5) : Statement (.wnFar g k sd) := fun _ => rfl
theorem vspillM (g : BitVec 4) (k vfirst vlast : BitVec 5) : Statement (.vspillM g k vfirst vlast) := fun _ => rfl
theorem vfillM (g : BitVec 4) (k vfirst vlast : BitVec 5) : Statement (.vfillM g k vfirst vlast) := fun _ => rfl
theorem fxLd (g : BitVec 4) (k : BitVec 5) : Statement (.fxLd g k) := fun _ => rfl
theorem fxSt (g : BitVec 4) (k : BitVec 5) : Statement (.fxSt g k) := fun _ => rfl
theorem fxAdd (g : BitVec 4) (k ty : BitVec 5) : Statement (.fxAdd g k ty) := fun _ => rfl
theorem fxMin (g : BitVec 4) (k ty : BitVec 5) : Statement (.fxMin g k ty) := fun _ => rfl
theorem fxMax (g : BitVec 4) (k ty : BitVec 5) : Statement (.fxMax g k ty) := fun _ => rfl
theorem fxSwap (g : BitVec 4) (k ty : BitVec 5) : Statement (.fxSwap g k ty) := fun _ => rfl
theorem fxCas (g : BitVec 4) (k ty : BitVec 5) : Statement (.fxCas g k ty) := fun _ => rfl
theorem fxAnd (g : BitVec 4) (k ty : BitVec 5) : Statement (.fxAnd g k ty) := fun _ => rfl
theorem fxOr (g : BitVec 4) (k ty : BitVec 5) : Statement (.fxOr g k ty) := fun _ => rfl
theorem fxFlush (g : BitVec 4) (k : BitVec 5) : Statement (.fxFlush g k) := fun _ => rfl
theorem fxFence (g : BitVec 4) (k vd : BitVec 5) (scope : BitVec 3) : Statement (.fxFence g k vd scope) := fun _ => rfl
theorem fxSdec (g : BitVec 4) (k : BitVec 5) : Statement (.fxSdec g k) := fun _ => rfl
theorem actNop (l : Bool) : Statement (.actNop l) := fun h => nomatch h
theorem actSet (l : Bool) (doff : BitVec 7) (dw : BitVec 2) (d : Bool) (imm : BitVec 32) : Statement (.actSet l doff dw d imm) := fun h => nomatch h
theorem actCopy (l : Bool) (doff : BitVec 7) (dw : BitVec 2) (soff : BitVec 7) (sw : BitVec 2) : Statement (.actCopy l doff dw soff sw) := fun h => nomatch h
theorem actAdd (l : Bool) (doff : BitVec 7) (dw : BitVec 2) (d : Bool) (imm : BitVec 32) : Statement (.actAdd l doff dw d imm) := fun h => nomatch h
theorem actHash (l : Bool) (doff : BitVec 7) (dw : BitVec 2) (fmask : BitVec 32) : Statement (.actHash l doff dw fmask) := fun h => nomatch h
theorem actRegAdd (l : Bool) (doff : BitVec 7) (dw : BitVec 2) (soff : BitVec 7) (sw : BitVec 2) (d : Bool) (x : Bool) (wb : Bool) (base : BitVec 13) : Statement (.actRegAdd l doff dw soff sw d x wb base) := fun h => nomatch h
theorem actRegMax (l : Bool) (doff : BitVec 7) (dw : BitVec 2) (soff : BitVec 7) (sw : BitVec 2) (d : Bool) (x : Bool) (wb : Bool) (base : BitVec 13) : Statement (.actRegMax l doff dw soff sw d x wb base) := fun h => nomatch h
theorem actCount (l : Bool) (soff : BitVec 7) (sw : BitVec 2) (x : Bool) (base : BitVec 13) : Statement (.actCount l soff sw x base) := fun h => nomatch h
theorem actMark (l : Bool) (bits : BitVec 8) : Statement (.actMark l bits) := fun h => nomatch h
theorem actFwd (l : Bool) (soff : BitVec 7) (x : Bool) (peer : Bool) (port : BitVec 6) : Statement (.actFwd l soff x peer port) := fun h => nomatch h
theorem actDrop (l : Bool) (code : BitVec 8) : Statement (.actDrop l code) := fun h => nomatch h
theorem actRoute (l : Bool) (doff : BitVec 7) (soff : BitVec 7) (sw : BitVec 2) (base : BitVec 16) : Statement (.actRoute l doff soff sw base) := fun h => nomatch h
theorem actAbsorb (l : Bool) (soff : BitVec 7) (sw : BitVec 2) (x : Bool) (core : BitVec 4) (tile : BitVec 6) (off : BitVec 15) : Statement (.actAbsorb l soff sw x core tile off) := fun h => nomatch h
theorem actMirror (l : Bool) (soff : BitVec 7) (sw : BitVec 2) (x : Bool) (core : BitVec 4) (tile : BitVec 6) (off : BitVec 15) : Statement (.actMirror l soff sw x core tile off) := fun h => nomatch h
theorem actCribAdd (l : Bool) (soff : BitVec 7) (sw : BitVec 2) (x : Bool) (core : BitVec 4) (tile : BitVec 6) (off : BitVec 15) : Statement (.actCribAdd l soff sw x core tile off) := fun h => nomatch h
theorem actCribBump (l : Bool) (core : BitVec 4) (tile : BitVec 6) (num : BitVec 16) : Statement (.actCribBump l core tile num) := fun h => nomatch h
theorem actSigdec (l : Bool) (idx : BitVec 8) (num : BitVec 24) : Statement (.actSigdec l idx num) := fun h => nomatch h
theorem actMemop (l : Bool) : Statement (.actMemop l) := fun h => nomatch h
theorem trapEntry (core : Fin 256) : Statement (.trapEntry core) := fun _ => rfl
theorem barGenerationComplete (cluster : Fin 16) (ctx : Fin 4) : Statement (.barGenerationComplete cluster ctx) := fun _ => rfl
theorem taskRetire (core : Fin 256) : Statement (.taskRetire core) := fun _ => rfl
theorem istoreFill (core : Fin 256) : Statement (.istoreFill core) := fun _ => rfl
theorem quarterWake (core : Fin 256) (quarter : Fin 4) : Statement (.quarterWake core quarter) := fun _ => rfl
theorem bankSwitch (core : Fin 256) : Statement (.bankSwitch core) := fun _ => rfl
theorem preempt (core : Fin 256) (bank : Bool) : Statement (.preempt core bank) := fun _ => rfl
theorem matrixCommandStart (core : Fin 256) (n : Nat) : Statement (.matrixCommandStart core n) := fun _ => rfl
theorem matrixCommandComplete (core : Fin 256) (n : Nat) : Statement (.matrixCommandComplete core n) := fun _ => rfl
theorem wainCommandStart (core : Fin 256) (bank : Bool) : Statement (.wainCommandStart core bank) := fun _ => rfl
theorem wainCommandComplete (core : Fin 256) (bank : Bool) : Statement (.wainCommandComplete core bank) := fun _ => rfl
theorem gatePushEnter (core : Fin 256) (bank : Bool) : Statement (.gatePushEnter core bank) := fun _ => rfl
theorem fabricItemSend (core : Fin 256) (bank : Bool) (n : Nat) : Statement (.fabricItemSend core bank n) := fun _ => rfl
theorem fabricCommandComplete (core : Fin 256) (bank : Bool) (n : Nat) : Statement (.fabricCommandComplete core bank n) := fun _ => rfl
theorem resultLand (core : Fin 256) : Statement (.resultLand core) := fun _ => rfl
theorem granaryAccess (core : Fin 256) : Statement (.granaryAccess core) := fun _ => rfl
theorem waitSatisfied (core : Fin 256) : Statement (.waitSatisfied core) := fun _ => rfl
theorem sigDecPerform (core : Fin 256) : Statement (.sigDecPerform core) := fun _ => rfl
theorem fenceRelease (core : Fin 256) : Statement (.fenceRelease core) := fun _ => rfl
theorem sysLaunchWrite (core : Fin 256) : Statement (.sysLaunchWrite core) := fun _ => rfl
theorem quarterGate (core : Fin 256) (quarter : Fin 4) : Statement (.quarterGate core quarter) := fun _ => rfl
theorem faultResolve (die : Fin 2) (answer : BitVec 64) : Statement (.faultResolve die answer) := fun _ => rfl
theorem faultRefuse (die : Fin 2) (answer : BitVec 64) : Statement (.faultRefuse die answer) := fun _ => rfl
theorem resume (task : Nat) (core : Fin 256) : Statement (.resume task core) := fun _ => rfl
theorem fabricResponse (peer : BitVec 12) (tag : BitVec 32) (status : BitVec 8) (flags : BitVec 5) (data : List Byte) : Statement (.fabricResponse peer tag status flags data) := fun _ => rfl
theorem failureNotice (peer : BitVec 12) (tag : BitVec 32) : Statement (.failureNotice peer tag) := fun _ => rfl
theorem holdNotice (peer : BitVec 12) (tag : BitVec 32) : Statement (.holdNotice peer tag) := fun _ => rfl
theorem fabricTimeout (peer : BitVec 12) (tag : BitVec 32) : Statement (.fabricTimeout peer tag) := fun _ => rfl
theorem packetParse (cluster : Fin 16) (port : Fin 4) (packet : List Byte) : Statement (.packetParse cluster port packet) := fun _ => rfl
theorem stagePass (cluster : Fin 16) (n : Nat) : Statement (.stagePass cluster n) := fun _ => rfl
theorem tailCheck (cluster : Fin 16) (n : Nat) (stomped : Bool) : Statement (.tailCheck cluster n stomped) := fun _ => rfl
theorem commit (cluster : Fin 16) (sys : Bool) : Statement (.commit cluster sys) := fun _ => rfl
theorem targetRequest (die : Fin 2) (n : Nat) : Statement (.targetRequest die n) := fun _ => rfl
theorem holdNoticeSend (die : Fin 2) : Statement (.holdNoticeSend die) := fun _ => rfl
theorem cntclrWrite (cluster : Fin 16) (value : BitVec 64) : Statement (.cntclrWrite cluster value) := fun _ => rfl
theorem qtailDoorbell (die : Fin 2) (queue : Fin 64) (value : BitVec 64) : Statement (.qtailDoorbell die queue value) := fun _ => rfl
theorem queueEnable (die : Fin 2) (queue : Fin 64) (value : BitVec 64) : Statement (.queueEnable die queue value) := fun _ => rfl
theorem queueDisable (die : Fin 2) (queue : Fin 64) (value : BitVec 64) : Statement (.queueDisable die queue value) := fun _ => rfl
theorem launch (die : Fin 2) (queue : Fin 64) : Statement (.launch die queue) := fun _ => rfl
theorem launchAccept (die : Fin 2) (ask : Nat) : Statement (.launchAccept die ask) := fun _ => rfl
theorem queueWait (die : Fin 2) (queue : Fin 64) : Statement (.queueWait die queue) := fun _ => rfl
theorem sigdec (die : Fin 2) (queue : Fin 64) : Statement (.sigdec die queue) := fun _ => rfl
theorem cancel (die : Fin 2) (queue : Fin 64) : Statement (.cancel die queue) := fun _ => rfl
theorem counterOpen (die : Fin 2) (queue : Fin 64) : Statement (.counterOpen die queue) := fun _ => rfl
theorem counterClose (die : Fin 2) (queue : Fin 64) : Statement (.counterClose die queue) := fun _ => rfl
theorem cribarm (die : Fin 2) (queue : Fin 64) : Statement (.cribarm die queue) := fun _ => rfl
theorem cribFillDone (cluster : Fin 16) (place : Fin 1024) : Statement (.cribFillDone cluster place) := fun _ => rfl
theorem cribdisarm (die : Fin 2) (queue : Fin 64) : Statement (.cribdisarm die queue) := fun _ => rfl
theorem tableupd (die : Fin 2) (queue : Fin 64) : Statement (.tableupd die queue) := fun _ => rfl
theorem batchApply (cluster : Fin 16) : Statement (.batchApply cluster) := fun _ => rfl
theorem template (die : Fin 2) (queue : Fin 64) : Statement (.template die queue) := fun _ => rfl
theorem signalReread (die : Fin 2) : Statement (.signalReread die) := fun _ => rfl
theorem priorityAging (die : Fin 2) : Statement (.priorityAging die) := fun _ => rfl
theorem taskPlace (core : Fin 256) : Statement (.taskPlace core) := fun _ => rfl
theorem launchComplete (die : Fin 2) : Statement (.launchComplete die) := fun _ => rfl
theorem invalidate (die : Fin 2) (value : BitVec 64) : Statement (.invalidate die value) := fun _ => rfl
theorem invalidateDone (die : Fin 2) : Statement (.invalidateDone die) := fun _ => rfl
theorem gateEntryPop (die : Fin 2) : Statement (.gateEntryPop die) := fun _ => rfl
theorem armRequest (die : Fin 2) : Statement (.armRequest die) := fun _ => rfl
theorem armRequestDone (die : Fin 2) : Statement (.armRequestDone die) := fun _ => rfl
theorem tctailDoorbell (die : Fin 2) (value : BitVec 64) : Statement (.tctailDoorbell die value) := fun _ => rfl
theorem layer (die : Fin 2) : Statement (.layer die) := fun _ => rfl
theorem route (die : Fin 2) : Statement (.route die) := fun _ => rfl
theorem evict (die : Fin 2) : Statement (.evict die) := fun _ => rfl
theorem evictComplete (die : Fin 2) : Statement (.evictComplete die) := fun _ => rfl
theorem overrideSet (die : Fin 2) : Statement (.overrideSet die) := fun _ => rfl
theorem overrideDelete (die : Fin 2) : Statement (.overrideDelete die) := fun _ => rfl
theorem hostMemoryAccess (addr : Nat) (op : HostOp) (data : List Byte) : Statement (.hostMemoryAccess addr op data) := fun _ => rfl
theorem cxlLinkChange (link : Fin 2) (up : Bool) : Statement (.cxlLinkChange link up) := fun _ => rfl
theorem partmapWrite (core : Fin 256) (value : BitVec 64) : Statement (.partmapWrite core value) := fun _ => rfl
theorem partitionReset (value : BitVec 64) : Statement (.partitionReset value) := fun _ => rfl
theorem partitionResetDone : Statement .partitionResetDone := fun _ => rfl
theorem boot (images config : List BootImage) : Statement (.boot images config) := fun _ => rfl
theorem getVersion : Statement .getVersion := fun _ => rfl
theorem getCapabilities : Statement .getCapabilities := fun _ => rfl
theorem negotiateAlgorithms : Statement .negotiateAlgorithms := fun _ => rfl
theorem getDigests : Statement .getDigests := fun _ => rfl
theorem getCertificate : Statement .getCertificate := fun _ => rfl
theorem challenge : Statement .challenge := fun _ => rfl
theorem getMeasurements : Statement .getMeasurements := fun _ => rfl
theorem ageingReplan (cluster : Fin 16) (volts : Bool) : Statement (.ageingReplan cluster volts) := fun _ => rfl
theorem powerThrottle (watts : Nat) (core : Fin 256) (clocks : Nat) : Statement (.powerThrottle watts core clocks) := fun _ => rfl
theorem freeze : Statement .freeze := fun _ => rfl
theorem scan : Statement .scan := fun _ => rfl
theorem dscan : Statement .dscan := fun _ => rfl
theorem thaw : Statement .thaw := fun _ => rfl
theorem readoutDone : Statement .readoutDone := fun _ => rfl
theorem flitReceive (port : Fin 49) (seq : Nat) (good : Bool) : Statement (.flitReceive port seq good) := fun _ => rfl
theorem laneFailure (port : Fin 48) : Statement (.laneFailure port) := fun _ => rfl
theorem timeCode (die : Fin 2) (slot : BitVec 8) : Statement (.timeCode die slot) := fun _ => rfl
theorem registerWrite (reg : MgmtReg) (aligned : Bool) (value : BitVec 64) : Statement (.registerWrite reg aligned value) := fun _ => rfl
theorem linkTrained (port : Fin 48) (lanes : BitVec 2) : Statement (.linkTrained port lanes) := fun _ => rfl
theorem preemptRunElapsed (core : Fin 256) (bank : Bool) : Statement (.preemptRunElapsed core bank) := fun _ => rfl
theorem barnWayGate (die : Fin 2) (way : Fin 16) (gate : Bool) : Statement (.barnWayGate die way gate) := fun _ => rfl
theorem priorityFlowControl (port : Fin 16) (classes : BitVec 8) (pause : BitVec 8) : Statement (.priorityFlowControl port classes pause) := fun _ => rfl

end Sys2Proof.Laws.OneEncoding
end

