-- ==== Sys2Proof/Laws/Reads.lean ====
section
/-! SUPPORT. What remembering a translation, fetching a Barn line and a read of the Granger leave alone. -/
namespace Sys2Proof.Machine

theorem State.cacheLeaf_frame (s : State) (d : Fin 2) (part : BitVec 4) (va : Nat) :
    (s.cacheLeaf d part va).mem = s.mem ∧ (s.cacheLeaf d part va).cores = s.cores ∧
      (s.cacheLeaf d part va).clusters = s.clusters ∧ (s.cacheLeaf d part va).pkg = s.pkg := by
  unfold State.cacheLeaf
  split <;> exact ⟨rfl, rfl, rfl, rfl⟩

theorem State.cachePages_frame (s : State) (d : Fin 2) (part : BitVec 4) (va len : Nat) :
    (s.cachePages d part va len).mem = s.mem ∧ (s.cachePages d part va len).cores = s.cores ∧
      (s.cachePages d part va len).clusters = s.clusters ∧ (s.cachePages d part va len).pkg = s.pkg := by
  unfold State.cachePages
  generalize pageParts 20 va len = ps
  induction ps generalizing s with
  | nil => exact ⟨rfl, rfl, rfl, rfl⟩
  | cons p ps ih =>
    obtain ⟨a, b, c, e⟩ := s.cacheLeaf_frame d part p.1
    obtain ⟨a', b', c', e'⟩ := ih (s.cacheLeaf d part p.1)
    exact ⟨a'.trans a, b'.trans b, c'.trans c, e'.trans e⟩

theorem State.barnRoom_frame (s : State) (d : Fin 2) (w : Fin 16) :
    (s.barnRoom d w).cores = s.cores ∧ (s.barnRoom d w).clusters = s.clusters ∧ (s.barnRoom d w).pkg = s.pkg := by
  unfold State.barnRoom
  dsimp only
  repeat' split
  all_goals exact ⟨rfl, rfl, rfl⟩

theorem State.barnFill_frame (s : State) (a : Nat) :
    (s.barnFill a).cores = s.cores ∧ (s.barnFill a).clusters = s.clusters ∧ (s.barnFill a).pkg = s.pkg := by
  unfold State.barnFill
  repeat' split
  all_goals first | exact ⟨rfl, rfl, rfl⟩ | exact s.barnRoom_frame _ _

theorem State.barnFillSpan_frame (s : State) (a n : Nat) :
    (s.barnFillSpan a n).cores = s.cores ∧ (s.barnFillSpan a n).clusters = s.clusters ∧ (s.barnFillSpan a n).pkg = s.pkg := by
  unfold State.barnFillSpan
  generalize List.range (lineOf (a + n - 1) - lineOf a + 1) = ks
  induction ks generalizing s with
  | nil => exact ⟨rfl, rfl, rfl⟩
  | cons k ks ih =>
    obtain ⟨a1, b1, c1⟩ := s.barnFill_frame (128 * (lineOf a + k))
    obtain ⟨a2, b2, c2⟩ := ih (s.barnFill (128 * (lineOf a + k)))
    exact ⟨a2.trans a1, b2.trans b1, c2.trans c1⟩

theorem State.touch_frame (s : State) (a n : Nat) : (s.touch a n).cores = s.cores ∧ (s.touch a n).clusters = s.clusters := by
  unfold State.touch
  split
  · exact ⟨rfl, rfl⟩
  · exact ⟨(s.barnFillSpan_frame a n).1, (s.barnFillSpan_frame a n).2.1⟩
  · exact ⟨rfl, rfl⟩

/-- A device read of HBM does nothing beside reading. -/
theorem State.touch_hbm {s : State} {a : Nat} {d : Fin 2} (h : physKind a = .hbm d) (n : Nat) : s.touch a n = s := by
  simp [State.touch, h]

theorem State.fillPieces_frame (s : State) (ps : List (Nat × Nat × Word)) :
    (s.fillPieces ps).cores = s.cores ∧ (s.fillPieces ps).clusters = s.clusters := by
  unfold State.fillPieces
  induction ps generalizing s with
  | nil => exact ⟨rfl, rfl⟩
  | cons p ps ih =>
    obtain ⟨a, b⟩ := s.touch_frame p.1 p.2.1
    obtain ⟨a', b'⟩ := ih (s.touch p.1 p.2.1)
    exact ⟨a'.trans a, b'.trans b⟩

/-- Reading pieces of HBM does nothing beside reading. -/
theorem State.fillPieces_hbm {s : State} {ps : List (Nat × Nat × Word)} (h : ∀ p ∈ ps, ∃ d, physKind p.1 = .hbm d) :
    s.fillPieces ps = s := by
  unfold State.fillPieces
  induction ps with
  | nil => rfl
  | cons p ps ih =>
    obtain ⟨d, hd⟩ := h p (by simp)
    rw [List.foldl_cons, State.touch_hbm hd]
    exact ih fun q hq => h q (List.mem_cons_of_mem _ hq)

/-- What a read of the Granger that answers leaves: the state after the translation and the fetch of its pieces. -/
theorem State.grRead_bytes {s : State} {d : Fin 2} {who : Asker} {part : BitVec 4} {va len : Nat} {bs : List Byte}
    (h : (s.grRead d who part va len).2 = .bytes bs) :
    ∃ ps, s.resolve d part [] va len .read = .pieces ps ∧ (s.grRead d who part va len).1 = (s.cachePages d part va len).fillPieces ps := by
  unfold State.grRead State.reach at h ⊢
  cases hr : s.resolve d part [] va len .read with
  | fail e => simp [hr] at h
  | held a c =>
    simp only [hr] at h
    cases hf : ((s.granger d).holds.find? fun h => h.who == who && h.page == a / 65536 && h.part == part && h.kind == Access.read.kind) with
    | none => simp [hf] at h
    | some g => by_cases hg : g.refused = true <;> simp [hf, hg] at h
  | pieces ps =>
    simp only [hr] at h ⊢
    cases hq : (s.cachePages d part va len).readPieces ps with
    | none => simp [hq] at h
    | some b => exact ⟨ps, rfl, rfl⟩

/-- A read of the Granger that answers leaves cores and clusters as they were. -/
theorem State.grRead_frame {s : State} {d : Fin 2} {who : Asker} {part : BitVec 4} {va len : Nat} {bs : List Byte}
    (h : (s.grRead d who part va len).2 = .bytes bs) :
    (s.grRead d who part va len).1.cores = s.cores ∧ (s.grRead d who part va len).1.clusters = s.clusters := by
  obtain ⟨ps, -, e⟩ := State.grRead_bytes h
  obtain ⟨-, a, b, -⟩ := s.cachePages_frame d part va len
  obtain ⟨a', b'⟩ := (s.cachePages d part va len).fillPieces_frame ps
  rw [e]
  exact ⟨a'.trans a, b'.trans b⟩

/-- A read of the Granger that answers from HBM leaves memory and the package as they were, too. -/
theorem State.grRead_hbm {s : State} {d : Fin 2} {who : Asker} {part : BitVec 4} {va len : Nat} {bs : List Byte}
    (h : (s.grRead d who part va len).2 = .bytes bs)
    (near : ∀ ps, s.resolve d part [] va len .read = .pieces ps → ∀ p ∈ ps, ∃ e, physKind p.1 = .hbm e) :
    (s.grRead d who part va len).1.mem = s.mem ∧ (s.grRead d who part va len).1.pkg = s.pkg := by
  obtain ⟨ps, r, e⟩ := State.grRead_bytes h
  obtain ⟨a, -, -, b⟩ := s.cachePages_frame d part va len
  rw [e, State.fillPieces_hbm (near ps r)]
  exact ⟨a, b⟩

end Sys2Proof.Machine
end

