-- ==== Sys2Proof/Laws/State.lean ====
section
/-! SUPPORT. The fields of the state after each of its updates: one equation per field per update, true by `rfl`, and what a
look-up answers after an update. Later proofs rewrite with these and do not unfold an update. -/
namespace Sys2Proof.Machine

/-! ### `State.updCore` -/

@[simp] theorem State.updCore_now (s : State) (c : Fin 256) (f : Core → Core) : (s.updCore c f).now = s.now := rfl
@[simp] theorem State.updCore_sched (s : State) (c : Fin 256) (f : Core → Core) : (s.updCore c f).sched = s.sched := rfl
@[simp] theorem State.updCore_cur (s : State) (c : Fin 256) (f : Core → Core) : (s.updCore c f).cur = s.cur := rfl
@[simp] theorem State.updCore_issue (s : State) (c : Fin 256) (f : Core → Core) : (s.updCore c f).issue = s.issue := rfl
@[simp] theorem State.updCore_free (s : State) (c : Fin 256) (f : Core → Core) : (s.updCore c f).free = s.free := rfl
@[simp] theorem State.updCore_cores (s : State) (c : Fin 256) (f : Core → Core) : (s.updCore c f).cores = s.cores.set c (f s.cores[c]) := rfl
@[simp] theorem State.updCore_clusters (s : State) (c : Fin 256) (f : Core → Core) : (s.updCore c f).clusters = s.clusters := rfl
@[simp] theorem State.updCore_dies (s : State) (c : Fin 256) (f : Core → Core) : (s.updCore c f).dies = s.dies := rfl
@[simp] theorem State.updCore_pkg (s : State) (c : Fin 256) (f : Core → Core) : (s.updCore c f).pkg = s.pkg := rfl
@[simp] theorem State.updCore_prog (s : State) (c : Fin 256) (f : Core → Core) : (s.updCore c f).prog = s.prog := rfl
@[simp] theorem State.updCore_reread (s : State) (c : Fin 256) (f : Core → Core) : (s.updCore c f).reread = s.reread := rfl
@[simp] theorem State.updCore_mem (s : State) (c : Fin 256) (f : Core → Core) : (s.updCore c f).mem = s.mem := rfl

/-! ### `State.modCore` -/

@[simp] theorem State.modCore_now (s : State) (f : Core → Core) : (s.modCore f).now = s.now := rfl
@[simp] theorem State.modCore_sched (s : State) (f : Core → Core) : (s.modCore f).sched = s.sched := rfl
@[simp] theorem State.modCore_cur (s : State) (f : Core → Core) : (s.modCore f).cur = s.cur := rfl
@[simp] theorem State.modCore_issue (s : State) (f : Core → Core) : (s.modCore f).issue = s.issue := rfl
@[simp] theorem State.modCore_free (s : State) (f : Core → Core) : (s.modCore f).free = s.free := rfl
@[simp] theorem State.modCore_cores (s : State) (f : Core → Core) : (s.modCore f).cores = s.cores.set s.cur (f s.cores[s.cur]) := rfl
@[simp] theorem State.modCore_clusters (s : State) (f : Core → Core) : (s.modCore f).clusters = s.clusters := rfl
@[simp] theorem State.modCore_dies (s : State) (f : Core → Core) : (s.modCore f).dies = s.dies := rfl
@[simp] theorem State.modCore_pkg (s : State) (f : Core → Core) : (s.modCore f).pkg = s.pkg := rfl
@[simp] theorem State.modCore_prog (s : State) (f : Core → Core) : (s.modCore f).prog = s.prog := rfl
@[simp] theorem State.modCore_reread (s : State) (f : Core → Core) : (s.modCore f).reread = s.reread := rfl
@[simp] theorem State.modCore_mem (s : State) (f : Core → Core) : (s.modCore f).mem = s.mem := rfl

/-! ### `State.modCtx` -/

@[simp] theorem State.modCtx_now (s : State) (f : Context → Context) : (s.modCtx f).now = s.now := rfl
@[simp] theorem State.modCtx_sched (s : State) (f : Context → Context) : (s.modCtx f).sched = s.sched := rfl
@[simp] theorem State.modCtx_cur (s : State) (f : Context → Context) : (s.modCtx f).cur = s.cur := rfl
@[simp] theorem State.modCtx_issue (s : State) (f : Context → Context) : (s.modCtx f).issue = s.issue := rfl
@[simp] theorem State.modCtx_free (s : State) (f : Context → Context) : (s.modCtx f).free = s.free := rfl
@[simp] theorem State.modCtx_cores (s : State) (f : Context → Context) : (s.modCtx f).cores = s.cores.set s.cur (s.core.modCtx s.core.bank f) := rfl
@[simp] theorem State.modCtx_clusters (s : State) (f : Context → Context) : (s.modCtx f).clusters = s.clusters := rfl
@[simp] theorem State.modCtx_dies (s : State) (f : Context → Context) : (s.modCtx f).dies = s.dies := rfl
@[simp] theorem State.modCtx_pkg (s : State) (f : Context → Context) : (s.modCtx f).pkg = s.pkg := rfl
@[simp] theorem State.modCtx_prog (s : State) (f : Context → Context) : (s.modCtx f).prog = s.prog := rfl
@[simp] theorem State.modCtx_reread (s : State) (f : Context → Context) : (s.modCtx f).reread = s.reread := rfl
@[simp] theorem State.modCtx_mem (s : State) (f : Context → Context) : (s.modCtx f).mem = s.mem := rfl

/-! ### `State.draw` -/

@[simp] theorem State.draw_now (s : State) : (s.draw).now = s.now := rfl
@[simp] theorem State.draw_sched (s : State) : (s.draw).sched = s.sched := rfl
@[simp] theorem State.draw_cur (s : State) : (s.draw).cur = s.cur := rfl
@[simp] theorem State.draw_issue (s : State) : (s.draw).issue = s.issue := rfl
@[simp] theorem State.draw_free (s : State) : (s.draw).free = s.free + 1 := rfl
@[simp] theorem State.draw_cores (s : State) : (s.draw).cores = s.cores := rfl
@[simp] theorem State.draw_clusters (s : State) : (s.draw).clusters = s.clusters := rfl
@[simp] theorem State.draw_dies (s : State) : (s.draw).dies = s.dies := rfl
@[simp] theorem State.draw_pkg (s : State) : (s.draw).pkg = s.pkg := rfl
@[simp] theorem State.draw_prog (s : State) : (s.draw).prog = s.prog := rfl
@[simp] theorem State.draw_reread (s : State) : (s.draw).reread = s.reread := rfl
@[simp] theorem State.draw_mem (s : State) : (s.draw).mem = s.mem := rfl

/-! ### `State.updCluster` -/

@[simp] theorem State.updCluster_now (s : State) (c : Fin 16) (f : Cluster → Cluster) : (s.updCluster c f).now = s.now := rfl
@[simp] theorem State.updCluster_sched (s : State) (c : Fin 16) (f : Cluster → Cluster) : (s.updCluster c f).sched = s.sched := rfl
@[simp] theorem State.updCluster_cur (s : State) (c : Fin 16) (f : Cluster → Cluster) : (s.updCluster c f).cur = s.cur := rfl
@[simp] theorem State.updCluster_issue (s : State) (c : Fin 16) (f : Cluster → Cluster) : (s.updCluster c f).issue = s.issue := rfl
@[simp] theorem State.updCluster_free (s : State) (c : Fin 16) (f : Cluster → Cluster) : (s.updCluster c f).free = s.free := rfl
@[simp] theorem State.updCluster_cores (s : State) (c : Fin 16) (f : Cluster → Cluster) : (s.updCluster c f).cores = s.cores := rfl
@[simp] theorem State.updCluster_clusters (s : State) (c : Fin 16) (f : Cluster → Cluster) : (s.updCluster c f).clusters = s.clusters.set c (f s.clusters[c]) := rfl
@[simp] theorem State.updCluster_dies (s : State) (c : Fin 16) (f : Cluster → Cluster) : (s.updCluster c f).dies = s.dies := rfl
@[simp] theorem State.updCluster_pkg (s : State) (c : Fin 16) (f : Cluster → Cluster) : (s.updCluster c f).pkg = s.pkg := rfl
@[simp] theorem State.updCluster_prog (s : State) (c : Fin 16) (f : Cluster → Cluster) : (s.updCluster c f).prog = s.prog := rfl
@[simp] theorem State.updCluster_reread (s : State) (c : Fin 16) (f : Cluster → Cluster) : (s.updCluster c f).reread = s.reread := rfl
@[simp] theorem State.updCluster_mem (s : State) (c : Fin 16) (f : Cluster → Cluster) : (s.updCluster c f).mem = s.mem := rfl

/-! ### `State.updDie` -/

@[simp] theorem State.updDie_now (s : State) (d : Fin 2) (f : Die → Die) : (s.updDie d f).now = s.now := rfl
@[simp] theorem State.updDie_sched (s : State) (d : Fin 2) (f : Die → Die) : (s.updDie d f).sched = s.sched := rfl
@[simp] theorem State.updDie_cur (s : State) (d : Fin 2) (f : Die → Die) : (s.updDie d f).cur = s.cur := rfl
@[simp] theorem State.updDie_issue (s : State) (d : Fin 2) (f : Die → Die) : (s.updDie d f).issue = s.issue := rfl
@[simp] theorem State.updDie_free (s : State) (d : Fin 2) (f : Die → Die) : (s.updDie d f).free = s.free := rfl
@[simp] theorem State.updDie_cores (s : State) (d : Fin 2) (f : Die → Die) : (s.updDie d f).cores = s.cores := rfl
@[simp] theorem State.updDie_clusters (s : State) (d : Fin 2) (f : Die → Die) : (s.updDie d f).clusters = s.clusters := rfl
@[simp] theorem State.updDie_dies (s : State) (d : Fin 2) (f : Die → Die) : (s.updDie d f).dies = s.dies.set d (f s.dies[d]) := rfl
@[simp] theorem State.updDie_pkg (s : State) (d : Fin 2) (f : Die → Die) : (s.updDie d f).pkg = s.pkg := rfl
@[simp] theorem State.updDie_prog (s : State) (d : Fin 2) (f : Die → Die) : (s.updDie d f).prog = s.prog := rfl
@[simp] theorem State.updDie_reread (s : State) (d : Fin 2) (f : Die → Die) : (s.updDie d f).reread = s.reread := rfl
@[simp] theorem State.updDie_mem (s : State) (d : Fin 2) (f : Die → Die) : (s.updDie d f).mem = s.mem := rfl

/-! ### `State.updGranger` -/

@[simp] theorem State.updGranger_now (s : State) (d : Fin 2) (f : Granger → Granger) : (s.updGranger d f).now = s.now := rfl
@[simp] theorem State.updGranger_sched (s : State) (d : Fin 2) (f : Granger → Granger) : (s.updGranger d f).sched = s.sched := rfl
@[simp] theorem State.updGranger_cur (s : State) (d : Fin 2) (f : Granger → Granger) : (s.updGranger d f).cur = s.cur := rfl
@[simp] theorem State.updGranger_issue (s : State) (d : Fin 2) (f : Granger → Granger) : (s.updGranger d f).issue = s.issue := rfl
@[simp] theorem State.updGranger_free (s : State) (d : Fin 2) (f : Granger → Granger) : (s.updGranger d f).free = s.free := rfl
@[simp] theorem State.updGranger_cores (s : State) (d : Fin 2) (f : Granger → Granger) : (s.updGranger d f).cores = s.cores := rfl
@[simp] theorem State.updGranger_clusters (s : State) (d : Fin 2) (f : Granger → Granger) : (s.updGranger d f).clusters = s.clusters := rfl
@[simp] theorem State.updGranger_pkg (s : State) (d : Fin 2) (f : Granger → Granger) : (s.updGranger d f).pkg = s.pkg := rfl
@[simp] theorem State.updGranger_prog (s : State) (d : Fin 2) (f : Granger → Granger) : (s.updGranger d f).prog = s.prog := rfl
@[simp] theorem State.updGranger_reread (s : State) (d : Fin 2) (f : Granger → Granger) : (s.updGranger d f).reread = s.reread := rfl
@[simp] theorem State.updGranger_mem (s : State) (d : Fin 2) (f : Granger → Granger) : (s.updGranger d f).mem = s.mem := rfl

/-! ### `State.updThresher` -/

@[simp] theorem State.updThresher_now (s : State) (d : Fin 2) (f : Thresher → Thresher) : (s.updThresher d f).now = s.now := rfl
@[simp] theorem State.updThresher_sched (s : State) (d : Fin 2) (f : Thresher → Thresher) : (s.updThresher d f).sched = s.sched := rfl
@[simp] theorem State.updThresher_cur (s : State) (d : Fin 2) (f : Thresher → Thresher) : (s.updThresher d f).cur = s.cur := rfl
@[simp] theorem State.updThresher_issue (s : State) (d : Fin 2) (f : Thresher → Thresher) : (s.updThresher d f).issue = s.issue := rfl
@[simp] theorem State.updThresher_free (s : State) (d : Fin 2) (f : Thresher → Thresher) : (s.updThresher d f).free = s.free := rfl
@[simp] theorem State.updThresher_cores (s : State) (d : Fin 2) (f : Thresher → Thresher) : (s.updThresher d f).cores = s.cores := rfl
@[simp] theorem State.updThresher_clusters (s : State) (d : Fin 2) (f : Thresher → Thresher) : (s.updThresher d f).clusters = s.clusters := rfl
@[simp] theorem State.updThresher_pkg (s : State) (d : Fin 2) (f : Thresher → Thresher) : (s.updThresher d f).pkg = s.pkg := rfl
@[simp] theorem State.updThresher_prog (s : State) (d : Fin 2) (f : Thresher → Thresher) : (s.updThresher d f).prog = s.prog := rfl
@[simp] theorem State.updThresher_reread (s : State) (d : Fin 2) (f : Thresher → Thresher) : (s.updThresher d f).reread = s.reread := rfl
@[simp] theorem State.updThresher_mem (s : State) (d : Fin 2) (f : Thresher → Thresher) : (s.updThresher d f).mem = s.mem := rfl

/-! ### `State.updQueue` -/

@[simp] theorem State.updQueue_now (s : State) (d : Fin 2) (q : Fin 64) (f : Queue → Queue) : (s.updQueue d q f).now = s.now := rfl
@[simp] theorem State.updQueue_sched (s : State) (d : Fin 2) (q : Fin 64) (f : Queue → Queue) : (s.updQueue d q f).sched = s.sched := rfl
@[simp] theorem State.updQueue_cur (s : State) (d : Fin 2) (q : Fin 64) (f : Queue → Queue) : (s.updQueue d q f).cur = s.cur := rfl
@[simp] theorem State.updQueue_issue (s : State) (d : Fin 2) (q : Fin 64) (f : Queue → Queue) : (s.updQueue d q f).issue = s.issue := rfl
@[simp] theorem State.updQueue_free (s : State) (d : Fin 2) (q : Fin 64) (f : Queue → Queue) : (s.updQueue d q f).free = s.free := rfl
@[simp] theorem State.updQueue_cores (s : State) (d : Fin 2) (q : Fin 64) (f : Queue → Queue) : (s.updQueue d q f).cores = s.cores := rfl
@[simp] theorem State.updQueue_clusters (s : State) (d : Fin 2) (q : Fin 64) (f : Queue → Queue) : (s.updQueue d q f).clusters = s.clusters := rfl
@[simp] theorem State.updQueue_pkg (s : State) (d : Fin 2) (q : Fin 64) (f : Queue → Queue) : (s.updQueue d q f).pkg = s.pkg := rfl
@[simp] theorem State.updQueue_prog (s : State) (d : Fin 2) (q : Fin 64) (f : Queue → Queue) : (s.updQueue d q f).prog = s.prog := rfl
@[simp] theorem State.updQueue_reread (s : State) (d : Fin 2) (q : Fin 64) (f : Queue → Queue) : (s.updQueue d q f).reread = s.reread := rfl
@[simp] theorem State.updQueue_mem (s : State) (d : Fin 2) (q : Fin 64) (f : Queue → Queue) : (s.updQueue d q f).mem = s.mem := rfl

/-! ### `State.updPkg` -/

@[simp] theorem State.updPkg_now (s : State) (f : Package → Package) : (s.updPkg f).now = s.now := rfl
@[simp] theorem State.updPkg_sched (s : State) (f : Package → Package) : (s.updPkg f).sched = s.sched := rfl
@[simp] theorem State.updPkg_cur (s : State) (f : Package → Package) : (s.updPkg f).cur = s.cur := rfl
@[simp] theorem State.updPkg_issue (s : State) (f : Package → Package) : (s.updPkg f).issue = s.issue := rfl
@[simp] theorem State.updPkg_free (s : State) (f : Package → Package) : (s.updPkg f).free = s.free := rfl
@[simp] theorem State.updPkg_cores (s : State) (f : Package → Package) : (s.updPkg f).cores = s.cores := rfl
@[simp] theorem State.updPkg_clusters (s : State) (f : Package → Package) : (s.updPkg f).clusters = s.clusters := rfl
@[simp] theorem State.updPkg_dies (s : State) (f : Package → Package) : (s.updPkg f).dies = s.dies := rfl
@[simp] theorem State.updPkg_pkg (s : State) (f : Package → Package) : (s.updPkg f).pkg = f s.pkg := rfl
@[simp] theorem State.updPkg_prog (s : State) (f : Package → Package) : (s.updPkg f).prog = s.prog := rfl
@[simp] theorem State.updPkg_reread (s : State) (f : Package → Package) : (s.updPkg f).reread = s.reread := rfl
@[simp] theorem State.updPkg_mem (s : State) (f : Package → Package) : (s.updPkg f).mem = s.mem := rfl

/-! ### `State.result` -/

@[simp] theorem State.result_now (s : State) (lat : Nat) (ws : List RegWrite) (fl : Flags) : (s.result lat ws fl).now = s.now := rfl
@[simp] theorem State.result_sched (s : State) (lat : Nat) (ws : List RegWrite) (fl : Flags) : (s.result lat ws fl).sched = s.sched := rfl
@[simp] theorem State.result_cur (s : State) (lat : Nat) (ws : List RegWrite) (fl : Flags) : (s.result lat ws fl).cur = s.cur := rfl
@[simp] theorem State.result_issue (s : State) (lat : Nat) (ws : List RegWrite) (fl : Flags) : (s.result lat ws fl).issue = s.issue := rfl
@[simp] theorem State.result_free (s : State) (lat : Nat) (ws : List RegWrite) (fl : Flags) : (s.result lat ws fl).free = s.free := rfl
@[simp] theorem State.result_clusters (s : State) (lat : Nat) (ws : List RegWrite) (fl : Flags) : (s.result lat ws fl).clusters = s.clusters := rfl
@[simp] theorem State.result_dies (s : State) (lat : Nat) (ws : List RegWrite) (fl : Flags) : (s.result lat ws fl).dies = s.dies := rfl
@[simp] theorem State.result_pkg (s : State) (lat : Nat) (ws : List RegWrite) (fl : Flags) : (s.result lat ws fl).pkg = s.pkg := rfl
@[simp] theorem State.result_prog (s : State) (lat : Nat) (ws : List RegWrite) (fl : Flags) : (s.result lat ws fl).prog = s.prog := rfl
@[simp] theorem State.result_reread (s : State) (lat : Nat) (ws : List RegWrite) (fl : Flags) : (s.result lat ws fl).reread = s.reread := rfl
@[simp] theorem State.result_mem (s : State) (lat : Nat) (ws : List RegWrite) (fl : Flags) : (s.result lat ws fl).mem = s.mem := rfl

/-! ### `State.sresult` -/

@[simp] theorem State.sresult_now (s : State) (lat : Nat) (rd : BitVec 5) (v : SVal) (fl : Flags) : (s.sresult lat rd v fl).now = s.now := rfl
@[simp] theorem State.sresult_sched (s : State) (lat : Nat) (rd : BitVec 5) (v : SVal) (fl : Flags) : (s.sresult lat rd v fl).sched = s.sched := rfl
@[simp] theorem State.sresult_cur (s : State) (lat : Nat) (rd : BitVec 5) (v : SVal) (fl : Flags) : (s.sresult lat rd v fl).cur = s.cur := rfl
@[simp] theorem State.sresult_issue (s : State) (lat : Nat) (rd : BitVec 5) (v : SVal) (fl : Flags) : (s.sresult lat rd v fl).issue = s.issue := rfl
@[simp] theorem State.sresult_free (s : State) (lat : Nat) (rd : BitVec 5) (v : SVal) (fl : Flags) : (s.sresult lat rd v fl).free = s.free := rfl
@[simp] theorem State.sresult_clusters (s : State) (lat : Nat) (rd : BitVec 5) (v : SVal) (fl : Flags) : (s.sresult lat rd v fl).clusters = s.clusters := rfl
@[simp] theorem State.sresult_dies (s : State) (lat : Nat) (rd : BitVec 5) (v : SVal) (fl : Flags) : (s.sresult lat rd v fl).dies = s.dies := rfl
@[simp] theorem State.sresult_pkg (s : State) (lat : Nat) (rd : BitVec 5) (v : SVal) (fl : Flags) : (s.sresult lat rd v fl).pkg = s.pkg := rfl
@[simp] theorem State.sresult_prog (s : State) (lat : Nat) (rd : BitVec 5) (v : SVal) (fl : Flags) : (s.sresult lat rd v fl).prog = s.prog := rfl
@[simp] theorem State.sresult_reread (s : State) (lat : Nat) (rd : BitVec 5) (v : SVal) (fl : Flags) : (s.sresult lat rd v fl).reread = s.reread := rfl
@[simp] theorem State.sresult_mem (s : State) (lat : Nat) (rd : BitVec 5) (v : SVal) (fl : Flags) : (s.sresult lat rd v fl).mem = s.mem := rfl

/-! ### `State.defer` -/

@[simp] theorem State.defer_now (s : State) (d : Deferred) : (s.defer d).now = s.now := rfl
@[simp] theorem State.defer_sched (s : State) (d : Deferred) : (s.defer d).sched = s.sched := rfl
@[simp] theorem State.defer_cur (s : State) (d : Deferred) : (s.defer d).cur = s.cur := rfl
@[simp] theorem State.defer_issue (s : State) (d : Deferred) : (s.defer d).issue = s.issue := rfl
@[simp] theorem State.defer_free (s : State) (d : Deferred) : (s.defer d).free = s.free := rfl
@[simp] theorem State.defer_clusters (s : State) (d : Deferred) : (s.defer d).clusters = s.clusters := rfl
@[simp] theorem State.defer_dies (s : State) (d : Deferred) : (s.defer d).dies = s.dies := rfl
@[simp] theorem State.defer_pkg (s : State) (d : Deferred) : (s.defer d).pkg = s.pkg := rfl
@[simp] theorem State.defer_prog (s : State) (d : Deferred) : (s.defer d).prog = s.prog := rfl
@[simp] theorem State.defer_reread (s : State) (d : Deferred) : (s.defer d).reread = s.reread := rfl
@[simp] theorem State.defer_mem (s : State) (d : Deferred) : (s.defer d).mem = s.mem := rfl

/-! ### `State.trap` -/

@[simp] theorem State.trap_now (s : State) (cause : BitVec 8) (pos : Nat) (tval : Word) : (s.trap cause pos tval).now = s.now := rfl
@[simp] theorem State.trap_sched (s : State) (cause : BitVec 8) (pos : Nat) (tval : Word) : (s.trap cause pos tval).sched = s.sched := rfl
@[simp] theorem State.trap_cur (s : State) (cause : BitVec 8) (pos : Nat) (tval : Word) : (s.trap cause pos tval).cur = s.cur := rfl
@[simp] theorem State.trap_issue (s : State) (cause : BitVec 8) (pos : Nat) (tval : Word) : (s.trap cause pos tval).issue = { s.issue with stop := .trapped } := rfl
@[simp] theorem State.trap_free (s : State) (cause : BitVec 8) (pos : Nat) (tval : Word) : (s.trap cause pos tval).free = s.free := rfl
@[simp] theorem State.trap_clusters (s : State) (cause : BitVec 8) (pos : Nat) (tval : Word) : (s.trap cause pos tval).clusters = s.clusters := rfl
@[simp] theorem State.trap_dies (s : State) (cause : BitVec 8) (pos : Nat) (tval : Word) : (s.trap cause pos tval).dies = s.dies := rfl
@[simp] theorem State.trap_pkg (s : State) (cause : BitVec 8) (pos : Nat) (tval : Word) : (s.trap cause pos tval).pkg = s.pkg := rfl
@[simp] theorem State.trap_prog (s : State) (cause : BitVec 8) (pos : Nat) (tval : Word) : (s.trap cause pos tval).prog = s.prog := rfl
@[simp] theorem State.trap_reread (s : State) (cause : BitVec 8) (pos : Nat) (tval : Word) : (s.trap cause pos tval).reread = s.reread := rfl
@[simp] theorem State.trap_mem (s : State) (cause : BitVec 8) (pos : Nat) (tval : Word) : (s.trap cause pos tval).mem = s.mem := rfl

/-! ### `State.syncFault` -/

@[simp] theorem State.syncFault_now (s : State) (cause : BitVec 8) (addr : Word) (kind : BitVec 3) : (s.syncFault cause addr kind).now = s.now := rfl
@[simp] theorem State.syncFault_sched (s : State) (cause : BitVec 8) (addr : Word) (kind : BitVec 3) : (s.syncFault cause addr kind).sched = s.sched := rfl
@[simp] theorem State.syncFault_cur (s : State) (cause : BitVec 8) (addr : Word) (kind : BitVec 3) : (s.syncFault cause addr kind).cur = s.cur := rfl
@[simp] theorem State.syncFault_issue (s : State) (cause : BitVec 8) (addr : Word) (kind : BitVec 3) : (s.syncFault cause addr kind).issue = { s.issue with stop := .trapped } := rfl
@[simp] theorem State.syncFault_free (s : State) (cause : BitVec 8) (addr : Word) (kind : BitVec 3) : (s.syncFault cause addr kind).free = s.free := rfl
@[simp] theorem State.syncFault_clusters (s : State) (cause : BitVec 8) (addr : Word) (kind : BitVec 3) : (s.syncFault cause addr kind).clusters = s.clusters := rfl
@[simp] theorem State.syncFault_dies (s : State) (cause : BitVec 8) (addr : Word) (kind : BitVec 3) : (s.syncFault cause addr kind).dies = s.dies := rfl
@[simp] theorem State.syncFault_pkg (s : State) (cause : BitVec 8) (addr : Word) (kind : BitVec 3) : (s.syncFault cause addr kind).pkg = s.pkg := rfl
@[simp] theorem State.syncFault_prog (s : State) (cause : BitVec 8) (addr : Word) (kind : BitVec 3) : (s.syncFault cause addr kind).prog = s.prog := rfl
@[simp] theorem State.syncFault_reread (s : State) (cause : BitVec 8) (addr : Word) (kind : BitVec 3) : (s.syncFault cause addr kind).reread = s.reread := rfl
@[simp] theorem State.syncFault_mem (s : State) (cause : BitVec 8) (addr : Word) (kind : BitVec 3) : (s.syncFault cause addr kind).mem = s.mem := rfl

/-! ### Contexts in a core -/

@[simp] theorem Core.setCtx_bc (k : Core) (b : Bool) (x : Option Context) : (k.setCtx b x).bc = k.bc := by cases b <;> rfl
@[simp] theorem Core.setCtx_bank (k : Core) (b : Bool) (x : Option Context) : (k.setCtx b x).bank = k.bank := by cases b <;> rfl
@[simp] theorem Core.setCtx_switching (k : Core) (b : Bool) (x : Option Context) : (k.setCtx b x).switching = k.switching := by cases b <;> rfl
@[simp] theorem Core.setCtx_freeze (k : Core) (b : Bool) (x : Option Context) : (k.setCtx b x).freeze = k.freeze := by cases b <;> rfl
@[simp] theorem Core.setCtx_missing (k : Core) (b : Bool) (x : Option Context) : (k.setCtx b x).missing = k.missing := by cases b <;> rfl
@[simp] theorem Core.setCtx_sinceSwitch (k : Core) (b : Bool) (x : Option Context) : (k.setCtx b x).sinceSwitch = k.sinceSwitch := by cases b <;> rfl
@[simp] theorem Core.setCtx_snapA (k : Core) (b : Bool) (x : Option Context) : (k.setCtx b x).snapA = k.snapA := by cases b <;> rfl
@[simp] theorem Core.setCtx_snapB (k : Core) (b : Bool) (x : Option Context) : (k.setCtx b x).snapB = k.snapB := by cases b <;> rfl
@[simp] theorem Core.setCtx_granary (k : Core) (b : Bool) (x : Option Context) : (k.setCtx b x).granary = k.granary := by cases b <;> rfl
@[simp] theorem Core.setCtx_badWords (k : Core) (b : Bool) (x : Option Context) : (k.setCtx b x).badWords = k.badWords := by cases b <;> rfl
@[simp] theorem Core.setCtx_tiles (k : Core) (b : Bool) (x : Option Context) : (k.setCtx b x).tiles = k.tiles := by cases b <;> rfl
@[simp] theorem Core.setCtx_quarters (k : Core) (b : Bool) (x : Option Context) : (k.setCtx b x).quarters = k.quarters := by cases b <;> rfl
@[simp] theorem Core.setCtx_matrix (k : Core) (b : Bool) (x : Option Context) : (k.setCtx b x).matrix = k.matrix := by cases b <;> rfl
@[simp] theorem Core.setCtx_istore (k : Core) (b : Bool) (x : Option Context) : (k.setCtx b x).istore = k.istore := by cases b <;> rfl
@[simp] theorem Core.setCtx_leases (k : Core) (b : Bool) (x : Option Context) : (k.setCtx b x).leases = k.leases := by cases b <;> rfl
@[simp] theorem Core.setCtx_disabled (k : Core) (b : Bool) (x : Option Context) : (k.setCtx b x).disabled = k.disabled := by cases b <;> rfl
@[simp] theorem Core.modCtx_bc (k : Core) (b : Bool) (g : Context → Context) : (k.modCtx b g).bc = k.bc := by cases b <;> rfl
@[simp] theorem Core.modCtx_bank (k : Core) (b : Bool) (g : Context → Context) : (k.modCtx b g).bank = k.bank := by cases b <;> rfl
@[simp] theorem Core.modCtx_switching (k : Core) (b : Bool) (g : Context → Context) : (k.modCtx b g).switching = k.switching := by cases b <;> rfl
@[simp] theorem Core.modCtx_freeze (k : Core) (b : Bool) (g : Context → Context) : (k.modCtx b g).freeze = k.freeze := by cases b <;> rfl
@[simp] theorem Core.modCtx_missing (k : Core) (b : Bool) (g : Context → Context) : (k.modCtx b g).missing = k.missing := by cases b <;> rfl
@[simp] theorem Core.modCtx_sinceSwitch (k : Core) (b : Bool) (g : Context → Context) : (k.modCtx b g).sinceSwitch = k.sinceSwitch := by cases b <;> rfl
@[simp] theorem Core.modCtx_snapA (k : Core) (b : Bool) (g : Context → Context) : (k.modCtx b g).snapA = k.snapA := by cases b <;> rfl
@[simp] theorem Core.modCtx_snapB (k : Core) (b : Bool) (g : Context → Context) : (k.modCtx b g).snapB = k.snapB := by cases b <;> rfl
@[simp] theorem Core.modCtx_granary (k : Core) (b : Bool) (g : Context → Context) : (k.modCtx b g).granary = k.granary := by cases b <;> rfl
@[simp] theorem Core.modCtx_badWords (k : Core) (b : Bool) (g : Context → Context) : (k.modCtx b g).badWords = k.badWords := by cases b <;> rfl
@[simp] theorem Core.modCtx_tiles (k : Core) (b : Bool) (g : Context → Context) : (k.modCtx b g).tiles = k.tiles := by cases b <;> rfl
@[simp] theorem Core.modCtx_quarters (k : Core) (b : Bool) (g : Context → Context) : (k.modCtx b g).quarters = k.quarters := by cases b <;> rfl
@[simp] theorem Core.modCtx_matrix (k : Core) (b : Bool) (g : Context → Context) : (k.modCtx b g).matrix = k.matrix := by cases b <;> rfl
@[simp] theorem Core.modCtx_istore (k : Core) (b : Bool) (g : Context → Context) : (k.modCtx b g).istore = k.istore := by cases b <;> rfl
@[simp] theorem Core.modCtx_leases (k : Core) (b : Bool) (g : Context → Context) : (k.modCtx b g).leases = k.leases := by cases b <;> rfl
@[simp] theorem Core.modCtx_disabled (k : Core) (b : Bool) (g : Context → Context) : (k.modCtx b g).disabled = k.disabled := by cases b <;> rfl

@[simp] theorem Core.setCtx_ctx? (k : Core) (b : Bool) (x : Option Context) : (k.setCtx b x).ctx? b = x := by cases b <;> rfl
@[simp] theorem Core.setCtx_ctx?_not (k : Core) (b : Bool) (x : Option Context) : (k.setCtx b x).ctx? (!b) = k.ctx? (!b) := by
  cases b <;> rfl
@[simp] theorem Core.modCtx_ctx? (k : Core) (b : Bool) (g : Context → Context) : (k.modCtx b g).ctx? b = (k.ctx? b).map g := by
  cases b <;> rfl
@[simp] theorem Core.modCtx_ctx?_not (k : Core) (b : Bool) (g : Context → Context) : (k.modCtx b g).ctx? (!b) = k.ctx? (!b) := by
  cases b <;> rfl
/-- Two changes of one bank are one. -/
@[simp] theorem Core.modCtx_modCtx (k : Core) (b : Bool) (f g : Context → Context) :
    (k.modCtx b f).modCtx b g = k.modCtx b fun x => g (f x) := by
  cases b <;> simp [Core.modCtx, Core.setCtx, Core.ctx?, Function.comp_def]

/-! ### Look-ups after an update -/

@[simp] theorem State.updCore_same (s : State) (c : Fin 256) (f : Core → Core) : (s.updCore c f).cores[c] = f s.cores[c] := by
  simp
theorem State.updCore_other (s : State) (c d : Fin 256) (f : Core → Core) (h : d ≠ c) : (s.updCore c f).cores[d] = s.cores[d] := by
  simp [Fin.val_ne_of_ne h.symm]
@[simp] theorem State.updDie_same (s : State) (d : Fin 2) (f : Die → Die) : (s.updDie d f).dies[d] = f s.dies[d] := by simp
theorem State.updDie_other (s : State) (d e : Fin 2) (f : Die → Die) (h : e ≠ d) : (s.updDie d f).dies[e] = s.dies[e] := by
  simp [Fin.val_ne_of_ne h.symm]
@[simp] theorem State.updCluster_same (s : State) (c : Fin 16) (f : Cluster → Cluster) :
    (s.updCluster c f).clusters[c] = f s.clusters[c] := by simp
theorem State.updCluster_other (s : State) (c d : Fin 16) (f : Cluster → Cluster) (h : d ≠ c) :
    (s.updCluster c f).clusters[d] = s.clusters[d] := by
  simp [Fin.val_ne_of_ne h.symm]
/-- Two changes of one core are one. -/
@[simp] theorem State.updCore_updCore (s : State) (c : Fin 256) (f g : Core → Core) :
    (s.updCore c f).updCore c g = s.updCore c fun k => g (f k) := by simp [State.updCore]
/-- Two changes of one die are one. -/
@[simp] theorem State.updDie_updDie (s : State) (d : Fin 2) (f g : Die → Die) :
    (s.updDie d f).updDie d g = s.updDie d fun x => g (f x) := by simp [State.updDie]
/-- Two changes of one cluster are one. -/
@[simp] theorem State.updCluster_updCluster (s : State) (c : Fin 16) (f g : Cluster → Cluster) :
    (s.updCluster c f).updCluster c g = s.updCluster c fun x => g (f x) := by simp [State.updCluster]
@[simp] theorem State.updThresher_updThresher (s : State) (d : Fin 2) (f g : Thresher → Thresher) :
    (s.updThresher d f).updThresher d g = s.updThresher d fun x => g (f x) := by simp [State.updThresher]
@[simp] theorem State.updGranger_updGranger (s : State) (d : Fin 2) (f g : Granger → Granger) :
    (s.updGranger d f).updGranger d g = s.updGranger d fun x => g (f x) := by simp [State.updGranger]
@[simp] theorem State.modCore_core (s : State) (f : Core → Core) : (s.modCore f).core = f s.core := by
  simp [State.core]
@[simp] theorem State.modCore_modCore (s : State) (f g : Core → Core) : (s.modCore f).modCore g = s.modCore fun k => g (f k) := by
  simp [State.modCore]
@[simp] theorem State.modCtx_core (s : State) (f : Context → Context) : (s.modCtx f).core = s.core.modCtx s.core.bank f := by
  simp [State.modCtx]
@[simp] theorem State.modCtx_ctx? (s : State) (f : Context → Context) : (s.modCtx f).ctx? = s.ctx?.map f := by
  simp [State.ctx?]
/-- Two changes of the context that issues are one. -/
@[simp] theorem State.modCtx_modCtx (s : State) (f g : Context → Context) : (s.modCtx f).modCtx g = s.modCtx fun x => g (f x) := by
  simp [State.modCtx]
/-- What a started result leaves: one more pending result of the context that issues. -/
theorem State.result_ctx? {s : State} {x : Context} (h : s.ctx? = some x) (lat : Nat) (ws : List RegWrite) (fl : Flags) :
    (s.result lat ws fl).ctx? = some { x with pend := x.pend ++ [⟨s.core.bc, s.core.bc + lat - 1, s.issue.pos, ws.map RegWrite.reg, ws, fl, x.chkmode, none⟩] } := by
  simp only [State.ctx?] at h
  simp [State.result, State.ctx?, h]
/-- A context change at a deferred write. -/
theorem State.defer_ctx? {s : State} {x : Context} (h : s.ctx? = some x) (d : Deferred) :
    (s.defer d).ctx? = some { x with deferred := x.deferred ++ [d] } := by
  simp [State.defer, h]

end Sys2Proof.Machine
end

