-- ==== Sys2Proof/Laws/Words.lean ====
section
/-! SUPPORT. What the shared forms of the meanings do, each said once: a bundle word when it issues, when a check stops it, when
its guard switches it off and in the separate passes of a bundle, and an event. Proofs about an instruction cite these and do
not unfold `runWord`. -/
namespace Sys2Proof.Machine

/-! ### Any bundle word -/

/-- A word that issues and whose own checks pass has its effect, on the registers as they stand. -/
theorem runWord_issues {s : State} {x : Context} {u : Use} (h : Issues s x u)
    (own : State → Core → Context → Check) (act : Core → Context → State → State) (ho : own s s.core x = .ok) :
    runWord u own act s = .next (act s.core x s) := by
  obtain ⟨hc, hp, hu, hs⟩ := h
  simp [runWord, hc, wordVerdict, hp, wordCheck, hu, hs, ho]

/-- A word that issues and whose own check is a trap takes it (R235). -/
theorem runWord_traps {s : State} {x : Context} {u : Use} (h : Issues s x u)
    (own : State → Core → Context → Check) (act : Core → Context → State → State) {cause : BitVec 8} {tval : Word}
    (ho : own s s.core x = .trap cause tval) : runWord u own act s = .next (s.trap cause s.issue.pos tval) := by
  obtain ⟨hc, hp, hu, hs⟩ := h
  simp [runWord, hc, wordVerdict, hp, wordCheck, hu, hs, ho]

/-- A word that issues and whose own check holds its bundle changes nothing but that (R103). -/
theorem runWord_holds {s : State} {x : Context} {u : Use} (h : Issues s x u)
    (own : State → Core → Context → Check) (act : Core → Context → State → State) (ho : own s s.core x = .hold) :
    runWord u own act s = .next s.held := by
  obtain ⟨hc, hp, hu, hs⟩ := h
  simp [runWord, hc, wordVerdict, hp, wordCheck, hu, hs, ho, State.held]

/-- A word that issues and whose own check is a page fault waits for the fault service (R243). -/
theorem runWord_faults {s : State} {x : Context} {u : Use} (h : Issues s x u)
    (own : State → Core → Context → Check) (act : Core → Context → State → State) {cause : BitVec 8} {a : Word} {kind : BitVec 3}
    (ho : own s s.core x = .pageFault cause a kind) : runWord u own act s = .next (s.syncFault cause a kind) := by
  obtain ⟨hc, hp, hu, hs⟩ := h
  simp [runWord, hc, wordVerdict, hp, wordCheck, hu, hs, ho]

/-- A word stops with a fault only where no task is (log entry 2): with a task in the bank it answers a next state. -/
theorem runWord_next {s : State} {x : Context} (h : s.ctx? = some x) (u : Use)
    (own : State → Core → Context → Check) (act : Core → Context → State → State) :
    ∃ t, runWord u own act s = .next t := by
  simp only [runWord, h]
  cases wordVerdict u own s x <;> exact ⟨_, rfl⟩

/-- Everything that a word can do: a task is there, and the word traps, faults, holds its bundle, changes nothing, or has its
effect, which it has only with its guard on and with no check against it. -/
theorem runWord_cases {u : Use} {own : State → Core → Context → Check} {act : Core → Context → State → State} {s t : State}
    (h : runWord u own act s = .next t) : ∃ x, s.ctx? = some x ∧
      ((∃ cause tval, t = s.trap cause s.issue.pos tval) ∨ (∃ cause a kind, t = s.syncFault cause a kind) ∨ t = s.held ∨ t = s ∨
        (u.on x = true ∧ wordVerdict u own s x = .ok ∧ t = act s.core x s)) := by
  unfold runWord at h
  cases hc : s.ctx? with
  | none => simp [hc] at h
  | some x =>
    refine ⟨x, rfl, ?_⟩
    cases hv : wordVerdict u own s x <;> simp only [hc, hv, Host.Outcome.next.injEq] at h
    · by_cases hu : u.on x = true
      · by_cases hp : s.issue.phase = .whole ∨ s.issue.phase = .act
        · exact .inr (.inr (.inr (.inr ⟨hu, rfl, by rw [← h, if_pos (by simpa using hp), if_pos hu]⟩)))
        · exact .inr (.inr (.inr (.inl (by rw [← h, if_neg (by simpa using hp)]))))
      · exact .inr (.inr (.inr (.inl (by rw [← h]; simp [hu]))))
    · exact .inl ⟨_, _, h.symm⟩
    · exact .inr (.inr (.inl h.symm))
    · exact .inr (.inl ⟨_, _, _, h.symm⟩)

/-- A word whose guard switches it off does nothing, when reading its guard breaks no schedule check (R72, R104). -/
theorem runWord_off {s : State} {x : Context} {u : Use} (hc : s.ctx? = some x) (hu : u.on x = false)
    (hs : s.issue.phase = .act ∨ scheduleCheck s.core s.core.bank x (u.allReads x) [] = none)
    (own : State → Core → Context → Check) (act : Core → Context → State → State) : runWord u own act s = .next s := by
  rcases hs with hp | hs
  · simp [runWord, hc, wordVerdict, hp, hu]
  · have hw : ∀ c, wordCheck u c s.core x = .ok := fun c => by simp [wordCheck, hu, hs]
    have hv : wordVerdict u own s x = .ok := by
      unfold wordVerdict
      split
      · rfl
      · exact hw _
      · exact hw _
    simp [runWord, hc, hv, hu]

/-- In the pass of a bundle's effects a word has its effect, whatever its checks would say: they are behind it (R235). -/
theorem runWord_act {s : State} {x : Context} {u : Use} (hc : s.ctx? = some x) (hp : s.issue.phase = .act) (hu : u.on x = true)
    (own : State → Core → Context → Check) (act : Core → Context → State → State) :
    runWord u own act s = .next (act s.core x s) := by
  simp [runWord, hc, wordVerdict, hp, hu]

/-- In the pass of a bundle's checks a word whose checks pass changes nothing (R235). -/
theorem runWord_check {s : State} {x : Context} {u : Use} (hc : s.ctx? = some x) (hp : s.issue.phase = .check)
    (own : State → Core → Context → Check) (act : Core → Context → State → State)
    (ho : wordCheck u (own s s.core x) s.core x = .ok) : runWord u own act s = .next s := by
  simp [runWord, hc, wordVerdict, hp, ho]

/-! ### Scalar words -/

/-- The meaning of a scalar word with one result, when it issues. -/
theorem scalarWord_issues {s : State} {x : Context} {g : Guard} {reads : List (BitVec 5)} {rd : BitVec 5} {lat : Nat}
    (h : Issues s x ⟨g, reads.map .s, [(.s rd, lat)]⟩) (f : Context → SVal × Flags) :
    scalarWord g reads rd lat f s = .next (s.sresult lat rd (f x).1 (f x).2) := by
  unfold scalarWord
  exact runWord_issues h _ _ rfl

theorem scalarBin_issues {s : State} {x : Context} {g : BitVec 4} {rd rs rt : BitVec 5} {lat : Nat}
    (h : Issues s x ⟨.scalar g, [.s rs, .s rt], [(.s rd, lat)]⟩) (f : Word → Word → Word) :
    scalarBin g rd rs rt lat f s = .next (s.sresult lat rd ⟨f (x.sdata rs) (x.sdata rt), 0⟩ 0) :=
  scalarWord_issues (reads := [rs, rt]) h _

theorem scalarUn_issues {s : State} {x : Context} {g : Guard} {rd rs : BitVec 5} {lat : Nat}
    (h : Issues s x ⟨g, [.s rs], [(.s rd, lat)]⟩) (f : Word → Word) :
    scalarUn g rd rs lat f s = .next (s.sresult lat rd ⟨f (x.sdata rs), 0⟩ 0) :=
  scalarWord_issues (reads := [rs]) h _

theorem scalarFloat_issues {s : State} {x : Context} {g : BitVec 4} {rd : BitVec 5} {reads : List (BitVec 5)} {lat : Nat}
    (h : Issues s x ⟨.scalar g, reads.map .s, [(.s rd, lat)]⟩) (f : Context → Elem × Flags) :
    scalarFloat g rd reads lat f s = .next (s.sresult lat rd (floatVal (f x).1) (f x).2) :=
  scalarWord_issues h _

/-- A bit field that is inserted, when the word issues (R116). -/
theorem bfInsertWord_issues {s : State} {x : Context} {g : Guard} {rd rs : BitVec 5} {more : List (BitVec 5)}
    (h : Issues s x ⟨g, ([rd, rs] ++ more).map .s, [(.s rd, 1)]⟩) (field : Context → Nat × Nat) :
    bfInsertWord g rd rs more field s = .next
      (match bfInsert (x.sdata rd) (x.sdata rs) (field x).1 (field x).2 with | some w => s.sresult 1 rd ⟨w, 0⟩ 0 | none => s) := by
  unfold bfInsertWord
  exact runWord_issues h _ _ rfl

theorem stageWord_issues {s : State} {x : Context} {g : BitVec 4} {bank : BitVec 2} {num : BitVec 3} {rs : BitVec 5}
    (h : Issues s x ⟨.scalar g, [.s rs], [(.stage bank num, 1)]⟩) :
    stageWord g bank num rs s = .next (s.result 1 [.stage bank num (x.sdata rs)] 0) := by
  unfold stageWord
  exact runWord_issues h _ _ rfl

/-- A branch whose target check passes decides where issue goes on (R99). -/
theorem branchWord_issues {s : State} {x : Context} {g : BitVec 4} {reads : List Name} (h : Issues s x ⟨.scalar g, reads, []⟩)
    (own : State → Core → Context → Check) (f : Context → Bool × Word) (ho : own s s.core x = .ok) :
    branchWord g reads own f s = .next (s.branch (f x).1 (f x).2) := by
  unfold branchWord
  exact runWord_issues h _ _ ho

/-! ### Vector words -/

/-- The meaning of a vector word with one result, when it issues. -/
theorem vectorWord_issues {s : State} {x : Context} {g : BitVec 4} {reads : List Name} {vd : BitVec 5} {lat : Nat}
    (h : Issues s x ⟨.lanes g, reads, [(.v vd, lat)]⟩) (f : Context → (VVal × VVal) × Flags) :
    vectorWord g reads vd lat f s = .next (s.result lat [.v (x.vPhys vd) (f x).1.1 (f x).1.2] (f x).2) := by
  unfold vectorWord
  exact runWord_issues h _ _ rfl

theorem compareWord_issues {s : State} {x : Context} {g : BitVec 4} {vd va vb : BitVec 5} {w : Nat}
    (h : Issues s x ⟨.lanes g, [.v va, .v vb], [(.p vd.toNat, 2)]⟩) (f : Context → Nat → Bool) :
    compareWord g vd va vb w f s = .next (s.result 2 [.p (x.pairOf vd) (compareLanes w (f x)) (elemLanes (x.guard g) w)] 0) := by
  unfold compareWord
  exact runWord_issues h _ _ rfl

theorem predWord_issues {s : State} {x : Context} {g : BitVec 4} {vd va vb : BitVec 5}
    (h : Issues s x ⟨.lanes g, [.p va.toNat, .p vb.toNat], [(.p vd.toNat, 2)]⟩) (f : PData → PData → PData) :
    predWord g vd va vb f s = .next (s.result 2 [.p (x.pairOf vd) (f (x.pget va.toNat) (x.pget vb.toNat)) (x.guard g)] 0) := by
  unfold predWord
  exact runWord_issues h _ _ rfl

/-- A memory word whose checks pass puts its access down (R163). -/
theorem memWord_issues {s : State} {x : Context} {g : BitVec 4} {base : BitVec 5} {off : BitVec 8} {len : Nat} {reads : List Name}
    {dests : List (Name × Nat)} (h : Issues s x ⟨.lanes g, .s base :: reads, dests⟩) (hg : g ≠ 1)
    (first : Context → Check) (act : Context → Nat → State → State) (hf : first x = .ok)
    (ha : memAccess s.core (memAddr x base off) len = .ok) :
    memWord g base off len reads dests first act s = .next (act x (memAddr x base off).toNat s) := by
  unfold memWord
  rw [if_neg (by simpa [neverGuard] using hg)]
  exact runWord_issues h _ _ (by simp [hf, ha, Check.andThen])

/-! ### Engine words -/

/-- A matrix word whose conditions hold enters the engine's queue (R181). -/
theorem matrixWord_issues {s : State} {x : Context} {op : MOp} {g : BitVec 4} {token : BitVec 5} {tile : BitVec 6} {reads : List Name}
    (h : Issues s x ⟨.lanes g, reads, []⟩) (reg : Context → BitVec 5) (data : Context → VVal)
    (ho : matrixCheck s.core x (mkMCmd op g token tile.toNat (reg x) (data x) s.core x) = .ok) :
    matrixWord op g token tile reads reg data s = .next
      (s.modCore fun k => { k with matrix := { k.matrix with queue := k.matrix.queue ++ [mkMCmd op g token tile.toNat (reg x) (data x) s.core x] } }) := by
  unfold matrixWord
  exact runWord_issues h _ _ ho

/-- A Wain word whose conditions hold enters the bank's queue (R221). -/
theorem wainWord_issues {s : State} {x : Context} {op : WOp} {g : BitVec 4} {token : BitVec 5} {reads : List Name}
    (h : Issues s x ⟨.lanes g, reads, []⟩) (regs : Context → List (BitVec 5)) (images : Context → List VVal) (ha : x.acquires = false)
    (ho : wainCheck s.core x (mkWCmd op g token (regs x) (images x) s.core x) = .ok) :
    wainWord op g token reads regs images s = .next
      (s.modCtx fun y => { y with wain := y.wain ++ [mkWCmd op g token (regs x) (images x) s.core x] }) := by
  unfold wainWord
  exact runWord_issues h _ _ (by simp [acquireHold, ha, ho, Check.andThen])

/-- A fabric word whose conditions hold enters the bank's queue (R446). -/
theorem fabricWord_issues {s : State} {x : Context} {op : FOp} {g : BitVec 4} {token ty : BitVec 5}
    (h : Issues s x ⟨.lanes g, [], []⟩) (reg : Context → BitVec 5) (scope : BitVec 3) (ha : x.acquires = false)
    (ho : fabricCheck s.core x (mkFCmd op g token ty (reg x) scope s.dies[coreDie s.cur] s.core x) = .ok) :
    fabricWord op g token ty reg scope s = .next
      (s.modCtx fun y => { y with fabric := y.fabric ++ [mkFCmd op g token ty (reg x) scope s.dies[coreDie s.cur] s.core x] }) := by
  unfold fabricWord
  exact runWord_issues h _ _ (by simpa [acquireHold, ha, Check.andThen] using ho)

/-! ### Events -/

/-- An event of a module that is not frozen has its effect. -/
theorem runEvent_runs {s : State} (h : s.pkg.frz = 0) (f : State → State) : runEvent f s = .next (f s) := by simp [runEvent, h]

/-- Nothing of an event happens while the module is frozen (R420). -/
theorem runEvent_frozen {s : State} (h : s.pkg.frz ≠ 0) (f : State → State) : runEvent f s = .next s := by
  unfold runEvent
  rw [if_neg h]

/-- A management event has its effect, frozen or not (R420). -/
@[simp] theorem runService_runs (s : State) (f : State → State) : runService f s = .next (f s) := rfl

/-- A primitive acts on the running header (R273). -/
theorem primWord_runs {s : State} {p : Packet} (h : s.pkg.frz = 0) (hp : s.header? = some p) (act : Packet → State → State) :
    primWord act s = .next (act p s) := by simp [primWord, runEvent, h, hp]

/-- Without a running header a primitive changes nothing. -/
theorem primWord_none {s : State} (hp : s.header? = none) (act : Packet → State → State) : primWord act s = .next s := by
  simp [primWord, runEvent, hp]

end Sys2Proof.Machine
end

