-- ==== Sys2Proof/Tests/Slice0.lean ====
section
/-! SUPPORT. Tests of the model's own author: ill-formed terms, words written out from the encoding tables, small steps whose results
come from the spec's rules and examples, and for every statement with hypotheses a state and operands that meet them. -/
namespace Sys2Proof.Tests
open Sys2Proof Sys2Proof.Machine
set_option Elab.async false

/-! ### Small states -/

/-- A task as it starts, all of its registers at the values of R37 for an empty launch. -/
def task : Context := Context.start wordStart

/-- A task with a scalar register set. -/
def setS (x : Context) (n : Fin 32) (v : Word) : Context := { x with s := x.s.set n ⟨v, 0⟩ }

/-- A core with a task in bank A. -/
def coreOn (x : Context) : Core := { Core.reset with ctxA := some x }

/-- The module with a core in the place of core 0, about to look at one word. -/
def onCore (k : Core) : State := { State.reset with cores := State.reset.cores.set 0 k, issue := ⟨0, 4, 4, .whole, .none⟩ }

/-- The module with a task in bank A of core 0. -/
def withTask (x : Context) : State := onCore (coreOn x)

theorem onCore_core (k : Core) : (onCore k).core = k := by simp [onCore, State.core, State.reset]

/-- A word of a task on core 0 issues when its guard lets it run and checking mode is off. -/
theorem onCore_issues {k : Core} {x : Context} {u : Use} (h : k.ctx? k.bank = some x) (hc : x.chkmode = false)
    (hu : u.on x = true) : Issues (onCore k) x u := by
  refine ⟨?_, rfl, hu, ?_⟩
  · simpa [State.ctx?, onCore_core] using h
  · simp [scheduleCheck, hc]

/-- p0 is all ones: guard 0 lets every word run. -/
theorem guardOn_zero (x : Context) : x.guardOn 0 = true := by
  have h : x.pPhys 0 = 0 := by simp [Context.pPhys]
  show (x.pRead (x.pPhys 0)).getLsbD 0 = true
  rw [h]
  show allLanes.getLsbD 0 = true
  decide +kernel

theorem issues_scalar (x : Context) (hc : x.chkmode = false) (reads : List Name) (dests : List (Name × Nat)) :
    Issues (withTask x) x ⟨.scalar 0, reads, dests⟩ := onCore_issues rfl hc (guardOn_zero x)
theorem issues_always (x : Context) (hc : x.chkmode = false) (reads : List Name) (dests : List (Name × Nat)) :
    Issues (withTask x) x ⟨.always, reads, dests⟩ := onCore_issues rfl hc rfl
theorem issues_lanes (x : Context) (hc : x.chkmode = false) (g : BitVec 4) (reads : List Name) (dests : List (Name × Nat)) :
    Issues (withTask x) x ⟨.lanes g, reads, dests⟩ := onCore_issues rfl hc rfl

/-! ### Witnesses: scalar words -/

theorem witness_IntegerRegisterWords :
    let x := setS (setS task 1 7) 2 3
    (∀ lat, Issues (withTask x) x ⟨.scalar 0, [.s 1, .s 2], [(.s 3, lat)]⟩) ∧ x.sdata 2 ≠ 0 :=
  ⟨fun _ => issues_scalar _ rfl _ _, by decide +kernel⟩

/-- The boundary operands of R116: no field, a field beyond the word, the whole word, and every count of leading zeros. -/
theorem witness_IntegerRegisterWords_fields :
    let x := setS (setS task 1 (BitVec.ofNat 64 (2 ^ 63))) 2 0x4000
    Issues (withTask x) x ⟨.scalar 0, [.s 1], [(.s 3, 1)]⟩ ∧ Issues (withTask x) x ⟨.scalar 0, [.s 1, .s 2], [(.s 3, 1)]⟩ ∧
      Issues (withTask x) x ⟨.always, [.s 1], [(.s 3, 1)]⟩ ∧ Issues (withTask x) x ⟨.scalar 0, [.s 3, .s 1, .s 2], [(.s 3, 1)]⟩ ∧
      Issues (withTask x) x ⟨.always, [.s 3, .s 1], [(.s 3, 1)]⟩ ∧
      ((∀ i, 64 - 0 ≤ i → (x.sdata 1).getLsbD i = false) ∧ (x.sdata 1).getLsbD (63 - 0) = true) ∧
      (∀ i : Nat, 64 - 64 ≤ i → (x.sdata 4).getLsbD i = false) ∧
      ((x.sdata 2).toNat % 2 ^ 8 = 0 ∧ (x.sdata 2).toNat / 2 ^ 8 % 2 ^ 8 = 64) := by
  intro x
  have h1 : x.sdata 1 = BitVec.ofNat 64 (2 ^ 63) := by decide +kernel
  have h4 : x.sdata 4 = 0 := by decide +kernel
  exact ⟨issues_scalar _ rfl _ _, issues_scalar _ rfl _ _, issues_always _ rfl _ _, issues_scalar _ rfl _ _, issues_always _ rfl _ _,
    ⟨fun i hi => BitVec.getLsbD_of_ge _ _ hi, by rw [h1]; decide⟩, fun i _ => by rw [h4]; simp, by decide +kernel⟩

/-- The corners of R113, one after another. -/
theorem witness_DivisionCorners :
    let a := setS task 1 7
    let b := setS (setS task 1 (BitVec.ofInt 64 (-2 ^ 63))) 2 (BitVec.ofInt 64 (-1))
    let c := setS (setS task 1 (BitVec.ofInt 64 (-7))) 2 2
    let d := setS (setS task 1 7) 2 (BitVec.ofInt 64 (-2))
    (∀ x ∈ [a, b, c, d], Issues (withTask x) x ⟨.scalar 0, [.s 1, .s 2], [(.s 3, 16)]⟩) ∧ a.sdata 2 = 0 ∧
      ((b.sdata 1).toInt = -2 ^ 63 ∧ (b.sdata 2).toInt = -1) ∧ ((c.sdata 1).toInt = -7 ∧ (c.sdata 2).toInt = 2) ∧
      ((d.sdata 1).toInt = 7 ∧ (d.sdata 2).toInt = -2) := by
  intro a b c d
  refine ⟨?_, by decide +kernel⟩
  intro x hx
  exact issues_scalar _ (by revert x; decide +kernel) _ _

theorem witness_ImmediateWords :
    Issues (withTask task) task ⟨.always, [.s 1], [(.s 3, 1)]⟩ ∧ Issues (withTask task) task ⟨.always, [], [(.s 3, 1)]⟩ :=
  ⟨issues_always _ rfl _ _, issues_always _ rfl _ _⟩

/-- Legal rounding modes up to 101 and the two that trap. -/
theorem witness_ScalarFloatWords :
    let y : Context := { task with rmode := 5 }
    let z : Context := { task with rmode := 6 }
    (∀ x ∈ [task, y, z], ∀ lat, Issues (withTask x) x ⟨.scalar 0, [.s 1, .s 2], [(.s 3, lat)]⟩ ∧
      Issues (withTask x) x ⟨.scalar 0, [.s 3, .s 1, .s 2], [(.s 3, lat)]⟩ ∧ Issues (withTask x) x ⟨.scalar 0, [.s 1], [(.s 3, lat)]⟩ ∧
      Issues (withTask x) x ⟨.scalar 0, [.s 3, .s 1], [(.s 3, lat)]⟩) ∧
      (11 < 12 ∧ 5 ≤ y.rmode.toNat ∧ y.rmode.toNat < 6) ∧ 12 ≤ (12 : Nat) ∧ 6 ≤ z.rmode.toNat := by
  intro y z
  refine ⟨fun x hx lat => ?_, by decide⟩
  have hc : x.chkmode = false := by revert x; decide +kernel
  exact ⟨issues_scalar _ hc _ _, issues_scalar _ hc _ _, issues_scalar _ hc _ _, issues_scalar _ hc _ _⟩

theorem witness_StagingAndControlWords :
    (∀ bank, Issues (withTask task) task ⟨.scalar 0, [.s 1], [(.stage bank 7, 1)]⟩) ∧
      Issues (withTask task) task ⟨.always, [], [(.s 3, 1)]⟩ ∧ Issues (withTask task) task ⟨.always, [.s 1], []⟩ :=
  ⟨fun _ => issues_scalar _ rfl _ _, issues_always _ rfl _ _, issues_always _ rfl _ _⟩

/-- A task with tile 0 its own, and an address at the top of the granary, one beyond it, and one that is not aligned. -/
theorem witness_ScalarGranaryWords :
    let x := setS (setS (setS task 1 0x17FFF8) 2 0x180000) 3 0x17FFF9
    Issues (withTask x) x ⟨.always, [.s 1], [(.s 4, 4)]⟩ ∧ Issues (withTask x) x ⟨.always, [.s 1, .s 4], []⟩ ∧
      (x.sdata 1).toNat + 8 = 0x180000 ∧ (x.sdata 2).toNat = 0x180000 ∧ (x.sdata 3).toNat % 8 = 1 ∧ x.rmode.toNat < 6 ∧
      Issues (withTask { task with rmode := 6 }) { task with rmode := 6 } ⟨.always, [.s 1, .s 4], []⟩ := by
  exact ⟨issues_always _ rfl _ _, issues_always _ rfl _ _, by decide +kernel, by decide +kernel, by decide +kernel, by decide +kernel,
    issues_always _ rfl _ _⟩

/-- The targets of R128: the highest code address, one beyond it, and one that is no word address. -/
theorem witness_BranchWords :
    let x := setS (setS (setS task 1 (word (2 ^ 52 - 4))) 2 (word (2 ^ 52))) 3 2
    Issues (withTask x) x ⟨.scalar 0, [], []⟩ ∧ Issues (withTask x) x ⟨.scalar 0, [], [(.s 1, 1)]⟩ ∧
      (∀ r, Issues (withTask x) x ⟨.scalar 0, [.s r], []⟩ ∧ Issues (withTask x) x ⟨.scalar 0, [.s r], [(.s 1, 1)]⟩ ∧
        Issues (withTask x) x ⟨.scalar 0, [.s r], [(.s r, 1)]⟩) ∧
      ((x.sdata 1).toNat % 4 = 0 ∧ (x.sdata 1).toNat < 2 ^ 52) ∧ ¬ (x.sdata 2).toNat < 2 ^ 52 ∧ (x.sdata 3).toNat % 4 ≠ 0 :=
  ⟨issues_scalar _ rfl _ _, issues_scalar _ rfl _ _,
    fun _ => ⟨issues_scalar _ rfl _ _, issues_scalar _ rfl _ _, issues_scalar _ rfl _ _⟩, by decide +kernel, by decide +kernel, by decide +kernel⟩

/-- A token at its threshold, one below it, and one with an error. -/
theorem witness_TokenWords :
    let x : Context := { task with k := (task.k.set 1 ⟨5, false, 0⟩).set 2 ⟨5, true, 3⟩ }
    Issues (withTask x) x ⟨.scalar 0, [], []⟩ ∧ Issues (withTask x) x ⟨.scalar 0, [.s 1], []⟩ ∧
      ((x.k[1].count.toNat + 2 ^ 16 - 5) % 2 ^ 16 < 2 ^ 15 ∧ x.k[1].err = false) ∧
      ¬ ((x.k[1].count.toNat + 2 ^ 16 - 6) % 2 ^ 16 < 2 ^ 15) ∧ x.k[2].err = true :=
  ⟨issues_scalar _ rfl _ _, issues_scalar _ rfl _ _, by decide +kernel⟩

/-- Each kind of deferred write, and a rotation with an explicit write of VBASE. -/
theorem witness_DeferredWritesTakeEffect :
    let on (ds : List Deferred) : Core := coreOn { task with deferred := ds }
    ∀ ds ∈ [[], [.creg 0x000 5], [.creg 0x003 7, .rotate], [.rotate, .creg 0x004 6], [.tokenSet 1 9], [.tileGive 63 1], [.creg 0x000 5, .creg 0x001 3],
        [.creg 0x001 5, .creg 0x001 3]],
      (on ds).ctx? (on ds).bank = some { task with deferred := ds } := by
  intro on ds _
  rfl

/-- With a handler active at a code address, and with none. -/
theorem witness_TrapReturnEndAndFence :
    let y : Context := { task with hact := true, tepc := 0x1000 }
    Issues (withTask task) task ⟨.scalar 0, [], []⟩ ∧ Issues (withTask y) y ⟨.scalar 0, [], []⟩ ∧
      (y.hact = true ∧ y.tepc.toNat % 4 = 0 ∧ y.tepc.toNat < 2 ^ 52) ∧ task.hact = false ∧ (y.wain = [] ∧ y.fabric = []) :=
  ⟨issues_scalar _ rfl _ _, issues_scalar _ rfl _ _, by decide +kernel, rfl, rfl, rfl⟩

/-! ### Witnesses: signals, launches, barriers, locks, tiles -/

/-- A word that issues in a state issues in any other with the same cores. -/
theorem issues_of {s t : State} {x : Context} {u : Use} (h : Issues s x u) (hc : t.cores = s.cores) (hr : t.cur = s.cur)
    (hi : t.issue = s.issue) : Issues t x u := by
  simp only [Issues, State.ctx?, State.core, hc, hr, hi] at h ⊢
  exact h

/-- A task whose extent at 0x10000 is the first 64 KiB of memory, with every permit. -/
def reaching : Context := { setS task 1 0x10000 with extents := [⟨0x10000, 65536, 0x3C, 7⟩] }

/-- Tables of partition 0 whose page 0 has a leaf, at 0x4000. -/
def tabled (leaf : Word) (s : State) : State :=
  { s with dies := s.dies.map fun d => { d with troot := d.troot.set 0 0x1001 },
           mem := writeBytes [(0x1000, 1), (0x1001, 0x20), (0x2000, 1), (0x2001, 0x30), (0x3000, 1), (0x3001, 0x40)] 0x4000 (leBytes 8 leaf.toNat) }

/-- A leaf to frame 1 with every permit, and one that leads through aperture 1. -/
def nearLeaf : Word := 0x1003F
def farLeaf : Word := 0x000400000000003F

/-- A Wain command that has yet to start. -/
def copyCmd : WCmd := mkWCmd .copy 0 0 [] [] Core.reset task

theorem witness_SignalWords_dec :
    let s := withTask reaching
    let busy : Context := { reaching with wain := [copyCmd] }
    let odd := setS task 1 4
    let far := tabled farLeaf (withTask (setS task 1 8))
    (Issues s reaching ⟨.scalar 0, [.s 1, .s 2], []⟩ ∧ (reaching.sdata 1).toNat % 8 = 0 ∧
      s.translate (coreDie s.cur) reaching.partId reaching.extents (reaching.sdata 1).toNat 8 .atomic = .phys 0 0x3C ∧
      (reaching.wain = [] ∧ reaching.fabric = []) ∧ s.severed (coreDie s.cur) 0 8 = false ∧ physKind 0 = .hbm 0 ∧ s.memoryWf = true ∧ s.barnWf = true ∧ (∀ k < 8, hasMemory (0 + k) = true) ∧ s.memBad 0 8 = false) ∧
      (Issues (withTask busy) busy ⟨.scalar 0, [.s 1, .s 2], []⟩ ∧ ¬ (busy.wain = [] ∧ busy.fabric = []) ∧
        (withTask busy).translate 0 0 busy.extents (busy.sdata 1).toNat 8 .atomic = .phys 0 0x3C) ∧
      (Issues (withTask odd) odd ⟨.scalar 0, [.s 1, .s 2], []⟩ ∧ (odd.sdata 1).toNat % 8 ≠ 0) ∧
      (Issues far (setS task 1 8) ⟨.scalar 0, [.s 1, .s 2], []⟩ ∧ far.translate 0 0 [] 8 8 .atomic = .aper farLeaf 3) := by
  refine ⟨⟨issues_scalar _ rfl _ _, by decide +kernel⟩, ⟨issues_scalar _ rfl _ _, by decide +kernel⟩,
    ⟨issues_scalar _ rfl _ _, by decide +kernel⟩, issues_of (issues_scalar _ rfl _ _) rfl rfl rfl, by decide +kernel⟩

/-- A page that no table maps, one whose extent leads to no memory, a gate window, and host memory while no link is up. -/
theorem witness_SignalWords_traps :
    let at8 := setS task 1 8
    let void : Context := { reaching with extents := [⟨0x10000, 65536, word (2 ^ 41 + 0x3C), 7⟩] }
    let host : Context := { reaching with extents := [⟨0x10000, 65536, word (2 ^ 49 + 0x3C), 7⟩] }
    let gate : Context := { reaching with extents := [⟨0x10000, 65536, word (0x10000800000 + 0x3C), 7⟩] }
    let cut : State := { withTask host with pkg := { State.reset.pkg with links := #v[false, false] } }
    (∀ acc ∈ [Access.read, .atomic], (withTask at8).translate 0 0 [] 8 8 acc = .fault 4 ∧
      (withTask void).translate 0 0 void.extents (void.sdata 1).toNat 8 acc = .fail ∧
      cut.translate 0 0 host.extents (host.sdata 1).toNat 8 acc = .phys (2 ^ 49) (word (2 ^ 49 + 0x3C))) ∧ cut.severed 0 (2 ^ 49) 8 = true ∧
      (∀ acc ∈ [Access.read, .atomic], (withTask gate).translate 0 0 gate.extents (gate.sdata 1).toNat 8 acc =
        .phys 0x10000800000 (word (0x10000800000 + 0x3C))) ∧ physKind 0x10000800000 = .gate 0 := by
  decide +kernel

/-- A signal at its threshold, and one above it, for a task alone and for a member of a gang. -/
theorem witness_SignalWords_wait :
    let low := setS reaching 2 (-1)
    let member : Context := { low with barrier := some 0 }
    (∀ x ∈ [reaching, low, member], Issues (withTask x) x ⟨.scalar 0, [.s 1, .s 2], []⟩ ∧ (x.sdata 1).toNat % 8 = 0 ∧
      (withTask x).memBad 0 8 = false ∧ (withTask x).severed 0 0 8 = false ∧
      (withTask x).translate (coreDie (withTask x).cur) x.partId x.extents (x.sdata 1).toNat 8 .read = .phys 0 0x3C) ∧
      ((withTask reaching).signalRead 0).toInt ≤ (reaching.sdata 2).toInt ∧
      ¬ ((withTask low).signalRead 0).toInt ≤ (low.sdata 2).toInt ∧ physKind 0 = .hbm 0 ∧ low.barrier = none ∧ member.barrier ≠ none := by
  intro low member
  refine ⟨fun x hx => ⟨issues_scalar _ (by revert x; decide +kernel) _ _, by revert x; decide +kernel⟩, by decide +kernel⟩

/-- A device queue of partition 0 with a given fill. -/
def deviceQueue (fill : Nat) (s : State) : State :=
  s.updQueue 0 0 fun q => { q with kind := true, en := true, part := 0, size := 12, qtail := fill }

theorem witness_LaunchAndBarrierWords_launch :
    let busy : Context := { task with wain := [copyCmd] }
    let bad := setS task 1 1
    (Issues (withTask task) task ⟨.scalar 0, [.s 1], []⟩ ∧ ((withTask task).queue 0 (launchQueue (task.sdata 1))).kind = false) ∧
      (Issues (deviceQueue 0 (withTask bad)) bad ⟨.scalar 0, [.s 1], []⟩ ∧ (bad.sdata 1).toNat % 64 ≠ 0) ∧
      (Issues (deviceQueue 65536 (withTask task)) task ⟨.scalar 0, [.s 1], []⟩ ∧
        2 ^ (((deviceQueue 65536 (withTask task)).queue 0 0).size.toNat + 4) ≤ ((deviceQueue 65536 (withTask task)).queue 0 0).qtail) ∧
      (Issues (deviceQueue 65535 (withTask busy)) busy ⟨.scalar 0, [.s 1], []⟩ ∧ ¬ (busy.wain = [] ∧ busy.fabric = [])) ∧
      (Issues (deviceQueue 65535 (withTask task)) task ⟨.scalar 0, [.s 1], []⟩ ∧ launchQueue (task.sdata 1) = 0 ∧
        let q := (deviceQueue 65535 (withTask task)).queue 0 0
        q.kind = true ∧ q.en = true ∧ q.part = task.partId ∧ q.size.toNat ≤ 12 ∧ q.qtail - q.qhead < 2 ^ (q.size.toNat + 4) ∧
        (task.sdata 1).toNat % 64 = 0 ∧ (task.sdata 1).toNat / 2 ^ 58 = 0) := by
  refine ⟨⟨issues_scalar _ rfl _ _, by decide +kernel⟩, ⟨issues_of (issues_scalar _ rfl _ _) rfl rfl rfl, by decide +kernel⟩,
    ⟨issues_of (issues_scalar _ rfl _ _) rfl rfl rfl, by decide +kernel⟩, ⟨issues_of (issues_scalar _ rfl _ _) rfl rfl rfl, by decide +kernel⟩,
    issues_of (issues_scalar _ rfl _ _) rfl rfl rfl, by decide +kernel⟩

/-- A barrier of the core's cluster in its second generation. -/
def barred (s : State) : State := s.updCluster 0 fun k => { k with barriers := k.barriers.set 0 (some ⟨1, 0, [0, 1], 1, []⟩) }

/-- No gang; a member whose generation is complete, one whose generation is not, and one that has not arrived. -/
theorem witness_LaunchAndBarrierWords_bar :
    let busy : Context := { task with wain := [copyCmd] }
    let old : Context := { task with barrier := some 0, arrived := some 0 }
    let now : Context := { task with barrier := some 0, arrived := some 1 }
    let new : Context := { task with barrier := some 0 }
    (∀ x ∈ [busy, task, old, now, new], Issues (barred (withTask x)) x ⟨.scalar 0, [], []⟩) ∧ busy.wain ≠ [] ∧
      (barred (withTask task)).barrier? 0 task = none ∧
      (∀ x ∈ [old, now, new], x.wain = [] ∧ (barred (withTask x)).barrier? (barred (withTask x)).cur x = some ⟨1, 0, [0, 1], 1, []⟩) ∧
      old.arrived = some 0 ∧ now.arrived = some 1 ∧ (new.barrier = some 0 ∧ new.arrived = none) := by
  intro busy old now new
  refine ⟨fun x hx => issues_of (issues_scalar x (by revert x; decide +kernel) _ _) rfl rfl rfl, by decide +kernel⟩

/-- An instruction store of 33 rows of which all but the first are locked, by bank B. -/
def lockedStore : List IRow := (List.range 33).map fun n => ⟨2048 * n, 0, 0, false, n != 0, 0, []⟩

/-- A free row with 32 rows locked, with fewer, and a row that the bank itself has locked. -/
theorem witness_LocksAndTiles_locks :
    let k1 : Core := { coreOn task with istore := lockedStore }
    let k2 : Core := { coreOn task with istore := lockedStore.take 32 }
    let k3 : Core := { coreOn task with istore := [⟨0, 0, 0, true, false, 0, []⟩] }
    (∀ k ∈ [k1, k2, k3], k.ctx? k.bank = some task) ∧
      (∀ k : Core, k.ctx? k.bank = some task → Issues (onCore k) task ⟨.scalar 0, [.s 1], [(.s 3, 1)]⟩ ∧ Issues (onCore k) task ⟨.scalar 0, [.s 1], []⟩) ∧
      (k1.row 0 0 = some ⟨0, 0, 0, false, false, 0, []⟩ ∧ (k1.istore.filter fun q => q.lockA || q.lockB).length = 32) ∧
      (k2.row 0 0 = some ⟨0, 0, 0, false, false, 0, []⟩ ∧ (k2.istore.filter fun q => q.lockA || q.lockB).length = 31) ∧
      (∃ r, k3.row 0 0 = some r ∧ r.lockedBy k3.bank = true) ∧ (task.sdata 1).toNat = 0 := by
  refine ⟨by decide +kernel, fun k hk => ⟨onCore_issues hk rfl (guardOn_zero _), onCore_issues hk rfl (guardOn_zero _)⟩, by decide +kernel,
    by decide +kernel, ⟨_, rfl, rfl⟩, by decide +kernel⟩

/-- A row that is not in the store: its page is there, in error, out of reach, and not mapped. -/
theorem witness_LocksAndTiles_fetch :
    let x : Context := { task with extents := [⟨0, 65536, 0x3C, 7⟩] }
    let s := withTask x
    let host : Context := { task with extents := [⟨0, 65536, word (2 ^ 49 + 0x3C), 7⟩] }
    let cut : State := { withTask host with pkg := { s.pkg with links := #v[false, false] } }
    let bad : State := { s with pkg := { s.pkg with badLines := [3] } }
    (∀ r, Issues s x ⟨.scalar 0, [.s r], [(.s 3, 1)]⟩) ∧ s.core.row x.partId (x.sdata 1).toNat = none ∧ s.core.istore.length < 128 ∧
      s.translate 0 x.partId x.extents 0 2048 .fetch = .phys 0 0x3C ∧ s.memBad 0 2048 = false ∧ s.severed 0 0 2048 = false ∧ bad.memBad 0 2048 = true ∧
      (withTask task).translate 0 0 [] 0 2048 .fetch = .fault 4 ∧
      cut.translate 0 host.partId host.extents 0 2048 .fetch = .phys (2 ^ 49) (word (2 ^ 49 + 0x3C)) ∧ cut.severed 0 (2 ^ 49) 2048 = true :=
  ⟨fun _ => issues_scalar _ rfl _ _, by decide +kernel⟩

/-- Tiles 0 of the bank, 1 of the Wain, 2 of the engine that the bank holds, and 63 of no one. -/
theorem witness_LocksAndTiles_tiles :
    let k : Core := { coreOn task with
      tiles := (((coreOn task).tiles.set 0 ⟨1, false, 0, 0⟩).set 1 ⟨4, false, 0, 0⟩).set 2 ⟨3, false, 0, 0⟩,
      matrix := { (coreOn task).matrix with holder := some false } }
    Issues (onCore k) task ⟨.scalar 0, [], []⟩ ∧ (k.tiles[0]).owner = 1 ∧ ((k.tiles[1]).owner = 4 ∧ (k.tiles[1]).giver = k.bank) ∧
      ((k.tiles[2]).owner = 3 ∧ k.matrix.holder = some k.bank) ∧ (k.tiles[63]).owner = 0 ∧ task.wain = [] ∧ k.matrix.queue = [] := by
  intro k
  exact ⟨onCore_issues rfl rfl (guardOn_zero _), by decide +kernel⟩

/-! ### Witnesses: vector words -/

/-- One element of each width, with its guard lane on and off. -/
theorem witness_ElementsLandInTheirPlaces :
    (4 ∈ [4, 8, 16, 32] ∧ 32 ∈ [4, 8, 16, 32]) ∧ 1023 < 4096 / 4 ∧ 127 < 4096 / 32 ∧
      (1#512 : PData).getLsbD (1 * 4 / 8) = true ∧ (1#512 : PData).getLsbD (127 * 32 / 8) = false := by decide +kernel

/-- A place with tail pairs of its own; values at the bounds of the numeric clauses: one, a tie of e5m2, the largest magnitude, and f32
elements that carry one and zero. -/
theorem witness_ElementsLandInTheirPlaces_values :
    (0 < 1 ∧ 1 < 32 / 4) ∧ ((0 : Nat) < 1 ∧ (2 : ℝ) ^ (0 : Int) ≤ 1 ∧ (1 : ℝ) < (2 : ℝ) ^ ((0 : Int) + 1) ∧
      ((4096 : Nat) : ℝ) * (2 : ℝ) ^ (max (0 : Int) (-14) - 11 - 1) ≤ 1 ∧ (1 : ℝ) < ((4096 : Nat) + 1) * (2 : ℝ) ^ (max (0 : Int) (-14) - 11 - 1)) ∧
      (let x : ℝ := 9 * (2 : ℝ) ^ (-3 : Int)
       let q : ℝ := (2 : ℝ) ^ (max (0 : Int) (-14) - 3 + 1)
       (2 : ℝ) ^ (0 : Int) ≤ |x| ∧ |x| < (2 : ℝ) ^ ((0 : Int) + 1) ∧ 0 ≤ x - (4 : Int) * q ∧ x - (4 : Int) * q < q ∧ (x - (4 : Int) * q) * 2 = q) ∧
      ((57344 : ℝ) < 61440 ∧ (2 : ℝ) ^ (15 : Int) ≤ 61440 ∧ (61440 : ℝ) < (2 : ℝ) ^ ((15 : Int) + 1)) ∧
      (∃ m e, 0 < m ∧ carried .f32 ⟨0x3F800000, 0⟩ = .fin false m e) ∧ (∃ e, carried .f32 ⟨0, 0⟩ = .fin false 0 e) := by
  refine ⟨by decide, ⟨by decide, by norm_num, by norm_num, by norm_num, by norm_num⟩, ⟨?_, ?_, by norm_num, by norm_num, by norm_num⟩,
    by norm_num, ⟨_, _, by decide +kernel, rfl⟩, ⟨_, rfl⟩⟩
  · rw [abs_of_nonneg (by positivity)]; norm_num
  · rw [abs_of_nonneg (by positivity)]; norm_num

/-- A row under RNE-EF with an element that is left out; headers and codes of a block; blocks of 32 with a NaN, of zeros, of ones, and one
whose outlier stands above the scale; latches and products of each kind. -/
theorem witness_ElementsLandInTheirPlaces_blocks :
    let one : FVal := carried .f32 ⟨0x3F800000, 0⟩
    let ten : FVal := carried .f32 ⟨0x41200000, 0⟩
    let zero32 : FVal := carried .f32 ⟨0, 0⟩
    let nan32 : FVal := carried .f32 ⟨0x7FC00000, 0⟩
    let latch (scale : BitVec 24) (nanb : Bool) : Latch := ⟨scale, 0, 0, nanb⟩
    let o : Operands := ⟨0x3838, 0x3838, 3, 3, 0, 0⟩
    let bad : Operands := { o with a := 0x7F }
    (([none, some one] : List (Option FVal))[0]? = some none ∧ ([none, some one] : List (Option FVal))[1]? = some (some one) ∧ RMode.rna ≠ .rneEf) ∧
      ((0xFF000000 : Header).toNat / 2 ^ 24 = 255 ∧ (0 : Header).toNat / 2 ^ 24 = 0 ∧ (0x7F000038 : Header).toNat / 2 ^ 24 = 127 ∧
        (0x7F000080 : Header).toNat % 2 ^ 7 = 0 ∧ (valueOf .e2m1 7).isNan = false ∧ (valueOf .e4m3 0x38).isInf = false) ∧
      (∀ v ∈ [one, ten, zero32, nan32], (List.replicate 32 v).length = 32) ∧ nan32.isNan = true ∧
      (quantHead (List.replicate 32 nan32)).nanb = true ∧ ((quantHead (List.replicate 32 zero32)).nanb = false ∧ (quantHead (List.replicate 32 zero32)).sexp = 0) ∧
      ((quantHead (List.replicate 32 one)).nanb = false ∧ (quantHead (List.replicate 32 one)).sexp ≠ 0 ∧ (quantHead (List.replicate 32 one)).xv = 0) ∧
      ((quantHead (ten :: List.replicate 31 one)).oidx = 0 ∧ (quantHead (ten :: List.replicate 31 one)).xv ≠ 0) ∧
      ((latch 0 true).nanb = true ∧ (latch 0 false).scale.toNat / 2 ^ 16 = 0 ∧ (latch 0x7F0000 false).scale.toNat / 2 ^ 16 ≠ 0) ∧
      (valueOf (matrixFloat o.afmt) (o.a.toNat / 2 ^ (8 * 0) % 2 ^ 8)).isNan = false ∧
      valueOf (matrixFloat bad.afmt) (bad.a.toNat / 2 ^ (8 * 0) % 2 ^ 8) = .nan ∧ (0 ∈ (List.range (1536 / 8)).filter fun k => k == 0) ∧
      (carried .f32 ⟨0x3F800000, 0⟩).isNan = false := by
  decide +kernel

/-- Every vector word of a task in bank A issues, whatever its guard. -/
theorem witness_VectorArithmeticWords (g : BitVec 4) (vd va vb : BitVec 5) :
    (∀ lat, Issues (withTask task) task ⟨.lanes g, [.v va, .v vb], [(.v vd, lat)]⟩ ∧ Issues (withTask task) task ⟨.lanes g, [.v va], [(.v vd, lat)]⟩ ∧
      Issues (withTask task) task ⟨.lanes g, [.v vd, .v va, .v vb], [(.v vd, lat)]⟩) :=
  fun _ => ⟨issues_lanes _ rfl _ _ _, issues_lanes _ rfl _ _ _, issues_lanes _ rfl _ _ _⟩

theorem witness_PredicateAndReductionWords :
    Issues (withTask task) task ⟨.lanes 2, [.v 4, .v 6], [(.p 15, 2)]⟩ ∧ (2#3 : BitVec 3).toNat < 3 ∧
      Issues (withTask task) task ⟨.lanes 2, [.p 0, .p 15], [(.p 15, 2)]⟩ ∧
      Issues (withTask task) task ⟨.lanes 2, [.v 4], [(.v 31, 8)]⟩ ∧ Issues (withTask task) task ⟨.lanes 2, [.v 4], [(.v 31, 4)]⟩ :=
  ⟨issues_lanes _ rfl _ _ _, by decide, issues_lanes _ rfl _ _ _, issues_lanes _ rfl _ _ _, issues_lanes _ rfl _ _ _⟩

/-- The smallest and the largest element; a place whose guard lane is on, and one whose lane is off. -/
theorem witness_VectorMoveWords :
    let x := setS task 1 511
    ((0#3 : BitVec 3).toNat < 4 ∧ (3#3 : BitVec 3).toNat < 4) ∧
      (∀ lat, Issues (withTask x) x ⟨.lanes 0, [.v 4, .v 6], [(.v 8, lat)]⟩ ∧ Issues (withTask x) x ⟨.lanes 0, [.v 4], [(.v 8, lat)]⟩ ∧
        Issues (withTask x) x ⟨.lanes 0, [.v 4, .s 1], [(.v 8, lat)]⟩ ∧ Issues (withTask x) x ⟨.lanes 0, [.s 1], [(.v 8, lat)]⟩ ∧
        Issues (withTask x) x ⟨.lanes 1, [.v 4, .s 1], [(.s 8, lat)]⟩ ∧ Issues (withTask x) x ⟨.lanes 1, [.s 2, .s 1], [(.v 8, lat)]⟩) ∧
      (x.guard 0).getLsbD ((x.sdata 1).toNat % 512 * 8 / 8) = true ∧ (x.guard 1).getLsbD ((x.sdata 1).toNat % 512 * 8 / 8) = false :=
  ⟨by decide, fun _ => ⟨issues_lanes _ rfl _ _ _, issues_lanes _ rfl _ _ _, issues_lanes _ rfl _ _ _, issues_lanes _ rfl _ _ _,
    issues_lanes _ rfl _ _ _, issues_lanes _ rfl _ _ _⟩, by decide +kernel⟩

/-- A destination pair of its own, and one that is a source's. -/
theorem witness_WideningWords :
    (∀ lat, Issues (withTask task) task ⟨.lanes 0, [.v 0, .v 2], [(.v 4, lat), (.v (4 + 1), lat)]⟩ ∧
      Issues (withTask task) task ⟨.lanes 0, [.v 4, .v (4 + 1), .v 0, .v 2], [(.v 4, lat), (.v (4 + 1), lat)]⟩ ∧
      Issues (withTask task) task ⟨.lanes 0, [.v 5, .v 2], [(.v 4, lat), (.v (4 + 1), lat)]⟩) ∧
      ((4#5 : BitVec 5).toNat / 2 ≠ (0#5 : BitVec 5).toNat / 2 ∧ (4#5 : BitVec 5).toNat / 2 ≠ (2#5 : BitVec 5).toNat / 2) ∧
      (4#5 : BitVec 5).toNat / 2 = (5#5 : BitVec 5).toNat / 2 :=
  ⟨fun _ => ⟨issues_lanes _ rfl _ _ _, issues_lanes _ rfl _ _ _, issues_lanes _ rfl _ _ _⟩, by decide⟩

/-- A widening by 4 (e4m3 to f32), equal widths (f32), a narrowing by 2 (f32 to f16), an integer destination in a legal mode and in
one that traps; `qmax` and `qcvt`. -/
theorem witness_ConversionAndQuantiseWords :
    let y : Context := { task with rmode := 6 }
    (∀ (x : Context), x.chkmode = false → ∀ reads dests, Issues (withTask x) x ⟨.lanes 0, reads, dests⟩) ∧
      (floatFmt 0).width = 4 * unifiedWidth 3 ∧ (floatFmt 0).width = 1 * unifiedWidth 0 ∧
      ((floatFmt 1).width < unifiedWidth 0 ∧ unifiedWidth 0 = 2 * (floatFmt 1).width) ∧
      (intWidth 3 = 1 * unifiedWidth 0 ∧ intWidth 1 < unifiedWidth 0 ∧ unifiedWidth 0 = 4 * intWidth 1) ∧
      task.rmode.toNat < 6 ∧ 6 ≤ y.rmode.toNat ∧ y.chkmode = false ∧ (task.guard 0).getLsbD (128 * 3) = true :=
  ⟨fun _ h _ _ => issues_lanes _ h _ _ _, by decide +kernel⟩

theorem witness_SpecialFunctionWords :
    let y : Context := { task with rmode := 6 }
    (∀ lat, Issues (withTask task) task ⟨.lanes 0, [.v 4], [(.v 8, lat)]⟩ ∧ Issues (withTask task) task ⟨.lanes 0, [.v 4, .v 6], [(.v 8, lat)]⟩ ∧
      Issues (withTask y) y ⟨.lanes 0, [.v 4], [(.v 8, lat)]⟩) ∧ ¬ 6 ≤ task.rmode.toNat ∧ 6 ≤ y.rmode.toNat :=
  ⟨fun _ => ⟨issues_lanes _ rfl _ _ _, issues_lanes _ rfl _ _ _, issues_lanes _ rfl _ _ _⟩, by decide⟩

/-- Each row of the table of R158, in f32: a NaN, both infinities, both zeros, and −1. -/
theorem witness_SpecialOperands :
    carried .f32 ⟨0x7FC00000, 0⟩ = .nan ∧ carried .f32 ⟨0x7F800000, 0⟩ = .inf false ∧ carried .f32 ⟨0xFF800000, 0⟩ = .inf true ∧
      (∃ exp, carried .f32 ⟨0, 0⟩ = .fin false 0 exp) ∧ (∃ exp, carried .f32 ⟨0x80000000, 0⟩ = .fin true 0 exp) ∧
      ∃ mag exp, 0 < mag ∧ carried .f32 ⟨0xBF800000, 0⟩ = .fin true mag exp :=
  ⟨by decide +kernel, by decide +kernel, by decide +kernel, ⟨_, rfl⟩, ⟨_, rfl⟩, ⟨_, _, by decide +kernel, rfl⟩⟩

/-- Bank A owns tile 63: the last 512 bytes, the last multiple of 16 from which 512 bytes do not fit, an odd address, a tile of no one. -/
theorem witness_VectorMemoryWords :
    let x := setS (setS (setS (setS task 1 0x17FE00) 2 0x17FE10) 3 0x17FE08) 4 0
    let k : Core := { coreOn x with tiles := (coreOn x).tiles.set 63 ⟨1, false, 0, 0⟩ }
    (2#4 : BitVec 4) ≠ 1 ∧
      (∀ r, Issues (onCore k) x ⟨.lanes 2, [.s r], [(.v 8, 6)]⟩ ∧ Issues (onCore k) x ⟨.lanes 2, [.s r], [(.p 8, 6)]⟩ ∧
        Issues (onCore k) x ⟨.lanes 2, [.s r, .v 8], []⟩ ∧ Issues (onCore k) x ⟨.lanes 2, [.s r, .p 8], []⟩) ∧
      Issues (onCore k) x ⟨.lanes 1, [], []⟩ ∧
      ((x.sdata 1).toNat + 512 = 0x180000 ∧ (x.sdata 1).toNat % 16 = 0 ∧ (k.tile ((x.sdata 1).toNat / 24576)).owner = 1 ∧
        (k.tile (((x.sdata 1).toNat + 511) / 24576)).owner = 1) ∧
      0x180000 < (x.sdata 2).toNat + 512 ∧ ((x.sdata 3).toNat + 64 ≤ 0x180000 ∧ (x.sdata 3).toNat % 16 ≠ 0) ∧
      ((x.sdata 4).toNat % 16 = 0 ∧ (k.tile ((x.sdata 4).toNat / 24576)).owner ≠ 1) ∧ x.rmode.toNat < 6 := by
  intro x k
  exact ⟨by decide, fun _ => ⟨onCore_issues rfl rfl rfl, onCore_issues rfl rfl rfl, onCore_issues rfl rfl rfl, onCore_issues rfl rfl rfl⟩,
    onCore_issues rfl rfl rfl, by decide +kernel⟩

/-- A typed store in the mode that traps. -/
theorem witness_VectorMemoryWords_mode :
    let x : Context := { task with rmode := 6 }
    Issues (withTask x) x ⟨.lanes 0, [.s 1, .v 8], []⟩ ∧ 6 ≤ x.rmode.toNat := ⟨issues_lanes _ rfl _ _ _, by decide⟩

/-! ### Witnesses: engine words -/

/-- A task with the staging registers of a legal `mstore`, `wn.copy` and `fx.ld`: one row, 16 bytes. -/
def staged : Context :=
  { task with ms := (task.ms.set 1 0x400).set 3 0x800, ws := task.ws.set 2 0x1001, fs := task.fs.set 1 16 }

/-- The core of a staged task that holds the engine, with tile 0 in other hands. -/
def engineCore (x : Context) (owner : BitVec 3) (q : List MCmd) : Core :=
  { coreOn x with tiles := (coreOn x).tiles.set 0 ⟨owner, false, 0, 0⟩, matrix := { (coreOn x).matrix with holder := some false, queue := q } }

/-- Commands of that task. -/
def storeCmd (x : Context) : MCmd := mkMCmd .mstore 0 0 0 0 ⟨0, 0⟩ (coreOn x) x
def mZero (x : Context) : MCmd := mkMCmd .mzero 0 0 0 0 ⟨0, 0⟩ (coreOn x) x

/-- No holder; a full queue; a field out of range; the mode that traps; a tile that is not the engine's; and all as it must be. -/
theorem witness_MatrixWords :
    let y : Context := { staged with rmode := 6 }
    (∀ x owner q, x.chkmode = false → Issues (onCore (engineCore x owner q)) x ⟨.lanes 0, [], []⟩ ∧ Issues (onCore (engineCore x owner q)) x ⟨.lanes 0, [.v 31], []⟩) ∧
      (coreOn task).matrix.holder ≠ some (coreOn task).bank ∧
      16 ≤ (engineCore task 3 (List.replicate 16 (mZero staged))).matrix.queue.length ∧
      lowestCode (mZero task).conds = some 1 ∧
      (lowestCode (storeCmd y).conds = none ∧ (storeCmd y).op = .mstore ∧ (storeCmd y).ofmt < 5 ∧ 6 ≤ y.rmode.toNat) ∧
      (lowestCode (storeCmd staged).conds = none ∧ ¬ 6 ≤ staged.rmode.toNat ∧ tilesOf (storeCmd staged).spans = [0]) ∧
      ((engineCore staged 1 []).tile 0).owner ≠ 3 ∧ ((engineCore staged 3 []).tile 0).owner = 3 ∧
      (engineCore staged 3 []).matrix.holder = some (engineCore staged 3 []).bank := by
  refine ⟨fun x owner q h => ⟨onCore_issues rfl h rfl, onCore_issues rfl h rfl⟩, by decide +kernel⟩

/-- The codes of R182: no row, too many rows, beyond the granary, a format of none, a slot of none; none of them. -/
theorem witness_MatrixWords_codes :
    let c (op : MOp) (m0 m1 m2 m3 m4 : Word) (tile : Nat) : MCmd :=
      mkMCmd op 0 0 tile 0 ⟨0, 0⟩ (coreOn task) { task with ms := #v[m0, m1, m2, m3, m4, 0, 0, 0] }
    lowestCode (c .mstream 0 0 0 0 0 0).conds = some 1 ∧ lowestCode (c .mzero 0 (2048 + 1023) 0 0 0 0).conds = some 2 ∧
      lowestCode (c .mload 0x3000 0 (64 * 128) 0 0 63).conds = none ∧ lowestCode (c .mload 0x3000 0 (65 * 128) 0 0 63).conds = some 3 ∧
      lowestCode (c .mload (31 * 4096) 0 0 0 0 0).conds = some 4 ∧ lowestCode (c .mstore 0 0x400 0 (2048 + 1536) 0 0).conds = some 7 := by
  decide +kernel

/-- A staged Wain command, and a fabric command that acquires. -/
def wainCmd (op : WOp) (x : Context) : WCmd := mkWCmd op 0 0 [] [] (coreOn x) x
def fabricCmd (op : FOp) (x : Context) : FCmd := mkFCmd op 0 0 0 0 0 State.reset.dies[0] (coreOn x) x
def acquirer : FCmd := fabricCmd .add { task with fs := task.fs.set 3 1 }

/-- An acquire ahead; a full queue; a field out of range; the mode that traps; a tile that is not the Wain's; and all as it must be. -/
theorem witness_WainWords :
    let a : Context := { staged with fabric := [acquirer] }
    let full : Context := { staged with wain := List.replicate 16 copyCmd }
    let y : Context := { staged with rmode := 6 }
    (∀ x owner, x.chkmode = false → ∀ reads, Issues (onCore (engineCore x owner [])) x ⟨.lanes 0, reads, []⟩) ∧ a.acquires = true ∧
      (full.acquires = false ∧ 16 ≤ full.wain.length) ∧ lowestCode ((wainCmd .copy task).conds true) = some 1 ∧
      (lowestCode ((wainCmd .decode y).conds true) = none ∧ 6 ≤ y.rmode.toNat) ∧
      (staged.acquires = false ∧ staged.wain.length < 16 ∧ lowestCode ((wainCmd .copy staged).conds true) = none ∧
        tilesOf (wainCmd .copy staged).spans = [0]) ∧
      ((engineCore staged 1 []).tile 0).owner ≠ 4 ∧ ((engineCore staged 4 []).tile 0).owner = 4 ∧
      ((engineCore staged 4 []).tile 0).giver = (engineCore staged 4 []).bank := by
  refine ⟨fun x owner h reads => onCore_issues rfl h rfl, by decide +kernel⟩

/-- The codes of R221: no row, an address that is not aligned, beyond the granary, a format of none, a tile handed to no holder; none of them. -/
theorem witness_WainWords_codes :
    let c (op : WOp) (w0 w1 w2 w4 w5 : Word) : WCmd := mkWCmd op 0 0 [] [] (coreOn task) { task with ws := #v[w0, w1, w2, 0, w4, w5, 0, 0] }
    lowestCode ((c .copy 0 0 0 0 0).conds true) = some 1 ∧ lowestCode ((c .copy 8 0 0x1001 0 0).conds true) = some 2 ∧
      lowestCode ((c .copy 0 0x180000 0x1001 0 0).conds true) = some 3 ∧ lowestCode ((c .decode 0 0 0x1001 5 0).conds true) = some 4 ∧
      lowestCode ((c .copy 0 0 0x1001 0 1).conds false) = some 7 ∧ lowestCode ((c .copy 0 0x17FFF0 0x1001 0 1).conds true) = none := by
  decide +kernel

/-- The same for a fabric word: a load into a tile given to the fabric, a store from a tile of the bank, an f32 atomic. -/
theorem witness_FabricWords :
    let a : Context := { staged with fabric := [acquirer] }
    let full : Context := { staged with fabric := List.replicate 32 (fabricCmd .st staged) }
    let y : Context := { staged with rmode := 6 }
    (∀ x owner, x.chkmode = false → Issues (onCore (engineCore x owner [])) x ⟨.lanes 0, [], []⟩) ∧ a.acquires = true ∧
      (full.acquires = false ∧ 32 ≤ full.fabric.length) ∧ lowestCode (fabricCmd .ld task).conds = some 1 ∧
      (lowestCode (fabricCmd .add y).conds = none ∧ FOp.add.atomic = true ∧ (fabricCmd .add y).ty = 0 ∧ 6 ≤ y.rmode.toNat) ∧
      (staged.acquires = false ∧ staged.fabric.length < 32 ∧ lowestCode (fabricCmd .ld staged).conds = none ∧
        lowestCode (fabricCmd .st staged).conds = none ∧ tilesOf (fabricCmd .ld staged).spans = [0] ∧ tilesOf (fabricCmd .st staged).spans = [0]) ∧
      (((engineCore staged 6 []).tile 0).owner = 6 ∧ ((engineCore staged 6 []).tile 0).giver = (engineCore staged 6 []).bank) ∧
      ((engineCore staged 1 []).tile 0).owner = 1 := by
  refine ⟨fun x owner h => onCore_issues rfl h rfl, by decide +kernel⟩

/-- The codes of R446: no length, an address that is not aligned, beyond the granary, a KIND of none, an order that the word has not; none of them. -/
theorem witness_FabricWords_codes :
    let c (op : FOp) (f0 f1 f2 f3 : Word) : FCmd :=
      mkFCmd op 0 0 0 0 0 State.reset.dies[0] (coreOn task) { task with fs := #v[f0, f1, f2, f3, 0, 0, 0, 0] }
    lowestCode (c .st 0 0 0 0).conds = some 1 ∧ lowestCode (c .st 8 16 0 0).conds = some 2 ∧ lowestCode (c .st 0x180000 16 0 0).conds = some 3 ∧
      lowestCode (c .add 0 0 (word (2 ^ 62)) 0).conds = some 4 ∧ lowestCode (c .st 0 16 0 1).conds = some 6 ∧ lowestCode (c .st 0x17FFF0 16 0 0).conds = none := by
  decide +kernel

/-! ### Witnesses: how words run -/

/-- A guard that is off: p1. -/
theorem witness_GuardedOffWordsDoNothing :
    (withTask task).ctx? = some task ∧ (task.guard 1)[0] = false ∧ task.chkmode = false ∧ guardOf (.add 1 3 1 2) = some 1 :=
  ⟨(issues_always task rfl [] []).1, by decide +kernel, rfl, rfl⟩

theorem witness_HardWiredRegisters : (31#5 : BitVec 5) ≠ 0 ∧ (0#5 : BitVec 5) ≠ 31 ∧ (7#3 : BitVec 3) ≠ 0 := by decide

/-- A result that is due, and none; one write to each kind of register. -/
theorem witness_ResultsAndTheEndOfABundleCycle :
    let r : Pend := ⟨0, 3, 0, [.s 3], [.s 3 ⟨7, 0⟩], 0, false, none⟩
    ({ task with pend := [r] } : Context).pend.filter (fun r => r.due ≤ 3) = [r] ∧
      ({ task with pend := [r] } : Context).pend.filter (fun r => r.due ≤ 2) = [] ∧ (3#5 : BitVec 5) ≠ 0 ∧
      (∀ w ∈ [RegWrite.v 31 ⟨1, 1⟩ ⟨1, 1⟩, .p 7 1 1, .stage 3 7 5, .latches [some ⟨1, 0, 0, false⟩]],
        ({ task with pend := [⟨0, 3, 0, [], [w], 0, false, none⟩] } : Context).pend.flatMap (·.writes) = [w]) := by decide +kernel

/-- A core without a word in error; a load that reads such a word and one that reads another; a store that covers one whole and one
that covers it in part. -/
theorem witness_GranaryAccessReadsThenWrites :
    let k := coreOn task
    let l : Load := ⟨0, 8, false, .scalar 3 false⟩
    let p : Pend := ⟨0, 3, 0, [.s 3], [], 0, false, some l⟩
    let w (n : Nat) : Store := ⟨0, 0, 0, n, (List.range n).map (fun j => ⟨j, 7, 255⟩), 0, false⟩
    let at2 (x : Context) : Core := { coreOn x with bc := 2, badWords := [0] }
    let whole (w : Store) (q : Nat) : Bool := (List.range 16).all fun j => w.bytes.any fun b => b.addr == 16 * q + j && b.mask == 255
    (k.ctx? k.bank = some task ∧ k.badWords = [] ∧ Memory.wf k.granary = true ∧ task.fabric.any FCmd.reading = false) ∧
      ((at2 { task with pend := [p] }).ctx? false = some { task with pend := [p] } ∧ p.load = some l ∧ p.issue + 2 ≤ 2 ∧
        l.wants 0 = true ∧ 0 / 16 ∈ (at2 task).badWords ∧ 16 / 16 ∉ (at2 task).badWords) ∧
      ((at2 { task with stores := [w 16] }).ctx? false = some { task with stores := [w 16] } ∧ whole (w 16) 0 = true ∧ whole (w 8) 0 = false ∧
        (w 8).issue + 2 ≤ 2 ∧ Memory.wf (at2 task).granary = true ∧ task.granaryErr = none) := by
  decide +kernel

/-- Pending results; a handler, none, and one that is active; and an error of the granary that fell due. -/
theorem witness_TakingATrapAndReturning :
    let r : Pend := ⟨0, 3, 0, [.s 3], [.s 3 ⟨7, 0⟩], 0, false, none⟩
    let x : Context := { task with tvec := 0x1000 }
    ({ task with pend := [r] } : Context).drained = false ∧ (x.drained = true ∧ x.granaryErr = none ∧ x.hact = false ∧ x.tvec ≠ 0) ∧
      (task.granaryErr = none ∧ task.hact = false ∧ task.tvec = 0) ∧ ({ x with hact := true } : Context).hact = true ∧
      ({ x with granaryErr := some (16, false) } : Context).granaryErr = some (16, false) := by decide +kernel

/-- A row of code, its words from the first on, and a core whose task is about to run it. -/
def codeRow (n : Nat) : IRow := ⟨0, 0, BitVec.ofNat 16384 n, false, false, 0, []⟩
def codeOf (ws : List Nat) : Nat := ws.foldr (fun w n => w + 2 ^ 32 * n) 0
def codedFor (x : Context) (ws : List Nat) : State := { onCore { coreOn x with istore := [codeRow (codeOf ws)] } with sched := [.core 0] }
def coding (ws : List Nat) : State := codedFor task ws

/-- `add s8, s8, s9` in a bundle of its own (0x00008424 in the examples, with E), `br`, and `fcvt` to an integer. -/
def addRow : Nat := 0x80008424
def brWord : Nat := 0x8C000002
def fcvtRow : Nat := ((encode true (.fcvt 0 8 8 12)).getD 0).toNat

/-- A state with the word at a place of the bundle, in a phase; what a word answers there. -/
def atWord (u : State) (n : Nat) (ph : Phase) : State := { u with issue := { u.issue with pos := n, phase := ph } }
def ranOn (i : Instr) (s : State) : State := match exec i s with | .next t => t | _ => s

theorem add_checks {s : State} {x : Context} (hc : s.ctx? = some x) (hp : s.issue.phase = .check) (hm : x.chkmode = false) :
    exec (.add 0 8 8 9) s = .next s := by
  rw [exec_add]
  unfold execAdd scalarBin scalarWord
  exact runWord_check hc hp _ _ (by simp [wordCheck, scheduleCheck, hm, noCheck])
theorem add_acts {s : State} {x : Context} (hc : s.ctx? = some x) (hp : s.issue.phase = .act) :
    exec (.add 0 8 8 9) s = .next (s.sresult 1 8 ⟨x.sdata 8 + x.sdata 9, 0⟩ 0) := by
  rw [exec_add]
  unfold execAdd scalarBin scalarWord
  exact runWord_act (u := ⟨.scalar 0, [8, 9].map .s, [(.s 8, 1)]⟩) hc hp (guardOn_zero x) _ _

/-- A core that runs; a bundle of one word, which passes its checks and acts. -/
theorem witness_StepRunsTheDecodedWord :
    let s := coding [addRow]
    let s0 : State := { s with sched := [], cur := 0 }
    let k := s.cores[(0 : Fin 256)]
    let s1 : State := { s0 with issue := ⟨0, 4, task.pc + word 4, .whole, .none⟩ }
    (s.sched = [.core 0] ∧ s.pkg.frz = 0 ∧ k.ctx? k.bank = some task ∧ k.ctx? (!k.bank) = none ∧ k.freeze = 0 ∧ k.missing = none ∧
      k.switching = 0 ∧ k.snap k.bank = .empty ∧ task.status = .running ∧ task.cancel = false ∧ task.preempt = false ∧ task.dly = 0 ∧
      task.granaryErr = none ∧ task.delay = none ∧ task.landed = false ∧ task.spans k.bc = ([], []) ∧ task.acquires = false ∧
      k.row task.partId task.pc.toNat = some (codeRow addRow) ∧ (codeRow addRow).code.extractLsb' 0 32 = BitVec.ofNat 32 addRow ∧
      (BitVec.ofNat 32 addRow).getLsbD 31 = true ∧ (decodeWord (BitVec.ofNat 32 addRow) matches .ok (.add 0 8 8 9)) ∧ isBranch (.add 0 8 8 9) = false ∧
      ({ task with granaryErr := some (16, false) } : Context).granaryErr = some (16, false)) ∧
      exec (.add 0 8 8 9) (atWord s1 0 .check) = .next (atWord s1 0 .check) ∧
      ∃ u, exec (.add 0 8 8 9) (atWord (s1.modCtx fun y => { y with delay := none, waitHold := 0, begun := true }) 0 .act) = .next u ∧ u.issue.stop = .none := by
  intro s s0 k s1
  refine ⟨by decide +kernel, add_checks (issues_scalar task rfl [] []).1 rfl rfl, ?_⟩
  refine ⟨_, add_acts (x := { task with waitHold := 0, begun := true }) ?_ rfl, rfl⟩
  show (s1.modCtx _).ctx? = _
  rw [State.modCtx_ctx?, show s1.ctx? = some task from (issues_scalar task rfl [] []).1]
  rfl

/-- A core that stands at the delay bundle of a branch, which it has already fetched, also with an error of the granary; and a core whose
other bank holds a task, that wants no switch. -/
theorem witness_StepRunsTheDecodedWord_delay :
    let x : Context := { task with delay := some ⟨true, 64, false⟩, delayBundle := [.add 0 8 8 9], granaryErr := some (16, false) }
    let k : Core := { coreOn x with ctxB := some task }
    (k.ctx? k.bank = some x ∧ k.wantsSwitch = false ∧ k.ctx? (!k.bank) = some task ∧ k.freeze = 0 ∧ k.missing = none ∧ k.switching = 0 ∧ k.snap k.bank = .empty) ∧
      (x.status = .running ∧ x.cancel = false ∧ x.preempt = false ∧ x.dly = 0 ∧ x.delay ≠ none ∧ x.delayBundle = [.add 0 8 8 9] ∧ x.landed = false ∧
        x.acquires = false ∧ x.spans k.bc = ([], [])) ∧
      (let s : State := { withTask x with issue := ⟨0, 4, 4, .whole, .none⟩ }
       ∀ ph ∈ [Phase.check, .act], (ranOn (.add 0 8 8 9) (atWord s 0 ph)).issue.stop = .none) := by
  decide +kernel

/-- Bundles that end before their words act: a third word of class 000, a word after one of a higher class, no word of the table; a word
that its check traps, and one that holds; a branch with a delay bundle that may not stand there. -/
theorem witness_StepRunsTheDecodedWord_stops :
    let cls (w : Nat) : Nat := w / 2 ^ 28 % 8
    let w0 : Nat := 0x00008424
    let wait : Instr := .wait 0 1 5
    let busy : Context := { reaching with wain := [copyCmd] }
    let s1 (x : Context) : State := { withTask x with issue := ⟨0, 4, 4, .whole, .none⟩ }
    (([w0, w0, addRow].map cls = [0, 0, 0]) ∧ (cls (2 ^ 28) > cls addRow) ∧ (decodeWord 0x80000000 matches .ok _) = true ∧
      (decodeWord 0x803E0000 matches .error _) = true ∧ (BitVec.ofNat 32 w0).getLsbD 31 = false ∧ (BitVec.ofNat 32 addRow).getLsbD 31 = true) ∧
      (ranOn (.fcvt 0 8 8 12) (atWord (s1 { task with rmode := 6 }) 0 .check)).issue.stop = .trapped ∧
      ((ranOn wait (atWord (s1 task) 0 .check)).issue.stop = .held ∧ holdsFirst wait = true) ∧
      ((ranOn (.sigDec 0 1 2) (atWord (s1 busy) 0 .check)).issue.stop = .held ∧ holdsFirst (.sigDec 0 1 2) = false) ∧ (decodeWord (BitVec.ofNat 32 brWord) matches .ok (.br 0 2)) = true ∧ isBranch (.br 0 2) = true ∧
      cls brWord = 0 ∧ brWord / 2 ^ 26 % 4 = 3 := by
  decide +kernel

/-- A branch whose delay bundle is clean, one that breaks the schedule, and one that rounds with an illegal RMODE. -/
theorem witness_StepRunsTheDecodedWord_branch :
    let late (x : Context) (ds : Nat) : State :=
      let s1 : State := { codedFor x [brWord, ds] with sched := [], cur := 0, issue := ⟨0, 4, x.pc + 8, .whole, .none⟩ }
      let u := ranOn (.br 0 2) (atWord (s1.modCtx fun y => { y with delay := none, waitHold := 0, begun := true }) 0 .act)
      let issued : State := (u.modCore fun k => (k.settleDoubles []).applyDeferred u.now).modCtx fun y => y.advance 4 none true
      { issued.modCore Core.endBc with issue := { issued.issue with stop := .none } }
    let busy : Context := { task with chkmode := true, pend := [⟨0, 9, 0, [.s 8], [.s 8 ⟨1, 0⟩], 0, true, none⟩] }
    let k := (coding [brWord, addRow]).cores[(0 : Fin 256)]
    k.row task.partId 4 = some (codeRow (codeOf [brWord, addRow])) ∧
      (codeRow (codeOf [brWord, addRow])).code.extractLsb' 32 32 = BitVec.ofNat 32 addRow ∧ busy.spans 0 = ([], []) ∧
      (∀ ph ∈ [Phase.sched, .check], (ranOn (.add 0 8 8 9) (atWord (late task addRow) 0 ph)).issue.stop = .none) ∧
      (ranOn (.add 0 8 8 9) (atWord (late busy addRow) 0 .sched)).issue.stop = .trapped ∧
      (ranOn (.fcvt 0 8 8 12) (atWord (late { task with rmode := 6 } fcvtRow) 0 .sched)).issue.stop = .none ∧
      (ranOn (.fcvt 0 8 8 12) (atWord (late { task with rmode := 6 } fcvtRow) 0 .check)).issue.stop = .trapped := by
  decide +kernel

/-- A turn of each kind at the head of the schedule, in a frozen module too; the turn that a state calls for, here its core fills a row; and a
reread that is due. -/
theorem witness_StepsTakeTheTurnAndAnswer :
    let frozen : State := { State.reset with sched := [.clocks 5], pkg := { State.reset.pkg with frz := 1 } }
    ({ State.reset with sched := [.event .freeze] } : State).sched = [.event .freeze] ∧
      (({ State.reset with sched := [.clocks 5] } : State).sched = [.clocks 5] ∧ State.reset.pkg.frz = 0) ∧ frozen.pkg.frz ≠ 0 ∧
      (onCore { Core.reset with missing := some 0 }).sched = [] ∧ (onCore { Core.reset with missing := some 0 }).autoTurn = .event (.istoreFill 0) ∧
      State.reset.reread = false ∧ ({ State.reset with reread := true } : State).reread = true := by
  decide +kernel

/-! ### Witnesses: encodings, frames, reset -/

theorem witness_DecodeOfEncode :
    encode true (.add 0 8 8 9) = some 0x80008424 ∧ (Instr.add 0 8 8 9).wf = true ∧ (decodeWord 0x80008424 matches .ok (.add 0 8 8 9)) ∧
      (∃ w, encodePrim (.actCopy true 4 1 8 2) = some w ∧ (decodePrim w matches .ok (.actCopy true 4 1 8 2))) ∧ (Instr.actCopy true 4 1 8 2).wf = true :=
  ⟨by decide, by decide, by decide, ⟨_, rfl, by decide⟩, by decide⟩

theorem witness_WordsWriteNoRegisterAtIssue :
    (encode true (.add 0 8 8 9)).isSome = true ∧ (withTask task).ctx? = some task ∧ ∃ t, exec (.add 0 8 8 9) (withTask task) = .next t :=
  ⟨by decide, (issues_always task rfl [] []).1, _, (exec_add ..).trans (scalarBin_issues (issues_scalar task rfl _ _) _)⟩

theorem witness_WordsActAsTheyIssue :
    (withTask task).ctx? = some task ∧ (withTask task).issue.phase = .whole ∧ (withTask task).issue.stop = .none ∧
      ∃ t, exec (.add 0 8 8 9) (withTask task) = .next t ∧ t.issue.stop = .none :=
  ⟨(issues_always task rfl [] []).1, rfl, rfl, _, (exec_add ..).trans (scalarBin_issues (issues_scalar task rfl _ _) _), rfl⟩

theorem witness_MemoryStaysCanonical : State.reset.memoryWf = true ∧ ∃ t, step { State.reset with sched := [.clocks 5] } = .next t :=
  ⟨by decide +kernel, _, rfl⟩

/-! ### Witnesses: events of a core, the engines -/

/-- A result due, an access due, a trap that waits, a row to fill, a waking quarter, a bank to switch to, a full barrier. -/
theorem witness_CoreEvents :
    let t1 : Context := { task with status := .draining (.trap 0x20 0 5) }
    let t2 : Context := { task with extents := [⟨0, 65536, 0x3C, 7⟩] }
    let k1 : Core := { coreOn task with bc := 1 }
    let k2 : Core := { coreOn t2 with missing := some 0 }
    let k3 : Core := { coreOn task with quarters := (coreOn task).quarters.set 3 .waking }
    let k4 : Core := { coreOn { task with status := .suspended 0 0 } with ctxB := some task }
    let s5 : State := State.reset.updCluster 0 fun k => { k with barriers := k.barriers.set 3 (some ⟨1, 0, [0, 1], 1, [1, 0]⟩) }
    (State.reset.pkg.frz = 0) ∧ (k1.ctx? k1.bank = some task ∧ k1.bc = 0 + 1) ∧ (k1.freeze = 0 ∧ k1.wakeFreeze = false) ∧
      ((coreOn t1).ctx? false = some t1 ∧ t1.status = .draining (.trap 0x20 0 5) ∧ t1.drained = true) ∧
      (k2.ctx? k2.bank = some t2 ∧ k2.missing = some 0 ∧ k2.row 0 0 = none ∧ k2.istore.length < 128 ∧
        (onCore k2).translate (coreDie 0) t2.partId t2.extents (rowAddr 0) 2048 .fetch = .phys 0 0x3C ∧ (onCore k2).memBad 0 2048 = false ∧
        ({ onCore k2 with pkg := { State.reset.pkg with badLines := [3] } } : State).memBad 0 2048 = true ∧
        (onCore k2).translate (coreDie 0) 0 [] (rowAddr 0) 2048 .fetch = .fault 4 ∧
        (onCore k2).translate (coreDie 0) 0 [⟨0, 65536, word (2 ^ 41 + 0x3C), 7⟩] (rowAddr 0) 2048 .fetch = .fail) ∧
      (let host : Context := { t2 with extents := [⟨0, 65536, word (2 ^ 49 + 0x3C), 7⟩] }
        let cut : State := { onCore { coreOn host with missing := some 0 } with pkg := { State.reset.pkg with links := #v[false, false] } }
        (onCore k2).severed 0 0 2048 = false ∧ cut.severed 0 (2 ^ 49) 2048 = true ∧
          cut.translate (coreDie 0) 0 host.extents (rowAddr 0) 2048 .fetch = .phys (2 ^ 49) (word (2 ^ 49 + 0x3C))) ∧
      k3.quarters[3] = .waking ∧ ({ onCore k1 with cur := 0 } : State).switches = false ∧ ({ onCore k4 with cur := 0 } : State).switches = true ∧
      ((s5.clusters[0]).barriers[3] = some ⟨1, 0, [0, 1], 1, [1, 0]⟩ ∧ ([0, 1] : List Nat) ≠ [] ∧ ∀ m ∈ [0, 1], m ∈ [1, 0]) := by
  decide +kernel

/-- Each of the words that hold a bundle, in a bundle of its own that nothing holds. -/
theorem witness_CoreEvents_held :
    ∀ i ∈ [Instr.wait 0 1 0, .waitr 0 1 2, .sigDec 0 1 2, .fence 0 0, .sysLaunch 0 1],
      let s : State := onCore { coreOn { task with extents := [⟨0, 65536, 0x3C, 7⟩] } with istore := [codeRow ((encode true i).getD 0).toNat] }
      (encode true i).isSome = true ∧ s.pkg.frz = 0 ∧ front s.cores[(0 : Fin 256)] { task with extents := [⟨0, 65536, 0x3C, 7⟩] } = .ready [i] none ∧
        (s.cores[(0 : Fin 256)]).canIssue = true ∧ (clockOf wordMeaning 0 s).issue.stop ≠ .held := by
  decide +kernel

/-- Each of them in a bundle of its own: tokens at their threshold, below it and in error; commands that have not posted; a queue with room. -/
theorem witness_CoreEvents_word :
    let x : Context := { reaching with k := (task.k.set 1 ⟨5, false, 0⟩).set 2 ⟨5, true, 3⟩ }
    let row (i : Instr) : IRow := codeRow ((encode true i).getD 0).toNat
    let on (i : Instr) : Core := { coreOn x with istore := [row i] }
    let busy : Context := { x with wain := [copyCmd] }
    (∀ i ∈ [Instr.wait 0 1 5, .wait 0 1 6, .wait 0 2 5, .waitr 0 1 3, .sigDec 0 1 2, .fence 0 0, .sysLaunch 0 3],
      let k := on i
      (onCore k).pkg.frz = 0 ∧ k.ctx? k.bank = some x ∧ k.ctx? (!k.bank) = none ∧ k.freeze = 0 ∧ k.missing = none ∧ k.switching = 0 ∧ k.disabled = false ∧
        k.snap k.bank = .empty ∧ k.row x.partId x.pc.toNat = some (row i) ∧ encode true i = some ((row i).code.extractLsb' (8 * (x.pc.toNat % 2048)) 32) ∧
        i.wf = true) ∧
      (x.status = .running ∧ x.cancel = false ∧ x.preempt = false ∧ x.dly = 0 ∧ x.delay = none ∧ x.landed = false ∧ x.deferred = [] ∧ x.granaryErr = none ∧
        x.spans 0 = ([], []) ∧ x.pc + 4 = 4) ∧
      (∀ i reads, Issues (onCore (on i)) x ⟨.scalar 0, reads, []⟩) ∧ (x.wain = [] ∧ x.fabric = []) ∧ ¬ (busy.wain = [] ∧ busy.fabric = []) ∧
      ((x.k[1].count.toNat + 2 ^ 16 - 5) % 2 ^ 16 < 2 ^ 15 ∧ x.k[1].err = false ∧ ¬ (x.k[1].count.toNat + 2 ^ 16 - 6) % 2 ^ 16 < 2 ^ 15 ∧ x.k[2].err = true) ∧
      (x.sdata 1).toNat % 8 = 0 ∧ (onCore (on (.sigDec 0 1 2))).translate 0 x.partId x.extents (x.sdata 1).toNat 8 .atomic = .phys 0 0x3C ∧
      (onCore (on (.sigDec 0 1 2))).severed 0 0 8 = false ∧ physKind 0 = .hbm 0 ∧
      (let s := deviceQueue 65535 (onCore (on (.sysLaunch 0 3)))
       let q := s.queue 0 (launchQueue (x.sdata 3))
       q.kind = true ∧ q.en = true ∧ q.part = x.partId ∧ q.size.toNat ≤ 12 ∧ (x.sdata 3).toNat % 64 = 0 ∧ (x.sdata 3).toNat / 2 ^ 58 = 0 ∧
         q.qtail - q.qhead < 2 ^ (q.size.toNat + 4)) := by
  refine ⟨by decide +kernel, by decide +kernel, fun _ _ => onCore_issues rfl rfl (guardOn_zero _), by decide +kernel⟩

/-- A matrix command to start, with a zeroing and a load ahead of it; one to complete; and a swap. -/
theorem witness_MatrixAndWainCommands_matrix :
    let m := mZero staged
    let k : Core := { engineCore staged 3 [{ m with started := true }, m] with bc := 2 }
    let swap : MCmd := { mkMCmd .mswap 0 0 0 0 ⟨0, 0⟩ (coreOn staged) staged with started := true }
    let drain : MCmd := { mkMCmd .mdrain 0 0 0 0 ⟨0, 0⟩ (coreOn staged) staged with started := true }
    (k.matrix.queue[1]? = some m ∧ m.started = false ∧ m.issue + 2 ≤ k.bc ∧ k.cancelled m.bank = false ∧ k.awake (tilesOf m.spans) = true) ∧
      (let l := mkMCmd .mload 0 0 0 0 ⟨0, 0⟩ (coreOn staged) staged
       l.load = true ∧ m.load = false ∧ m.barrier = false ∧ ∀ e ∈ [{ m with started := true }], e.load ≠ l.load ∧ ¬ (l.load = true ∧ e.barrier = true) ∧ ¬ (l.barrier = true ∧ e.load = true)) ∧
      (({ m with started := true } : MCmd).started = true ∧ k.ctx? m.bank = some staged ∧ m.op = .mzero) ∧
      (swap.started = true ∧ swap.op = .mswap ∧ swap.guard.getLsbD 0 = true) ∧ (drain.op = .mdrain ∧ drain.started = true) := by
  decide +kernel

/-- A Wain command to start, off and on; a `wn.far` whose page is there and one whose page is not; and one that is done. -/
theorem witness_MatrixAndWainCommands_wain :
    let c := wainCmd .copy staged
    let f := wainCmd .far task
    let x (w : WCmd) : Context := { staged with wain := [w] }
    let near : Context := { task with wain := [f], extents := [⟨0, 65536, 0x3C, 7⟩] }
    let absent : State := State.reset.updDie 0 fun d => { d with troot := d.troot.set 0 0x1001 }
    (c.held = none ∧ c.push = false ∧ c.started = false ∧ c.enabled = true ∧ ({ c with enabled := false } : WCmd).enabled = false) ∧
      ((x c).wain = c :: [] ∧ c.issue + 2 ≤ 2 ∧ (engineCore (x c) 4 []).cancelled false = false ∧ ({ engineCore (x c) 4 [] with bc := 2 } : Core).awake (tilesOf c.spans) = true) ∧
      (f.op = .far ∧ f.item = 0 ∧ f.gateDie = none ∧ f.res = none ∧ (withTask near).resolve 0 near.partId near.extents f.va 8 .read = .pieces [(0, 8, 0x3C)] ∧
        (withTask near).unlinked 0 = false ∧ (withTask near).readPieces [(0, 8, 0x3C)] = some [0, 0, 0, 0, 0, 0, 0, 0]) ∧
      absent.resolve 0 0 [] f.va 8 .read = .held 0 1 ∧ ({ c with done := true } : WCmd).done = true ∧ tilesOf c.spans = [0] ∧ c.hand = 0 := by
  decide +kernel

/-- A started command of each kind, with its tile in order; a word in error under it, and tiles that are another's. -/
theorem witness_MatrixEffects :
    let cmd (op : MOp) : MCmd := { mkMCmd op 0 0 0 0 ⟨0, 0⟩ (coreOn staged) staged with started := true }
    let k (op : MOp) : Core := { engineCore staged 3 [cmd op] with badWords := [2] }
    (∀ op ∈ [MOp.mload, .mscaleW, .mscaleA, .mstream, .mstreamz, .mstore, .mread, .mwrite],
      (onCore (k op)).pkg.frz = 0 ∧ (k op).matrix.queue[0]? = some (cmd op) ∧ (cmd op).started = true ∧ (k op).ctx? (cmd op).bank = some staged ∧ (cmd op).op = op) ∧
      (cmd .mload).col 0 = true ∧ ({ cmd .mload with guard := 0 } : MCmd).col 0 = false ∧
      ((∀ t ∈ tilesOf [(0, 192)], ((k .mload).tile t).owner = 3) ∧ (0 + 32) / 16 ∈ (k .mload).badWords ∧ (192 + 0) / 16 ∉ (k .mload).badWords) ∧
      (∃ i < 256, (cmd .mstream).guard.getLsbD i = true) ∧ ¬ (∃ i < 256, (({ cmd .mstream with guard := 0 } : MCmd).guard).getLsbD i = true) ∧
      (cmd .mread).guard.getLsbD (4 * 64) = true ∧ (cmd .mstore).acc0 ∈ ({ (k .mstore).matrix with accBad := [0] } : Matrix).accBad ∧ (cmd .mstore).dead 0 = false ∧
      (imageBytes (cmd .mstore).ofmt ≠ 0 ∧ (engineCore staged 3 []).badWords = [] ∧ Memory.wf (engineCore staged 3 []).granary = true ∧
        ∀ t ∈ tilesOf (cmd .mstore).spans, ((engineCore staged 3 []).tile t).owner = 3) := by
  decide +kernel

/-- A running command of each kind, its page there; and pages with no memory, of another unit, in error, and not mapped. -/
theorem witness_WainEffects :
    let x0 : Context := { staged with extents := [⟨0, 65536, 0x3C, 7⟩], ws := (task.ws.set 2 0x2002).set 4 1 }
    let cmd (op : WOp) (w5 : Word) : WCmd :=
      let c := mkWCmd op 0 0 (if op = .spillM ∨ op = .fillM then [3] else []) (if op = .spillM then [⟨5, 0⟩] else []) (coreOn x0) { x0 with ws := x0.ws.set 5 w5 }
      { c with started := true, fmt := if op = .decode ∨ op = .encode then some (1, 0) else none }
    let on (op : WOp) (w5 : Word) : Context := { x0 with wain := [cmd op w5] }
    let s (op : WOp) (w5 : Word) : State := onCore (engineCore (on op w5) 4 [])
    (∀ p ∈ [(WOp.copy, (0 : Word)), (.copy, 4), (.gather, 0), (.scatter, 0), (.spillM, 0), (.fillM, 0), (.flush, 0), (.expand, 0), (.decode, 0), (.encode, 0)],
      let c := cmd p.1 p.2
      (s p.1 p.2).pkg.frz = 0 ∧ ((s p.1 p.2).cores[(0 : Fin 256)]).ctx? false = some (on p.1 p.2) ∧ (on p.1 p.2).wain = c :: [] ∧ c.started = true ∧ c.done = false ∧
        c.push = false ∧ c.held = none ∧ c.enabled = true ∧ c.item < c.items ∧ c.gateDie = none ∧ c.dir = (p.2 == 4)) ∧
      (let u := s .copy 0
       (((u.cores[(0 : Fin 256)]).tile 0).owner = 4 ∧ (u.cores[(0 : Fin 256)]).badWords = []) ∧
         (∀ a ∈ [Access.read, .write], u.resolve 0 0 x0.extents 0 16 a = .pieces [(0, 16, 0x3C)] ∧ u.resolve 0 0 x0.extents 0 768 a = .pieces [(0, 768, 0x3C)] ∧
           u.resolve 0 0 [⟨0, 65536, word (2 ^ 41 + 0x3C), 7⟩] 0 16 a = .fail 3 ∧ u.resolve 0 0 [] 0 16 a = .held 0 4) ∧
         u.readPieces [(0, 16, 0x3C)] = some (List.replicate 16 0) ∧ u.memBad 0 16 = false ∧ gateOf [(0, 16, 0x3C)] = none ∧
         (gateOf [(0x10000800000, 16, 0x3C)]).isSome = true ∧ sameFormat (1, 0) [(0, 16, 0x3C)] = false ∧
         sameFormat (0, 0) [(0, 16, 0x3C)] = true ∧ (∀ j < 16, hasMemory (0 + j) = true) ∧
         (let bad : State := { u with pkg := { u.pkg with badLines := [0] } }
          bad.readPieces [(0, 16, 0x3C)] = none ∧ bad.memBad 0 16 = true)) ∧
      (unifiedWidth (BitVec.ofNat 5 (cmd .expand 0).gfmt) = 16 ∧ 0 < (cmd .expand 0).rlen ∧ (cmd .decode 0).gfmt < 5) ∧
      physKind (2 ^ 49) = .host 0 ∧ (∀ h, physKind 0 ≠ .host h) ∧ RMode.rne ≠ .rneEf := by
  refine ⟨by decide +kernel, by decide +kernel, by decide +kernel, by decide +kernel, by decide +kernel, by decide⟩

/-- A running `wn.decode` and `wn.encode` on an E2M1 page: rows that fill whole blocks and rows that do not, a block that begins at VA and one
that does not, an item in a block and one that begins it, words that can be read and one that cannot. -/
theorem witness_WainEffects_blocks :
    let x0 : Context := { staged with extents := [⟨0, 65536, 0x53C, 7⟩], ws := (task.ws.set 2 0x2004).set 4 1 }
    let cmd (op : WOp) : WCmd := { wainCmd op x0 with started := true, fmt := some (5, 0) }
    let s (op : WOp) : State := onCore (engineCore { x0 with wain := [cmd op] } 4 [])
    let w := cmd .encode
    let n := 128 / (matrixFloat w.gfmt).width
    (∀ op ∈ [WOp.decode, .encode], (cmd op).fmt = some (5, 0) ∧ (cmd op).gfmt < 5 ∧ (cmd op).item < (cmd op).items ∧
      ((s op).cores[(0 : Fin 256)]).ctx? false = some { x0 with wain := [cmd op] } ∧ (((s op).cores[(0 : Fin 256)]).tile 0).owner = 4) ∧
      (n = 8 ∧ w.rlen * n % 32 = 0 ∧ ({ w with ws := w.ws.set 2 0x2001 } : WCmd).rlen * n % 32 ≠ 0) ∧
      (w.va % 65536 % 20 = 0 ∧ w.va % 65536 / 20 < 3276 ∧ ({ w with ws := w.ws.set 0 16 } : WCmd).va % 65536 % 20 ≠ 0 ∧
        ¬ ({ w with ws := w.ws.set 0 65520 } : WCmd).va % 65536 / 20 < 3276) ∧
      (w.item % (32 / n) = 0 ∧ (w.item + 1) % (32 / n) ≠ 0) ∧
      (let e := s .encode
       e.resolve 0 0 x0.extents 0 16 .write = .pieces [(0, 16, 0x53C)] ∧ (e.cachePages 0 0 0 16).resolve 0 0 x0.extents 16 4 .write = .pieces [(16, 4, 0x53C)] ∧
         sameFormat (5, 0) [(0, 16, 0x53C), (16, 4, 0x53C)] = true ∧ sameFormat (5, 0) [(0, 16, 0x3C)] = false ∧ gateOf [(0, 16, 0x53C), (16, 4, 0x53C)] = none ∧
         e.memBad 0 16 = false ∧ e.memBad 16 4 = false ∧ (∀ j < 20, hasMemory (0 + j) = true) ∧ e.memoryWf = true ∧ e.barnWf = true) ∧
      (let r := s .decode
       r.resolve 0 0 x0.extents 0 4 .read = .pieces [(0, 4, 0x53C)] ∧ r.readPieces [(0, 4, 0x53C)] = some [0, 0, 0, 0] ∧
         (let u := (r.cachePages 0 0 0 4).fillPieces [(0, 4, 0x53C)]
          u.resolve 0 0 x0.extents 16 4 .read = .pieces [(16, 4, 0x53C)] ∧ u.readPieces [(16, 4, 0x53C)] = some [0, 0, 0, 0])) := by
  refine ⟨by decide +kernel, by decide +kernel, by decide +kernel, by decide +kernel, by decide +kernel, by decide +kernel⟩

/-- A module of a ring of two, with its links trained, its own peer number 0, and aperture 1 leading to a peer. -/
def inRing (peer : Nat) (s : State) : State :=
  { s with dies := s.dies.map fun d => { d with fabcfg := 0x10000, aptab := [(1, word (2 ^ 63 + peer))] },
           pkg := { s.pkg with ports := s.pkg.ports.map fun p => { p with width := 3, up := true } } }

/-- A push of one token entry, at the head of its die's list, with room in the queue. -/
def pushed : State :=
  let e : GateEntry := ⟨7, 0, false, 0, []⟩
  (withTask { staged with wain := [{ wainCmd .copy staged with push := true }] }).updThresher 0 fun t => { t with pushes := [⟨0, false, [e]⟩] }

theorem witness_GateQueue_push :
    ∃ x w, pushed.pkg.frz = 0 ∧ (pushed.cores[(0 : Fin 256)]).ctx? false = some x ∧ x.wain = [w] ∧ w.push = true ∧
      (pushed.dies[(0 : Fin 2)]).thresher.pushes = [⟨0, false, [⟨7, 0, false, 0, []⟩]⟩] ∧ (pushed.dies[(1 : Fin 2)]).thresher.pushes = [] ∧
      (pushed.dies[(0 : Fin 2)]).thresher.occupancy + 1 ≤ 8192 :=
  ⟨_, _, rfl, rfl, rfl, rfl, by decide +kernel⟩

/-- A hash layer whose ring has room, and one whose ring is full; entries of the epoch, of one that is over, and of one sealed. -/
def hashLayer : Layer :=
  { index := 3, mode := 2, k := 1, nexp := 4, cap := 2, route0 := 0, ring := 0x10000000000, rsize := 4, arm := false, seed := 0, sealAddr := 0x10000000800, cblk := 0x10000000900, cur := 5, closed := false, recs := 0, cnt := [0, 1, 2, 0], hist := [0, 1, 2, 0], ovf := [false, false, true, false], hovf := [false, false, false, false] }
def gated (l : Layer) (es : List GateEntry) : State := State.reset.updThresher 0 fun t => { t with layers := [l], gq := es }

theorem witness_GateQueue_entries :
    let e : GateEntry := ⟨7, 3, false, 5, []⟩
    let old : GateEntry := ⟨7, 3, false, 4, []⟩
    let last : GateEntry := ⟨0, 3, true, 4, []⟩
    (∀ es, (gated hashLayer es).pkg.frz = 0 ∧ ((gated hashLayer es).thresher 0).gq = es ∧
      layerOf ((gated hashLayer es).thresher 0).layers 3 = some hashLayer ∧ ((gated hashLayer es).thresher 0).overrides = []) ∧
      (e.layer = 3 ∧ e.isSeal = false ∧ e.epoch = hashLayer.cur ∧ hashLayer.closed = false ∧ (gated hashLayer [e]).ringFits hashLayer 1 = true) ∧
      (2 ^ 15 ≤ (old.epoch - hashLayer.cur).toNat ∧ last.isSeal = true ∧ last.epoch = old.epoch) ∧
      ({ gated hashLayer [e] with mem := [(0x10000000000, 16)] } : State).ringFits hashLayer 1 = false ∧
      (1 < hashLayer.nexp ∧ hashLayer.cnt.length = hashLayer.nexp ∧ hashLayer.hist.length = hashLayer.nexp ∧
        hashLayer.cnt.getD 1 0 < hashLayer.cap ∧ hashLayer.cap ≤ hashLayer.cnt.getD 2 0 ∧ hashLayer.hist.getD 1 0 < 2 ^ 32 - 1) := by
  refine ⟨fun es => ⟨rfl, rfl, rfl, rfl⟩, by decide +kernel⟩

/-- A top-k layer with a token of four logits; seals of the epoch, with arms and without; an override. -/
theorem witness_GateQueue_ranks :
    let top : Layer := { hashLayer with mode := 1, k := 2 }
    let arms : Layer := { hashLayer with arm := true }
    let e : GateEntry := ⟨7, 3, false, 5, [0x40000000, 0x40000000, 0x7FC00000, 0]⟩
    let last : GateEntry := ⟨0, 3, true, 5, []⟩
    let s (l : Layer) (es : List GateEntry) := gated l es
    ((s top [e]).ringFits top 2 = true ∧ top.mode = 1 ∧ e.isSeal = false ∧ e.epoch = top.cur ∧ top.closed = false) ∧
      (last.isSeal = true ∧ last.epoch = hashLayer.cur ∧ (s hashLayer [last]).ringFits hashLayer 1 = true ∧ hashLayer.arm = false ∧ arms.arm = true) ∧
      (∀ x ∈ [1, 2], arms.cnt.getD x 0 ≠ 0 ∧ destPeer (((s arms [last]).dies[(0 : Fin 2)]).destOf (arms.route0 + x)) = ((s arms [last]).dies[(0 : Fin 2)]).self) ∧
      (let far : State := (inRing 1 (s { arms with cnt := [0, 1, 0, 0] } [last])).updThresher 0 fun t => { t with routes := [⟨1, 0x0010000000000000, 0x8000000000000000, 0, 0, 0, 0, 0⟩] }
       ((List.range 4).filter fun x => [0, 1, 0, 0].getD x 0 != 0) = [1] ∧ destPeer ((far.dies[(0 : Fin 2)]).destOf 1) = 1 ∧ (far.dies[(0 : Fin 2)]).self = 0 ∧
         (s hashLayer [last]).severed 0 hashLayer.ring 16 = false ∧
         ({ s hashLayer [last] with pkg := { State.reset.pkg with d2dLost := true } } : State).severed 1 hashLayer.ring 16 = true) ∧
      ([⟨7, 3, 2⟩].find? fun o : Override => o.token == e.token && o.layer == hashLayer.index) = some ⟨7, 3, 2⟩ ∧
      (s hashLayer [⟨7, 3, false, 6, []⟩]).ringFits hashLayer 1 = true ∧ ¬ 2 ^ 15 ≤ ((6 : BitVec 16) - hashLayer.cur).toNat := by
  decide +kernel

/-! ### Witnesses: the fabric -/

/-- A packet leaves by a port. -/
def isPort : Hop → Bool | .port _ => true | _ => false
theorem exists_port {h : Hop} (e : isPort h = true) : ∃ p, h = .port p := by
  cases h with | port p => exact ⟨p, rfl⟩ | here => exact absurd e (by decide) | none => exact absurd e (by decide)

/-- A load of 8 bytes into a register, and a task with it in its queue. -/
def fabricLoad : FCmd := fabricCmd .ld { task with fs := task.fs.set 3 0x100 }
def loading : Context := { task with fabric := [fabricLoad] }

/-- The item of a command of a bank alone that is to be sent: at home, to a peer by a link and by none, held, and failed. -/
theorem witness_FabricItemsAndAnswers_send :
    let i : FItem := ⟨0, 8, .waiting, 0, none, []⟩
    (loading.fabric[0]? = some fabricLoad ∧ loading.canSend 0 = true ∧ (coreOn loading).cancelled false = false ∧ fabricLoad.items.find? FItem.waits = some i ∧ fabricLoad.kind ≠ 2 ∧
      fabricLoad.circ = false ∧ fabricLoad.access = .read) ∧
      ((tabled nearLeaf (withTask loading)).aim 0 loading .read fabricLoad.va 8 = (8, .home 0x10000 nearLeaf) ∧
        (tabled nearLeaf (withTask loading)).severed 0 0x10000 8 = false ∧ gateOf [(0x10000, 8, nearLeaf)] = none ∧ (gateOf [(0x10000800000, 8, nearLeaf)]).isSome = true) ∧
      (let s := inRing 1 (tabled farLeaf (withTask loading))
       s.pkg.frz = 0 ∧ s.aim 0 loading .read fabricLoad.va 8 = (8, .away 1 0) ∧ (1 : BitVec 12) ≠ (s.dies[(0 : Fin 2)]).self ∧
        (∃ p, s.hop 0 (fabricLoad.packetHead (s.dies[(0 : Fin 2)]).self 1 (clusterOf 0) loading.partId (s.nextTx 0) 0 8) = .port p)) ∧
      (let s := inRing 2 (tabled farLeaf (withTask loading))
       s.aim 0 loading .read fabricLoad.va 8 = (8, .away 2 0) ∧
        s.hop 0 (fabricLoad.packetHead (s.dies[(0 : Fin 2)]).self 2 (clusterOf 0) loading.partId (s.nextTx 0) 0 8) = .none) ∧
      (tabled 0 (withTask loading)).aim 0 loading .read fabricLoad.va 8 = (8, .held 1 none) ∧
      (tabled farLeaf (withTask loading)).aim 0 loading .read fabricLoad.va 8 = (8, .fail none) := by
  exact ⟨by decide +kernel, by decide +kernel, ⟨rfl, by decide +kernel, by decide +kernel, exists_port (by decide +kernel)⟩, by decide +kernel⟩

/-- A command whose item is done; and an item in flight since time 0, that an answer names, before and after 1 ms. -/
def inFlight : Context :=
  { task with fabric := [{ fabricLoad with items := [⟨0, 8, .sent 0, 6, some 1, []⟩] }] }

theorem witness_FabricItemsAndAnswers_end :
    let f : FCmd := { fabricLoad with items := [⟨0, 8, .done, 6, some 1, [1, 2, 3, 4, 5, 6, 7, 8]⟩] }
    let x : Context := { task with fabric := [f] }
    let k : Core := { coreOn x with bc := 1 }
    (x.canFinish 0 0 = true ∧ k.awake f.loadTiles = true ∧ f.loadTiles = [] ∧ f.issue < k.bc ∧ f.op ≠ .fence ∧ k.badWords = []) ∧
      (withTask inFlight).itemBank 1 7 = none ∧ (withTask inFlight).itemBank 1 6 = some (0, false) ∧
      (withTask inFlight).itemSince 1 6 = some 0 ∧ (withTask inFlight).now < 0 + 2700000 ∧ 2700000 ≤ ({ withTask inFlight with now := 2700000 } : State).now - 0 := by
  decide +kernel

/-- A load of a tile that is given back, which the fabric owns of the bank and which is another's; an `fx.add` whose old value reaches a
register, and whose item has failed; the tables of a page in error. -/
theorem witness_FabricItemsAndAnswers_tiles :
    let f : FCmd := { fabricCmd .ld { staged with fs := staged.fs.set 3 0x20000 } with items := [⟨0, 16, .done, 6, some 1, List.replicate 16 1⟩] }
    let x : Context := { task with fabric := [f] }
    let k (o : BitVec 3) : Core := { engineCore x o [] with bc := 2 }
    let add (st : ItemState) : FCmd := { fabricCmd .add { task with fs := task.fs.set 3 0x900 } with ty := 11, items := [⟨0, 4, st, 6, some 1, [0, 0, 0, 128]⟩] }
    let lost : State := { tabled nearLeaf (withTask loading) with pkg := { State.reset.pkg with badLines := [32] } }
    (x.canFinish 0 0 = true ∧ f.loadTiles = [0] ∧ f.issue + 2 ≤ (k 6).bc ∧ (k 6).awake f.loadTiles = true ∧ f.granaryCells.length = 16 ∧
      (((k 6).tile (tileOf 0)).owner == 6 && ((k 6).tile (tileOf 0)).giver == false) = true ∧ (((k 1).tile (tileOf 0)).owner == 6) = false) ∧
      (∀ st ∈ [ItemState.done, .failed 5], (add st).op.atomic = true ∧ (add st).enabled = true ∧ (add st).rdest = 1 ∧ (add st).sreg ≠ 0 ∧
        ({ task with fabric := [add st] } : Context).canFinish 0 0 = true) ∧
      lost.aim 0 loading .read fabricLoad.va 8 = (8, .lost) := by
  decide +kernel

/-- Sends to an expert, here and at a peer, and without an entry; an atomic of a type that is no float, on memory good and in error. -/
def expertSend (p : Option (BitVec 12)) : FCmd :=
  { fabricCmd .st { task with fs := task.fs.set 2 0x8000000000000000 } with items := [⟨0, 8, .waiting, 0, p, []⟩], data := some (List.replicate 8 0) }
def expert (p : Option (BitVec 12)) : Context := { task with fabric := [expertSend p] }

theorem witness_FabricItemsAndAnswers_expert :
    (∀ p, (expert p).fabric[0]? = some (expertSend p) ∧ (expertSend p).items.find? FItem.waits = some ⟨0, 8, .waiting, 0, p, []⟩) ∧
      (expertSend none).kind = 2 ∧ (expert (some 1)).canSend 0 = true ∧ ((inRing 1 State.reset).dies[(0 : Fin 2)]).self = 0 := by
  exact ⟨fun _ => ⟨rfl, rfl⟩, by decide +kernel, by decide +kernel, by decide +kernel⟩

theorem witness_FabricItemsAndAnswers_atomic :
    atomicKnown 0 12 = true ∧ (12 : BitVec 5) ≠ 0 ∧ State.reset.memBad 0x10000 (atomicSize 12) = false ∧ 0x10000 % atomicSize 12 = 0 ∧
      State.reset.memoryWf = true ∧ State.reset.barnWf = true ∧ (∀ j < atomicSize 12, hasMemory (0x10000 + j) = true) ∧
      ((Leaf.ofWord nearLeaf).fmt = 0 ∧ (Leaf.ofWord 0x11F3F).fmt = 31 ∧ (Leaf.ofWord 0x1013F).fmt = 1 ∧ 0x10000 % 4 = 0 ∧
        State.reset.memBad 0x10000 4 = false) ∧
      ({ State.reset with pkg := { State.reset.pkg with badLines := [512] } } : State).memBad 0x10000 (atomicSize 12) = true := by
  decide +kernel

/-- A request to a die's target list; the window it names, grants and not; the pages behind it. -/
def storeRequest : TReq := ⟨0x11, 0, 1, 3, 2, 9, 0, 0, 0, 8, 0, 0, 4, [1, 2, 3, 4], 0, 0, none, false⟩
def targeted (r : TReq) (s : State) : State :=
  s.updDie 0 fun d => { d with target := [r], winbase := [(0, 0x8000000000000000)], winctl := [(0, 0x17)] }

theorem witness_TargetAgent :
    let load : TReq := { storeRequest with kind := 0x10, data := [] }
    let s := targeted storeRequest (tabled nearLeaf State.reset)
    (s.pkg.frz = 0 ∧ (s.dies[(0 : Fin 2)]).target[0]? = some storeRequest ∧ storeRequest.refused = false ∧ storeRequest.held = none ∧
      (∀ e ∈ (s.dies[(0 : Fin 2)]).target.take 0, storeRequest.follows e = false) ∧ storeRequest.bytes ≤ 4092) ∧
      (s.dies[(0 : Fin 2)]).window? { storeRequest with part := 1 } = none ∧ (s.dies[(0 : Fin 2)]).window? storeRequest = some 8 ∧
      s.resolve 0 0 [] 8 4 .write = .pieces [(0x10008, 4, nearLeaf)] ∧ s.unlinked 0x10008 = false ∧ gateOf [(0x10008, 4, nearLeaf)] = none ∧
      load.kind = 0x10 ∧ s.readPieces [(0x10008, 4, nearLeaf)] = some [0, 0, 0, 0] ∧
      (∀ kind ∈ [0x13, 0x11, 0x14], ({ storeRequest with kind := kind } : TReq).kind = kind) ∧ s.pkg.halted = false ∧
      ({ s with pkg := { s.pkg with halted := true } } : State).pkg.halted = true ∧
      (let bad : State := { s with pkg := { s.pkg with badLines := [512] } }
       s.memBad 0x10008 4 = false ∧ bad.memBad 0x10008 4 = true ∧ bad.resolve 0 0 [] 8 4 .write = .pieces [(0x10008, 4, nearLeaf)]) ∧
      ({ s with pkg := { s.pkg with badLines := [32] } } : State).resolve 0 0 [] 8 4 .write = .fail 2 ∧
      (targeted storeRequest (tabled 0 State.reset)).resolve 0 0 [] 8 4 .write = .held 8 1 ∧
      (targeted storeRequest State.reset).resolve 0 0 [] 8 4 .write = .held 8 4 ∧
      (tabled farLeaf State.reset).resolve 0 0 [] 8 4 .write = .fail 3 := by
  decide +kernel

theorem witness_TargetAgent_hold :
    let r : TReq := { storeRequest with held := some ⟨8, 1⟩ }
    let s := inRing 1 (targeted r State.reset)
    let m : FHead := { dpeer := r.speer.toNat, dloc := r.sloc.toNat, type := 0x1A, speer := 0, sloc := r.dloc.toNat, part := r.part.toNat, cong := 0, cls := r.cls.toNat, circ := false, circid := 0, xtag := 0, tx := r.tx, atop := 0, atype := 0, mode := 0, status := 0, target := r.target.toNat, opnd := 0, cmpv := 0 }
    s.pkg.frz = 0 ∧ (s.dies[(0 : Fin 2)]).target = [r] ∧ r.held = some ⟨8, 1⟩ ∧ r.speer ≠ (s.dies[(0 : Fin 2)]).self ∧ ((s.dies[(0 : Fin 2)]).self = 0) ∧
      (∃ p, s.hop 0 m = .port p) := by
  intro r s m
  exact ⟨rfl, by decide +kernel, rfl, by decide +kernel, by decide +kernel, exists_port (by decide +kernel)⟩
/-! ### Witnesses: the Sieve -/

/-- A good frame of 64 bytes, the header of one from edge port 48, and a state whose program runs on such headers. -/
def frame : List Byte := List.replicate 60 0 ++ leBytes 4 (frameCheck (List.replicate 60 0)).toNat
def header : Packet := packetStart 48 0 0 false frame
def headed (ps : List Packet) : State :=
  { State.reset.updCluster 12 fun k => { k with headers := ps } with prog := ⟨12, 0, 3, 0⟩ }

/-- A running header; a region of no size and one of some; entries to a peer, to no one, of another partition and of this module. -/
theorem witness_SievePrimitives_header :
    let s := (headed [header]).updCluster 12 fun k => { k with stages := k.stages.set 3 { k.stages[3] with regions := [⟨0, 8, 4, 1⟩] } }
    let e (dest ctrl : Word) : REntry := ⟨0, dest, ctrl, 0, 0, 0, 0, 0⟩
    let u (r : REntry) : Option REntry := ((s.updThresher (clusterDie 12) fun t => { t with routes := [r] }).dies[clusterDie 12]).entry? 0
    (s.pkg.frz = 0 ∧ s.header? = some header ∧ header.hv.length = 128) ∧ (((headed [header]).progStage header).region header.part).cells = 0 ∧
      (((headed [header]).progStage header).region header.part).pairs = 0 ∧ ((s.progStage header).region header.part).cells ≠ 0 ∧ ((s.progStage header).region header.part).pairs ≠ 0 ∧
      (s.dies[clusterDie 12]).entry? 0 = none ∧ u (e 0x0010000000000000 0x8000000000000000) = some (e 0x0010000000000000 0x8000000000000000) ∧
      ((e 0x0010000000000000 0x8000000000000000).valid = true ∧ (e 0x0010000000000000 0x8000000000000000).part = header.part ∧
        destPeer 0x0010000000000000 ≠ (s.dies[clusterDie 12]).self) ∧
      (e 0 0).valid = false ∧ (e 0 0x8100000000000000).part ≠ header.part ∧ destPeer 0 = (s.dies[clusterDie 12]).self := by
  decide +kernel

/-- Seven and eight effects deferred; a payload that fits at the edge of its tile and one that does not, one of no whole words;
and both profiles. -/
theorem witness_SievePrimitives_defer :
    let e : Effect := ⟨0x1B, 0, 0, 0, 0, 1⟩
    let p (n : Nat) (bytes : Nat) : Packet := { packetStart 48 0 0 false (List.replicate (bytes + 4) 0) with effects := List.replicate n e }
    (∀ q, (headed [q]).pkg.frz = 0 ∧ (headed [q]).header? = some q) ∧ (p 7 60).effects.length < 8 ∧ 8 ≤ (p 8 60).effects.length ∧
      (p 7 60).paylen = 60 ∧ 24516 + (p 7 60).paylen ≤ 24576 ∧ 24576 < 24517 + (p 7 60).paylen ∧ (p 7 60).paylen % 4 = 0 ∧ (p 7 61).paylen % 4 ≠ 0 ∧
      { p 7 60 with sys := true }.sys = true ∧ (p 7 60).sys = false := by
  refine ⟨fun q => ⟨rfl, rfl⟩, by decide +kernel⟩

/-- A cluster of edge ports whose port 0 takes packets, of a partition with a parser that accepts at once, and with none; an error. -/
def parsing (accept : BitVec 512) (cfg start : Word) : State :=
  State.reset.updCluster 12 fun k => { k with parser := [(0, accept)], portcfg := k.portcfg.set 0 cfg, pstart := k.pstart.set 0 start }

theorem witness_SieveEvents_parse :
    let accepts : BitVec 512 := 0x7E <<< 128
    let v := Visit.mk header.hv [] 0
    (12 ≤ (12 : Fin 16).val ∧ 64 ≤ frame.length ∧ frame.length ≤ 9216) ∧
      (((parsing accepts 1 0x40).clusters[(12 : Fin 16)]).portcfg[(0 : Fin 4)] = 1 ∧ (1 : Word).getLsbD 0 = true ∧ (0 : Word).getLsbD 0 = false) ∧
      (((parsing accepts 1 0x40).clusters[(12 : Fin 16)]).pstart[(0 : Fin 16)] = 0x40 ∧ (0x40 : Word).getLsbD 6 = true ∧ (0 : Word).getLsbD 6 = false) ∧
      parseFrom ((parsing accepts 1 0x40).clusters[(12 : Fin 16)]).parserState frame 32 0 v = some v ∧
      ((parsing accepts 1 0x40).pkg.halted = false ∧ ({ State.reset with pkg := { State.reset.pkg with halted := true } } : State).pkg.halted = true ∧
        (parsing accepts 1 0x40).parserBad 12 = false ∧
        ((parsing accepts 1 0x40).updCore (coreOf 12 0) fun k => { k.giveTile 0 7 false 0 with badWords := [0] }).parserBad 12 = true) ∧
      parseFrom ((parsing (0x7F <<< 128) 1 0x40).clusters[(12 : Fin 16)]).parserState frame 32 0 v = none := by
  decide +kernel

/-- Visits: an extraction of the last bytes that fit the header vector and one that does not fit, of bytes that the packet has and has not;
keys that a transition names and that none names; an advance, and one beyond the packet; the next states 0, 63, 64 and 0x7E. -/
theorem witness_SieveEvents_visits :
    let v := Visit.mk header.hv [] 0
    let ext (off len dest : Nat) : BitVec 512 := BitVec.ofNat 512 (2 ^ 31 + off * 2 ^ 23 + (len - 1) * 2 ^ 19 + dest * 2 ^ 12)
    let go (key next : Nat) : BitVec 512 := BitVec.ofNat 512 (2 ^ 191 + next * 2 ^ 184 + key * 2 ^ 160 + 255 * 2 ^ 135 + 0x7F * 2 ^ 128)
    v.hv.length = 128 ∧ min 256 (frame.length - 4) = 60 ∧
      ((ext 44 16 96).getLsbD 31 = true ∧ (extract frame 60 (ext 44 16 96) 0 v).isSome = true ∧ extract frame 60 (ext 45 16 96) 0 v = none ∧
        extract frame 60 (ext 44 16 97) 0 v = none ∧ extract frame 60 0 0 v = some v) ∧
      (nextState (go 0 5) 0 = 5 ∧ nextState (go 1 5) 0 = 0x7F) ∧
      (∀ next ∈ [0, 63, 64, 0x7E], ∃ w, visit frame (go 0 next) v = some (w, next)) ∧
      visit frame (BitVec.ofNat 512 (60 * 2 ^ 152)) v = none ∧ visit frame (BitVec.ofNat 512 (2 ^ 311 + 60 * 2 ^ 303)) v = none ∧
      ((visit frame (BitVec.ofNat 512 (61 * 2 ^ 312)) v).map fun r => r.1.cur) = some 61 := by
  intro v ext go
  exact ⟨by decide +kernel, by decide +kernel, by decide +kernel, by decide +kernel,
    fun next h => ⟨{ v with cur := 0 }, by revert next; decide +kernel⟩, by decide +kernel, by decide +kernel, by decide +kernel⟩

/-- Lookups of each kind of table that hit and that miss, with a default program and with none; two tables of a stage, not in their order;
programs of two words, of a word that is none, and on a header that is decided. -/
theorem witness_SieveEvents_lookups :
    let hv : List Byte := 7 :: List.replicate 127 0
    let t (kind : TableKind) (deflt : Nat) (es : List SEntry) : STable := ⟨0, true, kind, 0, [(0, 1)], 16, deflt, es⟩
    let e (key plen hi prog : Nat) : SEntry := ⟨key, plen, hi, prog, 0⟩
    let two : List STable := [{ t .exact 4 [] with index := 1 }, t .exact 5 []]
    let st : Stage := { tables := two, programs := [], regions := [], cells := [], pairs := [] }
    (hv.length = 128 ∧ ∀ p ∈ [(0, 1), (127, 1)], p.1 + p.2 ≤ 128) ∧
      ((t .exact 9 [e 7 0 0 1]).lookup 0 hv = some (1, 0) ∧ (t .exact 9 [e 6 0 0 1]).lookup 0 hv = some (9, 0) ∧ (t .exact 1023 []).lookup 0 hv = none) ∧
      ((t .longest 9 [e 0 0 0 1, e 4 6 0 2, e 0 5 0 3]).lookup 0 hv = some (2, 0) ∧ (t .range 9 [e 8 0 9 1, e 0 0 7 2, e 7 0 7 3]).lookup 0 hv = some (2, 0) ∧
        (t .direct 9 [e 7 0 0 1]).lookup 0 hv = some (1, 0) ∧ ({ t .direct 9 [] with cap := 4 } : STable).lookup 0 hv = some (9, 0)) ∧
      ((t .exact 9 []).lookup 1 hv = none ∧ ({ t .exact 9 [] with valid := false } : STable).lookup 0 hv = none) ∧
      (let table (n : Fin 4) : Option STable := if n = 0 then some (t .exact 5 []) else if n = 1 then some { t .exact 4 [] with index := 1 } else none
       (∀ n, (st.tables.filter fun t => t.index == n) = (table n).toList) ∧ st.lookups 0 hv = [(5, 0), (4, 0)]) ∧
      (let mark (l : Bool) : Word := ((encodePrim (.actMark l 1)).getD 0)
       let s := headed [header]
       s.header? = some header ∧ header.fate = .flowing ∧ ({ header with fate := .dropped } : Packet).fate ≠ .flowing ∧ s.pkg.frz = 0 ∧
         (decodePrim (mark false) matches .ok (.actMark false 1)) ∧ (mark false).getLsbD 57 = false ∧ (mark true).getLsbD 57 = true ∧
         (decodePrim (-1) matches .error _) = true) := by
  decide +kernel

/-- A fabric packet of some type for a peer. -/
def fabricOf (dpeer type : Nat) : List Byte :=
  fabricPacket { dpeer := dpeer, dloc := 0x12, type := type, speer := 3, sloc := 1, part := 0, cong := 0, cls := 0, circ := false, circid := 0, xtag := 0, tx := 9, atop := 0, atype := 0, mode := 0, status := 0, target := 0, opnd := 0, cmpv := 0 } [1, 2, 3, 4]

/-- Packets on a torus port: too short, for a peer, and for this module with a payload for the tenant, for a unit, and for none. -/
theorem witness_SieveEvents_torus :
    let h (bs : List Byte) := FHead.ofBytes (bs.take (68 + pktDlen bs))
    (frame.length < 68 ∧ 4092 < pktDlen (List.replicate 68 0xFF)) ∧ (State.reset.clusters[(0 : Fin 16)]).sysParser = [] ∧
      (∀ ty ∈ [1, 0x10, 0x18, 0x20, 2], 68 ≤ (fabricOf 0 ty).length ∧ pktDlen (fabricOf 0 ty) = 4 ∧ (h (fabricOf 0 ty)).dpeer = 0 ∧ (h (fabricOf 0 ty)).type = ty) ∧
      (h (fabricOf 5 1)).dpeer ≠ ((State.reset.dies[clusterDie 0]).self).toNat ∧ ((State.reset.dies[clusterDie 0]).self).toNat = 0 := by
  decide +kernel

/-- A header that no lookup of its stage hits, and one that a table's default program of one word acts on. -/
theorem witness_SieveEvents_stage :
    let st : Stage := { tables := [⟨0, true, .exact, 0, [(0, 1)], 4, 5, []⟩], programs := [⟨0, 5, [0x4600000000000000]⟩], regions := [], cells := [], pairs := [] }
    let s := State.reset.updCluster 12 fun k => { k with headers := [header], stages := k.stages.set 0 st }
    let k := s.clusters[(12 : Fin 16)]
    (s.tableError 12 header 0 = false ∧ k.headers[0]? = some header ∧ header.fate = .flowing ∧ k.laneClear 0 header = true ∧ header.stage < 16 ∧ header.sys = false ∧ k.bufferFull 0 false = false) ∧
      (let sysP : Packet := { header with sys := true }
       (s.updCluster 12 fun k => { k with sysBad := 1 }).tableError 12 sysP 0 = true ∧ ((s.updCluster 12 fun k => { k with sysBad := 1 }).clusters[(12 : Fin 16)]).sysBad.getLsbD 0 = true ∧
         (s.updCore (coreOf 12 0) fun k => { k.giveTile 0 7 false 0 with badWords := [0] }).tableError 12 header 0 = true) ∧
      ((State.reset.clusters[(12 : Fin 16)]).stages[(0 : Fin 16)]).lookups header.part header.hv = [] ∧
      (k.stages[(0 : Fin 16)]).lookups header.part header.hv = [(5, 0)] ∧ (k.stages[(0 : Fin 16)]).program header.part 5 = [0x4600000000000000] ∧
      decodePrim 0x4600000000000000 = .ok (.actDrop true 0) ∧ ∃ u, exec (.actDrop true 0) { s with prog := ⟨12, 0, 0, 0⟩ } = .next u := by
  refine ⟨by decide +kernel, by decide +kernel, by decide +kernel, by decide +kernel, by decide +kernel, by decide +kernel, ⟨_, rfl⟩⟩

/-- Headers at the end of the stages: dropped, with no disposition, taken in, sent to a port of their own partition and of another's, and
with a tail that has failed. -/
theorem witness_SieveEvents_disposition :
    let at_ (disp port : Byte) (tail : Option Bool) : Packet := { header with hv := (header.hv.set 117 disp).set 113 port, tail := tail, stage := 16 }
    let bit (disp : Byte) (n : Nat) : Bool := (hvGet (at_ disp 0 none).hv 117 1).testBit n
    let s (p : Packet) : State := State.reset.updCluster 12 fun k => { k with headers := [p] }
    (bit 4 2 = true ∧ bit 0 2 = false ∧ bit 0 0 = false ∧ bit 0 1 = false ∧ bit 2 1 = true ∧ bit 1 0 = true) ∧
      (∀ p ∈ [at_ 1 48 none, at_ 1 48 (some false), at_ 3 0xFE none], hvGet p.hv 113 1 < 64 ∨ hvGet p.hv 113 1 = 0xFE) ∧
      hvGet (at_ 1 64 none).hv 113 1 = 64 ∧ (s (at_ 1 48 none)).edgeForeign (at_ 1 48 none) = false ∧
      (s { at_ 1 48 none with part := 2 }).edgeForeign { at_ 1 48 none with part := 2 } = true := by
  decide +kernel

/-- Headers with a good tail and a bad one that wait for it; a failed tail that calls for a notice; batches with nothing before them and behind
a header, with a key twice and a record that no rule allows. -/
theorem witness_SieveEvents_tail :
    let p : Packet := { header with effects := [⟨0x1C, 0, 0, 0, 7, 1⟩] }
    let bad : Packet := { p with packet := List.replicate 64 1 }
    let far : Packet := { packetStart 0 0 3 true (fabricOf 0 1) with fate := .flowing }
    (p.tail = none ∧ p.tailGood = true) ∧ (bad.tail = none ∧ bad.tailGood = false ∧ bad.fabric = false ∧ bad.out = none) ∧
      (far.fabric = true ∧ (FHead.ofBytes far.packet).type = 1 ∧ (FHead.ofBytes far.packet).dpeer = 0) ∧
      (let r : BatchRec := ⟨6, 0, 0, [1, 0, 0, 0, 2, 0, 0, 0]⟩
       let add : BatchRec := ⟨3, 0, 0, [1]⟩
       let w := State.reset.updCluster 12 fun k => { k with batches := [⟨0, [r], 0, 0⟩] }
       let v := w.updCluster 12 fun k => { k with headers := [header] }
       let x : Cluster := { State.reset.clusters[(12 : Fin 16)] with
         stages := (State.reset.clusters[(12 : Fin 16)]).stages.set 0 { (State.reset.clusters[(12 : Fin 16)]).stages[0] with tables := [⟨0, true, .exact, 0, [(0, 1)], 4, 5, []⟩] } }
       w.pkg.frz = 0 ∧ (w.clusters[(12 : Fin 16)]).batches = ⟨0, [r], 0, 0⟩ :: [] ∧ (w.clusters[(12 : Fin 16)]).quiet = true ∧
         (v.clusters[(12 : Fin 16)]).quiet = false ∧ x.keyBytes add = some 1 ∧ State.reset.clusters[(12 : Fin 16)].keyBytes add = none ∧ duplicateKey 1 [add] add = true ∧ duplicateKey 1 [] add = false) := by
  decide +kernel

/-- The next commit of a lane: with an effect that its check refuses, at a tile with a CLOSED crib and at another, and with one that lowers a
signal; a system packet of each kind. -/
theorem witness_CommitsTakeEffect_lane :
    let p (e : Effect) : Packet := { header with effects := [e], tail := some true, fate := .absorb }
    let s (q : Packet) : State := State.reset.updCluster 12 fun k => { k with headers := [q] }
    let sig : Effect := ⟨0x1C, 0, 0, 0, 7, 1⟩
    let bump : Effect := ⟨0x1B, 0, 0, 2, 0, 1⟩
    let shut := (s (p bump)).updCluster 12 fun k => k.setCrib 2 { Crib.idle with state := 3 }
    let ok := (s (p sig)).updCluster 12 fun k => { k with signals := [⟨0, 7, 0x10000⟩] }
    let sysOf (ty : Nat) (tail : Bool) : Packet := { packetStart 0 0 3 true (fabricOf 0 ty) with sys := true, effects := [⟨0x20, 0, 0, 0, 0, 0⟩], tail := some tail, fate := .absorb }
    (State.reset.pkg.frz = 0 ∧ (State.reset.clusters[(12 : Fin 16)]).nextCommit false = none) ∧
      (((s (p sig)).clusters[(12 : Fin 16)]).nextCommit false = some (p sig, 0) ∧ (s (p sig)).effectsAwake 12 (p sig) = true ∧
        ((p sig).effects.find? fun e => !(s (p sig)).effectOk 12 (p sig) e) = some sig) ∧
      ((shut.updCore (coreOf 12 0) fun k => { k with quarters := k.quarters.set 0 .gated }).effectsAwake 12 (p bump) = false ∧ (let w := shut
        w.effectsAwake 12 (p bump) = true ∧ (w.clusters[(12 : Fin 16)]).nextCommit false = some (p bump, 0) ∧
          ((p bump).effects.find? fun e => !w.effectOk 12 (p bump) e) = some bump ∧ bump.onTile = true ∧ ((w.clusters[(12 : Fin 16)]).crib bump.place).state = 3)) ∧
      ((ok.clusters[(12 : Fin 16)]).nextCommit false = some (p sig, 0) ∧ (∀ e ∈ (p sig).effects, ok.effectOk 12 (p sig) e = true) ∧
        (ok.clusters[(12 : Fin 16)]).signal? (p sig).part 7 = some 0x10000 ∧ ok.severed (clusterDie 12) 0x10000 8 = false ∧
        ({ ok with pkg := { ok.pkg with d2dLost := true } } : State).severed 1 0x10000 8 = true) ∧
      (∀ q ∈ [sysOf 0x10 true, sysOf 0x18 true, sysOf 0x18 false, sysOf 0x19 true, sysOf 0x1A true, sysOf 0x20 true],
        ((s q).clusters[(12 : Fin 16)]).nextCommit true = some (q, 0) ∧ (s q).effectsAwake 12 q = true) := by
  decide +kernel

/-- Effects that pass their check: a payload and elements into an OPEN crib, with a word in error under them and without; a count at its
threshold and below it. -/
theorem witness_CommitsTakeEffect_effects :
    let q : Packet := packetStart 48 0 0 false (List.replicate 68 0)
    let s (mode : BitVec 2) (bad : List Nat) : State :=
      ((State.reset.updCluster 12 fun k => k.setCrib 2 { Crib.idle with state := 2, mode := mode }).updCore (coreOf 12 0) fun k =>
        { k.giveTile 2 5 false 0 with badWords := bad })
    let e (op : BitVec 6) : Effect := ⟨op, 0, 0, 2, 16, 1⟩
    let k := ((s 0 []).clusters[(12 : Fin 16)])
    (∀ op ∈ [(0x18 : BitVec 6), 0x19, 0x1A, 0x1B], ∀ mode ∈ [(0 : BitVec 2), 1, 2], ∀ bad ∈ [[], [3073]], (s mode bad).effectOk 12 q (e op) = true ∧
        Memory.wf ((s mode bad).cores[coreOf 12 0]).granary = true) ∧
      (q.paylen % 4 = 0 ∧ 0 < q.paylen ∧ (24576 * 2 + 16) / 16 = 3073 ∧ (16 : Nat) % 4 = 0 ∧ (k.crib 2).mode ≠ 3) ∧
      (let c (count : BitVec 16) : Crib := { Crib.idle with state := 2, thr := 3, count := count }
       (c 3).state = 2 ∧ (c 3).thr ≠ 0 ∧ (c 3).thr.toNat ≤ (c 3).count.toNat ∧ ¬ (c 2).thr.toNat ≤ (c 2).count.toNat) := by
  decide +kernel
/-! ### Witnesses: tasks, pre-emption, the fault service -/

/-- A kernel of one tile, a launch of one task by it, the task, and a lease of the kernel. -/
def kernel0 : Kernel :=
  { kdesc := 0x1000, entry := 0x2000, trape := 0, got := 0, segs := [], tiles := 1, matrix := false, nlock := 0, npre := 0, savemax := 0, part := 0 }
def launch0 : Launch :=
  { lid := 1, queue := 0, cmd := none, part := 0, kernel := kernel0, record := 0, ntask := 1, gang := 1, prio := 3, chk := false, live := 0, signal := 0, failslot := 0, stack := 0, sstride := 0, graph := 0, phase := 0, save := 0, savesz := 0, deps := [], args := [], out := 1, failn := 0, lost := false, begun := true, bound := none, crib := none, cancel := false }
def task0 (st : TaskState) : Task :=
  { id := 0, lid := 1, index := 0, state := st, prio := 3, firstReady := 0, prioSince := 0, placedAt := 0, image := none }

/-- A module whose core 0 serves partition 0 with the lease, and whose Granger 0 has that launch and some tasks. -/
def granted (ts : List Task) (k : Core) : State :=
  let s := onCore { k with leases := [⟨0, 0x1000, 0⟩] }
  { s.updGranger 0 fun g => { g with launches := [launch0], tasks := ts } with pkg := { s.pkg with partmap := s.pkg.partmap.set 0 0x80 } }

/-- A READY task that alone fits an empty core; a task at its end, without a launch and with one, its crib CLOSED and to be armed again or
not; and tasks that age and that do not. -/
theorem witness_TasksComeAndGo :
    let s := granted [task0 .ready] Core.reset
    let x : Context := { task with status := .ending 0 0 0 0 }
    let u := granted [task0 (.placed 0 false)] (coreOn x)
    let r : CribRef := ⟨0, 2, 0⟩
    let v (rearm : Bool) : State := ((granted [task0 (.placed 0 false)] ((coreOn x).giveTile 2 1 false 0)).updGranger 0 fun g =>
      { g with launches := [{ launch0 with crib := some r }] }).updCluster 0 fun k => k.setCrib 2 { Crib.idle with state := 3, rearm := rearm }
    (s.pkg.frz = 0 ∧ s.freeBank 0 = some false ∧ firstOf (s.candidates 0) = some (task0 .ready, launch0) ∧ launch0.gang < 2 ∧ (task0 .ready).image = none ∧
      launch0.begun = true ∧ launch0.kernel.npre = 0) ∧
      ((u.cores[(0 : Fin 256)]).ctx? false = some x ∧ x.drained = true ∧ (0 : Nat) ≠ 9 ∧ x.cancel = false ∧ x.wain = [] ∧ x.fabric = [] ∧
        (u.cores[(0 : Fin 256)]).matrix.queue = [] ∧ u.bankLaunch x = some launch0 ∧ (withTask x).bankLaunch x = none ∧
        (u.cores[(0 : Fin 256)]).ctx? true = none ∧ (u.granger 0).tasks.find? (fun t => t.id == x.task) = some (task0 (.placed 0 false)) ∧
        (u.granger 0).launch? 1 = some launch0) ∧
      (∀ b ∈ [true, false], (v b).bankLaunch x = some { launch0 with crib := some r } ∧ ((v b).clusters[clusterOf 0].crib r.place).state = 3 ∧
        ((v b).clusters[clusterOf 0].crib r.place).rearm = b ∧ r.place % 64 ∈ ((v b).cores[(0 : Fin 256)]).bankTiles false) ∧
      ((task0 .ready).state = .ready ∧ (task0 .ready).prio ≠ 7 ∧ min ((5400000 - (task0 .ready).prioSince) / 5400000) (7 - (task0 .ready).prio.toNat) = 1 ∧
        min ((5399999 - (task0 .ready).prioSince) / 5400000) (7 - (task0 .ready).prio.toNat) = 0) := by
  decide +kernel

/-- A gang of two whose members are READY, with a barrier context and two cores free; and one saved, whose images say which tiles it had. -/
def gang0 : State :=
  let l : Launch := { launch0 with ntask := 2, gang := 2 }
  let s := (granted [task0 .ready, { task0 .ready with id := 1, index := 1 }] Core.reset).updGranger 0 fun g => { g with launches := [l] }
  { s with pkg := { s.pkg with partmap := s.pkg.partmap.set 1 0x80 } }

theorem witness_TasksComeAndGo_gang :
    let l : Launch := { launch0 with ntask := 2, gang := 2 }
    let t1 : Task := { task0 .ready with id := 1, index := 1 }
    gang0.pkg.frz = 0 ∧ gang0.freeBank 0 = some false ∧ firstOf (gang0.candidates 0) = some (task0 .ready, l) ∧ 2 ≤ l.gang ∧
      (gang0.granger 0).gangBy (task0 .ready) l = some [task0 .ready, t1] ∧
      gang0.gangPlace 0 l [task0 .ready, t1] = some (0, [(0, false, task0 .ready), (1, false, t1)]) ∧ (gang0.clusters[(0 : Fin 16)]).freeBarrier = some 0 := by
  decide +kernel

/-- A saved task that fits its old tiles; a member of a barrier at its end; a task that ends with a failed token, and one without. -/
theorem witness_TasksComeAndGo_saved :
    let im : Saved := ⟨0, false, [(0, 1)], [], false, 0, none⟩
    let t : Task := { task0 .ready with image := some im }
    let s := granted [t] Core.reset
    let x : Context := { task with status := .ending 0 0 0 0, barrier := some 0 }
    let u : State := (granted [task0 (.placed 0 false)] (coreOn x)).updCluster 0 fun k => { k with barriers := k.barriers.set 0 (some ⟨1, 0, [0, 1], 0, [0]⟩) }
    let f : Context := { task with k := task.k.set 5 ⟨0, true, 3⟩ }
    (s.freeBank 0 = some false ∧ firstOf (s.candidates 0) = some (t, launch0) ∧ (im.owners.map (·.1)).Nodup) ∧
      ((u.cores[(0 : Fin 256)]).ctx? false = some x ∧ (u.clusters[(0 : Fin 16)]).barriers[(0 : Fin 4)] = some ⟨1, 0, [0, 1], 0, [0]⟩ ∧ x.task = 0 ∧ clusterDie 0 = x.taskDie) ∧
      (f.failedToken = some 5 ∧ task.failedToken = none) := by
  decide +kernel

/-- A bank at its end beside one that runs, with the first failure of a launch of graph 5 and phase 2 and a FAILSLOT; a gang's barrier whose other
members hold a bank, are on their way back, and neither; a launch bound to the crib of its trigger. -/
theorem witness_TasksComeAndGo_beside :
    let x : Context := { task with status := .ending 0 0 0 1, barrier := some 0 }
    let z : Context := { task with task := 1, barrier := some 0 }
    let l : Launch := { launch0 with graph := 5, phase := 2, failslot := 64, bound := some ⟨0, 2, 0⟩ }
    let s (other : Option Context) (ts : List Machine.Task) : State :=
      ((granted (task0 (.placed 0 false) :: ts) { coreOn x with ctxB := other }).updGranger 0 fun g =>
        { g with launches := [l], graphs := [⟨5, 0, false, 0, 1, false, 0⟩], phases := [⟨2, 0, false, 0, 1, false, 0⟩] }).updCluster 0 fun k =>
          { k with barriers := k.barriers.set 0 (some ⟨1, 0, [0, 1], 0, [0]⟩) }
    let back : Machine.Task := { task0 (.restoring 3 false) with id := 1, image := some ⟨0, false, [], [], false, 0, some 0⟩ }
    (((s (some z) []).cores[(0 : Fin 256)]).ctx? (!false) = some z ∧ z.cancel = false ∧ z.atEnd = false ∧ z.barrier = some 0 ∧ x.drained = true ∧ x.cancel = false) ∧
      ((s none []).cores[(0 : Fin 256)]).ctx? (!false) = none ∧ (∀ c : Fin 256, c ≠ 0 → (s none []).cores[c].ctxA = none ∧ (s none []).cores[c].ctxB = none) ∧
      (back ∈ ((s none [back]).granger 0).tasks ∧ back.state = .restoring 3 false ∧ (back.image.bind fun im => im.barrier) = some 0 ∧ clusterOf 3 = 0) ∧
      (([0, 1] : List Nat).filter (· != x.task) ≠ [] ∧ ([0] : List Nat).filter (· != x.task) = []) ∧
      (((s none []).granger 0).launch? 1 = some l ∧ l.graph ≠ 0 ∧ l.phase ≠ 0 ∧ l.failn = 0 ∧ l.failslot ≠ 0 ∧ ∀ e : Fin 2, ((s none []).granger e).cmds = []) ∧
      ((∃ r, x.ended 0 false 0 0 0 1 = .failed r) ∧ x.ended 0 false 0 0 0 0 = .completed) ∧
      (l.bound = some ⟨0, 2, 0⟩ ∧ (0 : Fin 256).val = 16 * (8 * (coreDie 0).val + 0) + 2 / 64 % 16) := by
  intro x z l s back
  refine ⟨by decide +kernel, by decide +kernel, by decide +kernel, by decide +kernel, by decide +kernel, by decide +kernel, ⟨⟨_, rfl⟩, by decide +kernel⟩, by decide +kernel⟩

/-- A bank asked for; a running one and a suspended one. -/
theorem witness_PreemptAndResume_banks :
    let x (st : BankStatus) : Context := { task with preempt := true, status := st }
    let s (st : BankStatus) := granted [task0 (.placed 0 false)] (coreOn (x st))
    ∀ st ∈ [BankStatus.running, .suspended 8 1], (s st).pkg.frz = 0 ∧ ((s st).cores[(0 : Fin 256)]).ctx? false = some (x st) ∧
      ((s st).cores[(0 : Fin 256)]).preemptable ((s st).dies[(0 : Fin 2)]).self false (x st) = true ∧
      ((s st).granger 0).tasks.find? (fun t => t.id == (x st).task) = some (task0 (.placed 0 false)) ∧ ((s st).granger 0).launch? 1 = some launch0 ∧ coreDie 0 = 0 := by
  decide +kernel

/-- Results that wait, one for each KIND of the latch bank, and a latch bank that holds entries and flags; a dependence that is lost. -/
theorem witness_PreemptAndResume_latch :
    let v (n : BitVec 5) : RegWrite := .v n ⟨1, 0⟩ ⟨1, 0⟩
    let kinds : List (List RegWrite) := [[.s 3 ⟨7, 0⟩], [v 0], [v 0, v 1], [v 0, v 1, v 2, v 3], [.p 7 1 1], [.latches [none, none, none, some ⟨1, 0, 0, false⟩]]]
    let x : Context := { task with pend := kinds.map fun ws => ⟨0, 3, 0, [], ws, 1, false, none⟩ }
    let k : Core := { coreOn x with snapA := ⟨[⟨3, 0, 1, 2, 0, [.s 3 ⟨7, 0⟩], false⟩], Vector.replicate 15 2⟩ }
    k.ctx? false = some x ∧ (x.pend.filter fun p => !p.writes.isEmpty).map (·.writes) = kinds ∧ (k.snap false).entries.length = 1 ∧
      (∀ n : Fin 15, (k.snap false).flags[n] ≠ 0) ∧ ({ (⟨8, 0, false⟩ : Dep) with lost := true } : Dep).lost = true := by
  decide +kernel

/-- A task that is restored into a bank, with the image of its save area: the registers and the latch bank at 0, one tile, no engine. -/
def saved0 : Saved := ⟨0, false, [(0, 1)], [], false, 0, none⟩
def savedTask : Machine.Task := { task0 (.restoring 0 false) with image := some saved0 }
def savedLaunch : Launch := { launch0 with savesz := 448 }
def imageBytes0 : List Byte :=
  leBytes 4 428 ++ List.replicate 60 0 ++ (List.replicate 26 0x7F ++ [0x5C, 0xC0]) ++ (1 :: List.replicate 63 255) ++ List.replicate 15 0 ++ List.replicate 256 0 ++ [0xC0]
def restoring : State :=
  let s := tabled nearLeaf ((granted [savedTask] { Core.reset with bc := 1 }).updGranger 0 fun g => { g with launches := [savedLaunch] })
  { s with mem := s.mem ++ (cellsAt 0x10000 imageBytes0).filter fun c => c.2 != 0 }
def headRead : State := (restoring.grRead 0 (.image 0) 0 0 64).1

theorem image_head : (restoring.grRead 0 (.image 0) 0 0 64).2 = .bytes (imageBytes0.take 64) := by decide +kernel

/-- The page is in use by then, and whichever translation is taken, it is the same. -/
theorem image_leaf : headRead.currentLeaf 0 0 0 = .leaf 0x1003F 3 := by
  have en : (!((headRead.dies[(0 : Fin 2)]).troot[(0 : BitVec 4).toFin]).getLsbD 0) = false := by decide +kernel
  have used : (headRead.dies[(0 : Fin 2)]).tlb = [⟨0, 0, 0x1003F, 3, true⟩] := by decide +kernel
  have walked : headRead.walk 0 0 0 = .leaf 0x1003F 3 := by decide +kernel
  simp only [State.currentLeaf, en, used, walked]
  rcases Nat.mod_two_eq_zero_or_one (Config.translationChoice headRead.free (0 / 65536)) with e | e <;> simp [e]

theorem image_page : headRead.resolve 0 0 [] 0 428 .read = .pieces [(0x10000, 428, 0x1003F)] := by
  have parts : pageParts 20 0 428 = [(0, 428)] := by decide +kernel
  have leaf : leafAccess 0x1003F 3 0 .read = .phys 0x10000 0x1003F := by decide +kernel
  have here : headRead.severed 0 0x10000 428 = false := by decide +kernel
  simp only [State.resolve, findExtent, parts, List.foldl, image_leaf, leaf, List.nil_append, List.any_cons, List.any_nil, here, List.find?_nil, Option.isSome_none,
    Bool.or_self]
  rfl

theorem image_bytes : (headRead.cachePages 0 0 0 428).readPieces [(0x10000, 428, 0x1003F)] = some imageBytes0 := by decide +kernel

theorem witness_PreemptAndResume_image : (restoring.readImage 0 savedTask savedLaunch).2 = .bytes imageBytes0 := by
  have e : (restoring.readImage 0 savedTask savedLaunch).2 = (headRead.grRead 0 (.image 0) 0 0 428).2 := by
    show (match (restoring.grRead 0 (.image 0) 0 0 64).2 with
      | .bytes bs => if leNat (bs.take 4) < 64 || 448 < leNat (bs.take 4) then (headRead, Got.bad) else headRead.grRead 0 (.image 0) 0 0 (leNat (bs.take 4))
      | r => (headRead, r)).2 = _
    rw [image_head]
    rfl
  rw [e, State.grRead, State.reach]
  simp only [image_page, image_bytes]

theorem witness_PreemptAndResume_decodes :
    (match decodeImage ((restoring.readImage 0 savedTask savedLaunch).1.imageBase 0 savedTask savedLaunch saved0) false imageBytes0 with
      | some m => m.fits saved0 saved0.owners | none => false) = true := by
  decide +kernel

/-- The rest of a restore: the core awake, and asleep; and an image whose save area is too short for it. -/
theorem witness_PreemptAndResume_restore :
    let short := (restoring.updGranger 0 fun g => { g with launches := [{ savedLaunch with savesz := 64 }] })
    (restoring.pkg.frz = 0 ∧ (restoring.granger 0).tasks.find? (fun u => u.id == savedTask.id) = some savedTask ∧ savedTask.state = .restoring 0 false ∧
      savedTask.image = some saved0 ∧ (restoring.granger 0).launch? savedTask.lid = some savedLaunch ∧ coreDie 0 = 0 ∧
      (restoring.cores[(0 : Fin 256)]).awake (saved0.owners.map (·.1)) = true) ∧
      ((restoring.updCore 0 fun k => { k with quarters := k.quarters.set 0 .gated }).cores[(0 : Fin 256)]).awake (saved0.owners.map (·.1)) = false ∧
      (short.readImage 0 savedTask { savedLaunch with savesz := 64 }).2 = .bad ∧
      ((granted [savedTask] Core.reset).readImage 0 savedTask savedLaunch).2 = .held := by
  decide +kernel

theorem witness_PreemptAndResume_victim :
    let x : Context := { task with begun := true }
    let v := task0 (.placed 0 false)
    let p : Task := { task0 .ready with id := 1, prio := 4 }
    let k : Core := { coreOn x with tiles := (coreOn x).tiles.set 0 ⟨1, false, 0, 0⟩, ctxB := some { x with task := 9, begun := false } }
    let s : State := { granted [v, p] k with now := 270000 }
    s.pkg.frz = 0 ∧ (s.victims 0).find? (fun w => w.2.1 == 0 && w.2.2 == false) = some (v, 0, false) ∧ (s.granger 0).gangMates v = [v] ∧
      v.state = .placed 0 false ∧ (((s.granger 0).ready s.now).any fun q => !s.served 0 q && s.isVictimOf 0 (v, 0, false) q) = true ∧
      ((granted [v] k).granger 0).ready 0 = [] := by
  decide +kernel

/-- A suspended task whose signal can be read, at its threshold and above it; a quarter free for 100 µs, and one that is not. -/
def signalled (thr : Word) : State := tabled nearLeaf (granted [task0 (.suspended 8 thr)] Core.reset)

theorem witness_PreemptAndResume_signal :
    (signalled 0).pkg.frz = 0 ∧ ((signalled 0).granger 0).launches = [launch0] ∧ launch0.deps = [] ∧ ((signalled 0).granger 0).tasks = [task0 (.suspended 8 0)] ∧
      (task0 (.suspended 8 0)).lid = launch0.lid ∧ ((signalled 0).grSignal 0 (.signal 0) launch0.part 8).2 = .bytes [0, 0, 0, 0, 0, 0, 0, 0] ∧
      ((signalled (-1)).granger 0).tasks = [task0 (.suspended 8 (-1))] ∧ ((signalled (-1)).grSignal 0 (.signal 0) launch0.part 8).2 = .bytes [0, 0, 0, 0, 0, 0, 0, 0] ∧
      (word (leNat [0, 0, 0, 0, 0, 0, 0, 0])).toInt ≤ (0 : Word).toInt ∧ ¬ (word (leNat [0, 0, 0, 0, 0, 0, 0, 0])).toInt ≤ (-1 : Word).toInt := by
  decide +kernel

theorem witness_PreemptAndResume_deps :
    let p : Dep := ⟨8, 0, false⟩
    let l : Launch := { launch0 with deps := [p] }
    let s := (signalled 0).updGranger 0 fun g => { g with launches := [l], tasks := [task0 .queued] }
    (s.granger 0).launches = [l] ∧ l.deps = [p] ∧ p.lost = false ∧ (∀ t ∈ (s.granger 0).tasks, t.state = .ready ∨ t.state = .queued) ∧
      (s.grSignal 0 (.deps l.lid) l.part 8).2 = .bytes [0, 0, 0, 0, 0, 0, 0, 0] := by
  decide +kernel

theorem witness_PreemptAndResume_held : ((granted [task0 (.suspended 8 0)] Core.reset).grSignal 0 (.signal 0) 0 8).2 = .held := by decide +kernel

theorem witness_PreemptAndResume_quarter :
    let s : State := { granted [] { Core.reset with quarters := Core.reset.quarters.set 1 .awake } with now := 270000 }
    let u := granted [] { Core.reset with tiles := Core.reset.tiles.set 16 ⟨1, false, 0, 0⟩ }
    let ts := (List.range 16).map fun j => 16 * (1 : Fin 4).val + j
    (s.cores[(0 : Fin 256)]).quarters[(1 : Fin 4)] = .awake ∧ (∀ t ∈ ts, ((s.cores[(0 : Fin 256)]).tile t).owner = 0 ∧ ((s.cores[(0 : Fin 256)]).tile t).since + 270000 ≤ s.now) ∧
      s.neededHere 0 ts = false ∧ 16 ∈ ts ∧ ((u.cores[(0 : Fin 256)]).tile 16).owner ≠ 0 := by
  decide +kernel

/-- Sections, records and commands that the image keeps: words that fill a section, every kind of record, a task with locks, latch entries,
commands and an engine within their sizes. -/
theorem witness_ImageKeepsTheTask :
    let x : Context := { task with locks := [64] }
    let e : LatchEntry := ⟨3, 0, 1, 2, 0, [.s 3 ⟨7, 0⟩], false⟩
    let c := wainCmd .copy task
    let f : FCmd := { fabricLoad with items := [⟨0, 8, .waiting, 0, none, []⟩], data := some [1] }
    let m := { Matrix.reset with active := { Matrix.reset.active with bad := [63] } }
    ((List.replicate 32 (5 : Byte)).length % 16 = 0) ∧
      (([1] : List Byte).length < 16 ∧ (0x01 : Byte).toNat / 64 = 0 ∧ (0x7F : Byte).toNat / 64 = 1 ∧ (0x80 : Byte).toNat / 64 = 2 ∧ (0xC1 : Byte).toNat / 64 = 3 ∧
        (decodeWords 2 none [0xC0, 9] = some ([], [9])) ∧ (decodeWords 2 (some (List.replicate 16 0)) [0xC0, 9] = some ([], [9]))) ∧
      (x.locks.length ≤ 32 ∧ (∀ a ∈ x.locks, a < 2 ^ 52) ∧ x.tvec &&& 0xFFFFFFFFFFFFC = x.tvec ∧ x.tcause &&& 0x1FFF = x.tcause ∧
        task.partId = x.partId ∧ task.tindex = x.tindex) ∧
      (e.writes = [.s 3 ⟨7, 0⟩] ∧ e.kind = 0 ∧ e.reg = 3 ∧ e.checked = false) ∧
      (let w (n : BitVec 5) : BitVec 5 × VVal × VVal := (n, ⟨1, 0⟩, ⟨1, 0⟩)
       (∀ vs ∈ [[w 3], [w 4, w 5], [w 0, w 1, w 2, w 31]], (vs.map fun w => w.1).Nodup) ∧ ([w 3].map (fun w => w.1)) = [(3 : BitVec 5)] ∧
         (BitVec.ofNat 5 (2 * (7 : BitVec 3).toNat) = 14) ∧ ([none, none, none, some ⟨1, 0, 0, true⟩] : List (Option Latch)).length = 4) ∧
      (c.regs.length < 256 ∧ c.images.length < 256 ∧ c.gate.length < 2 ^ 32 ∧ c.item < 2 ^ 32) ∧
      (f.items.length < 65536 ∧ (∀ b, f.data = some b → b.length < 65536) ∧ (∀ i ∈ f.items, i.off < 65536 ∧ i.len < 65536 ∧ i.data.length < 65536)) ∧
      (∀ n ∈ m.active.bad ++ m.shadow.bad, n < 64) := by
  refine ⟨by decide, by decide +kernel, by decide +kernel, by decide, by decide, by decide +kernel, ⟨by decide +kernel, fun b h => ?_, by decide +kernel⟩, by decide +kernel⟩
  rw [← Option.some.inj h]
  decide

/-- An outstanding request with a bank that waits on its page; answers to it and to none. -/
theorem witness_FaultAnswersAndInvalidation_answers :
    let x : Context := { task with status := .faultWaiting 1 0x20008 1 2 }
    let f : FaultReq := ⟨3, 1, 2, 0, 1, 1⟩
    let s := (withTask x).updDie 0 fun d => { d with faults := [f] }
    s.pkg.frz = 0 ∧ (s.dies[(0 : Fin 2)]).answered? (word ((1 * 4096 + 3) * 2 ^ 32 + 1)) = some f ∧
      (s.dies[(0 : Fin 2)]).answered? (word ((1 * 4096 + 3) * 2 ^ 32 + 2)) = some f ∧ (s.dies[(0 : Fin 2)]).answered? 1 = none ∧
      (word ((1 * 4096 + 3) * 2 ^ 32 + 1)).toNat % 4 = 1 ∧ (word ((1 * 4096 + 3) * 2 ^ 32 + 2)).toNat % 4 = 2 ∧
      (∀ c : Fin 256, ∀ b y, (s.cores[c]).ctx? b = some y → ∀ w ∈ y.wain, w.held = none) ∧
      (∀ g ∈ (s.dies[(0 : Fin 2)]).faults, g.slot ≠ f.slot → ¬ (g.page = f.page ∧ g.part = f.part ∧ g.kind = f.kind)) ∧
      coreDie 0 = 0 ∧ (s.cores[(0 : Fin 256)]).ctx? false = some x ∧ x.status = .faultWaiting 1 0x20008 1 2 ∧ x.partId = f.part ∧
      (0x20008 : Word).toNat / 65536 = f.page ∧ (1 : BitVec 3).toNat = f.kind := by
  refine ⟨rfl, by decide +kernel, by decide +kernel, by decide +kernel, by decide +kernel, by decide +kernel, ?_, by decide +kernel⟩
  intro c b y h w hw
  have all : ∀ c : Fin 256, ∀ b : Bool, ((((withTask { task with status := .faultWaiting 1 0x20008 1 2 }).updDie 0 fun d => { d with faults := [⟨3, 1, 2, 0, 1, 1⟩] }).cores[c]).ctx? b).all
    (fun y => y.wain.isEmpty) = true := by decide +kernel
  have := all c b
  rw [h] at this
  simp only [Option.all_some, List.isEmpty_iff] at this
  simp [this] at hw

/-- What waits on that page beside a bank: an item of a bank that has nothing else held, a request of the target agent, a read of the Granger; and
the clocks stopped. -/
theorem witness_FaultAnswersAndInvalidation_held :
    let h : HeldFault := ⟨0x20008, 0⟩
    let f : FaultReq := ⟨3, 1, 2, 0, 1, 1⟩
    let x : Context := { task with status := .heldWaiting, fabric := [{ fabricLoad with items := [⟨0, 8, .held h, 0, none, []⟩] }] }
    let r : TReq := { storeRequest with held := some h }
    let g : GHold := ⟨.front 0, 2, 0, 1, false⟩
    let s := ((withTask x).updDie 0 fun d => { d with faults := [f], target := [r] }).updGranger 0 fun k => { k with holds := [g] }
    let v := word ((1 * 4096 + 3) * 2 ^ 32 + 1)
    (s.pkg.frz = 0 ∧ (s.dies[(0 : Fin 2)]).answered? v = some f ∧ coreDie 0 = 0 ∧ (s.cores[(0 : Fin 256)]).ctx? false = some x ∧ x.partId = f.part ∧ x.status = .heldWaiting) ∧
      (h.addr / 65536 = f.page ∧ h.kind.toNat + 1 = f.kind ∧ ∀ cmd ∈ x.fabric, ∀ item ∈ cmd.items, item.state = .held h) ∧
      ((s.dies[(0 : Fin 2)]).target[0]? = some r ∧ r.held = some h ∧ r.part = f.part) ∧
      (g ∈ (s.granger 0).holds ∧ g.part = f.part ∧ g.page = f.page ∧ g.kind = f.kind) ∧
      ({ s with pkg := { s.pkg with frz := 3 } } : State).pkg.frz ≠ 0 ∧ ((State.reset.dies[(0 : Fin 2)]).troot[(0 : BitVec 4).toFin]).getLsbD 0 = false := by
  decide +kernel

/-- A Wain command that is held on the page, alone of its kind; a failed boot; a leaf of the tables. -/
theorem witness_FaultAnswersAndInvalidation_wain :
    let h : HeldFault := ⟨0x20008, 0⟩
    let f : FaultReq := ⟨3, 1, 2, 0, 1, 1⟩
    let w : WCmd := { wainCmd .copy staged with started := true, held := some h }
    let x : Context := { staged with wain := [w] }
    let s := (withTask x).updDie 0 fun d => { d with faults := [f] }
    (s.pkg.frz = 0 ∧ s.pkg.halted = false ∧ (s.dies[(0 : Fin 2)]).answered? (word ((1 * 4096 + 3) * 2 ^ 32 + 1)) = some f ∧
      (s.dies[(0 : Fin 2)]).answered? (word ((1 * 4096 + 3) * 2 ^ 32 + 2)) = some f ∧ coreDie 0 = 0 ∧ (s.cores[(0 : Fin 256)]).ctx? false = some x ∧
      x.partId = f.part ∧ x.wain = w :: [] ∧ w.held = some h ∧ h.addr / 65536 = f.page ∧ h.kind.toNat + 1 = f.kind) ∧
      ((s.cores[(0 : Fin 256)]).ctx? true = none ∧ ∀ c : Fin 256, c ≠ 0 → s.cores[c].ctxA = none ∧ s.cores[c].ctxB = none) ∧
      ({ s with pkg := { s.pkg with halted := true } } : State).pkg.halted = true ∧ (tabled nearLeaf State.reset).walk 0 0 8 = .leaf nearLeaf 3 ∧ (8 : Nat) < 2 ^ 52 := by
  intro h f w x s
  refine ⟨by decide +kernel, by decide +kernel, by decide +kernel⟩

/-- A running invalidation that nothing holds up, with and without WB, and one behind an item in flight. -/
theorem witness_FaultAnswersAndInvalidation_invalidate :
    let run (x : Context) (wb : Bool) : State := (withTask x).updDie 0 fun d => { d with invRun := some ⟨0, 2, 1, wb⟩ }
    (∀ wb ∈ [false, true], (run task wb).pkg.frz = 0 ∧ ((run task wb).dies[(0 : Fin 2)]).invRun = some ⟨0, 2, 1, wb⟩ ∧ (run task wb).inUse 0 0 = false) ∧
      (run inFlight false).inUse 0 0 = true := by
  decide +kernel
/-! ### Witnesses: queues, cribs, launches, the Thresher -/

/-- A command at the front of queue 0 of die 0, whose packet begins with some bytes; the module with it. -/
def cmdOf (bs : List Byte) : QCmd := ⟨0, 1, bs ++ List.replicate (64 - bs.length) 0, 0, 0, 0, true, false⟩
def fronted (c : QCmd) : State := tabled nearLeaf (State.reset.updGranger 0 fun g => { g with cmds := [c] })

/-- A queue that is stopped and idle, running, and stopped with a command in hand. -/
theorem witness_QueuesAndFrontCommands_queue :
    ((State.reset.queue 0 0).en = false ∧ (State.reset.granger 0).active 0 = false ∧ (1 : Word).getLsbD 0 = true ∧ (0 : Word).getLsbD 0 = false) ∧
      ((deviceQueue 0 State.reset).queue 0 0).en = true ∧ ((fronted (cmdOf [1])).granger 0).active 0 = true := by
  decide +kernel

/-- Queues whose ring is ready: a packet that is malformed, one that is not, one that cannot be read; and one that is not ready. -/
theorem witness_QueuesAndFrontCommands_fetch :
    let q (s : State) := s.updQueue 0 0 fun q => { q with en := true, qtail := 1 }
    let s (m : List Host.Cell) : State := let u := tabled nearLeaf (q State.reset)
      { u with mem := u.mem ++ m }
    let u := (s []).queue 0 0
    (u.en = true ∧ u.stuck = false ∧ u.size.toNat ≤ 12 ∧ u.qhead < u.qtail ∧ ((s []).granger 0).front? 0 = none ∧ ((s []).granger 0).cmds = [] ∧ (s []).pkg.halted = false ∧ (s []).pkg.frz = 0) ∧
      ((s []).grRead 0 (.front 0) u.part 0 64).2 = .bytes (List.replicate 64 0) ∧
      ((s [(0x10000, 2)]).grRead 0 (.front 0) u.part 0 64).2 = .bytes (2 :: List.replicate 63 0) ∧
      ((q State.reset).grRead 0 (.front 0) u.part 0 64).2 = .held ∧ ((s []).grRead 0 (.front 0) u.part (2 ^ 52) 64).2 = .bad ∧
      (State.reset.queue 0 0).en = false := by
  decide +kernel

/-- A journal that can be written, and one that cannot; a signal that can be lowered. -/
theorem witness_QueuesAndFrontCommands_journal :
    let c := cmdOf [1]
    let s := fronted c
    s.resolve 0 (s.queue 0 0).part [] 0 32 .write = .pieces [(0x10000, 32, 0x1003F)] ∧ (s.queue 0 0).jbase = 0 ∧
      (∀ ps, State.reset.resolve 0 0 [] 0 32 .write ≠ .pieces ps) ∧
      (s.memoryWf = true ∧ (8 : Nat) % 8 = 0 ∧ 0x10008 % 8 = 0 ∧ physKind 0x10008 = .hbm 0 ∧ s.resolve 0 0 [] 8 8 .write = .pieces [(0x10008, 8, 0x1003F)] ∧ s.memBad 0x10008 8 = false) := by
  refine ⟨by decide +kernel, by decide +kernel, ?_, by decide +kernel⟩
  have h : State.reset.resolve 0 0 [] 0 32 .write = .held 0 4 := by decide +kernel
  intro ps e
  rw [h] at e
  injection e

/-- The front holds a command of each type: a LAUNCH, a WAIT at its threshold and above it, a SIGDEC alone and behind another. -/
theorem witness_QueuesAndFrontCommands_signals :
    let w (thr : Byte) := cmdOf ([2, 0, 0, 0, 0, 0, 0, 0, 8, 0, 0, 0, 0, 0, 0, 0] ++ List.replicate 8 thr)
    let d := cmdOf [3, 0, 0, 0, 0, 0, 0, 0, 8]
    let s := (fronted d).updGranger 0 fun g => { g with cmds := [{ d with idx := 0, front := false }, d] }
    ((fronted (cmdOf [1])).pkg.frz = 0 ∧ ((fronted (cmdOf [1])).granger 0).front? 0 = some (cmdOf [1]) ∧ (cmdOf [1]).queue = 0 ∧ (cmdOf [1]).type = 1) ∧
      ((w 0).type = 2 ∧ ((fronted (w 0)).grSignal 0 (.front 0) ((fronted (w 0)).queue 0 0).part ((w 0).get 8 8)).2 = .bytes [0, 0, 0, 0, 0, 0, 0, 0] ∧
        (0 : Int) ≤ (word ((w 0).get 16 8)).toInt ∧ ¬ (0 : Int) ≤ (word ((w 255).get 16 8)).toInt) ∧
      (d.type = 3 ∧ (s.granger 0).decs = [] ∧ (∃ x ∈ (s.granger 0).cmds, x.queue = 0 ∧ x.idx < d.idx)) ∧ (∀ x ∈ ((fronted d).granger 0).cmds, x.queue = 0 → d.idx ≤ x.idx) := by
  decide +kernel

/-- A CANCEL of a launch whose one task is READY, and of one whose task runs. -/
theorem witness_QueuesAndFrontCommands_cancel :
    let c := cmdOf [4, 0, 0, 0, 0, 0, 0, 0, 1, 0, 0, 0, 1]
    let s (t : Machine.Task) := ((granted [t] (coreOn { task with begun := true })).updGranger 0 fun g => { g with cmds := [c] }).updQueue 0 0 fun q => { q with qhead := 2 }
    let r := task0 .ready
    let p := task0 (.placed 0 false)
    (∀ t ∈ [r, p], ((s t).granger 0).front? 0 = some c ∧ c.type = 4 ∧ c.get 8 1 < 4 ∧ ((s t).granger 0).cancelObject 0 (c.get 8 1) (c.get 12 4) (c.get 16 4) = true ∧
      ((s t).granger 0).named 0 (c.get 8 1) (c.get 12 4) (c.get 16 4) = [(t, launch0)] ∧ c.idx < ((s t).queue 0 0).qhead) ∧
      (r.state = .ready ∧ r.image = none ∧ launch0.crib = none) ∧
      (p.state = .placed 0 false ∧ ((s p).cores[(0 : Fin 256)]).ctx? false = some { task with begun := true } ∧ task.wain = []) := by
  decide +kernel

/-- A CANCEL of a task with a Wain command that runs, one that has not started and a matrix command that has not, and of one at its end; a failed
boot. -/
theorem witness_QueuesAndFrontCommands_cancelRun :
    let x : Context := { staged with begun := true, wain := [{ copyCmd with started := true }, copyCmd] }
    let k : Core := engineCore x 1 [mZero staged]
    let s (y : Context) : State := granted [task0 (.placed 0 false)] { k with ctxA := some y }
    let e : Context := { x with status := .ending 0 0 0 0 }
    (((s x).cores[(0 : Fin 256)]).ctx? false = some x ∧ x.begun = true ∧ x.atEnd = false ∧ (∀ w ∈ x.wain, w.held = none) ∧
      ((s x).cores[(0 : Fin 256)]).matrix.queue = [mZero staged] ∧ (mZero staged).started = false ∧ (mZero staged).bank = false ∧
      (x.wain.filter fun w => !w.started).length = 1) ∧
      (((s e).cores[(0 : Fin 256)]).ctx? false = some e ∧ e.atEnd = true) ∧
      ({ State.reset with pkg := { State.reset.pkg with halted := true } } : State).pkg.halted = true ∧ State.reset.pkg.halted = false := by
  decide +kernel

/-- A CANCEL that names nothing; a COUNTER that opens a free counter and one in use, and one that closes; a TEMPLATE; a TABLEUPD. -/
theorem witness_QueuesAndFrontCommands_objects :
    let cancel := cmdOf [4, 0, 0, 0, 0, 0, 0, 0, 1, 0, 0, 0, 5]
    let opens := cmdOf [5, 0, 0, 0, 0, 0, 0, 0, 2, 0, 0, 0, 5]
    let closes := cmdOf [5, 0, 0, 0, 0, 0, 0, 0, 2, 1, 0, 0, 5]
    let template := cmdOf [9, 0, 0, 0, 0, 0, 0, 0, 7]
    let k : Counter := ⟨5, 0, false, 0, 0, false, 0⟩
    (cancel.type = 4 ∧ (fronted cancel).pkg.frz = 0 ∧ ((fronted cancel).granger 0).cancelObject 0 (cancel.get 8 1) (cancel.get 12 4) (cancel.get 16 4) = false) ∧
      (opens.type = 5 ∧ counterNamed opens = true ∧ opens.get 9 1 = 0 ∧ (((fronted opens).granger 0).counters (opens.get 8 1)).any (fun k => k.id == opens.get 12 4) = false ∧
        ((((fronted opens).updGranger 0 fun g => { g with graphs := [k] }).granger 0).counters (opens.get 8 1)).any (fun k => k.id == opens.get 12 4) = true) ∧
      (closes.type = 5 ∧ counterNamed closes = true ∧ closes.get 9 1 = 1) ∧
      (template.type = 9 ∧ template.get 8 4 ≤ 1023 ∧ ∃ bs, ((fronted template).grRead 0 (.front 0) ((fronted template).queue 0 0).part (template.get 16 8) 256).2 = .bytes bs) := by
  refine ⟨by decide +kernel, by decide +kernel, by decide +kernel, by decide +kernel, by decide +kernel, ⟨List.replicate 256 0, by decide +kernel⟩⟩

/-- Tables of partition 0 whose pages 0 and 1 are frames 1 and 2; pieces of memory there. -/
def tabled2 (m : List Host.Cell) (s : State) : State :=
  let u := tabled nearLeaf s
  { u with mem := writeBytes u.mem 0x4008 (leBytes 8 0x2003F) ++ m }

/-- A decrement that is made, and one that waits for its page and is tried again. -/
theorem witness_QueuesAndFrontCommands_decrement :
    let d := cmdOf [3, 0, 0, 0, 0, 0, 0, 0, 8, 0, 1]
    let s := tabled2 [] (fronted d)
    let u := (State.reset.updGranger 0 fun g => { g with cmds := [d] })
    let h : HeldDec := ⟨0, 0, 8, 1⟩
    let v := u.updGranger 0 fun g => { g with decs := [h] }
    ((s.finishCmd 0 d 3 0).grDecrement 0 (.sigdec 0) (s.queue 0 0).part (d.get 8 8) (word (d.get 16 8))).2 = false ∧
      ((u.finishCmd 0 d 3 0).grDecrement 0 (.sigdec 0) (u.queue 0 0).part (d.get 8 8) (word (d.get 16 8))).2 = true ∧
      ((v.granger 0).decs.find? (fun h => h.queue == 0) = some h ∧ (v.grDecrement 0 (.sigdec 0) h.part h.addr h.amount).2 = true) := by
  decide +kernel

theorem witness_QueuesAndFrontCommands_table :
    let c := cmdOf [8, 0, 0, 0, 0, 0, 0, 0, 0xF0, 0xFF]
    let s := tabled2 [(0x1FFF0, 1), (0x20000, 0xFF)] (fronted c)
    c.type = 8 ∧ (s.granger 0).front? 0 = some c ∧ (s.readBatch 0 (.front 0) (s.queue 0 0).part (c.get 8 8)).2 = .ok (0, [⟨0xFF, 0, 0, []⟩]) := by
  decide +kernel

/-- CRIBARM packets that are malformed and well formed; a tile taken and free; the template, a descriptor, and that it fits. -/
theorem witness_CribCommands_arm :
    let c := cmdOf [6, 0, 0, 0, 0, 0, 0, 0, 0, 0, 2, 0, 4, 0, 7]
    let bad := cmdOf [6, 1]
    let t : Template := ⟨0, 7, List.replicate 256 0, 0⟩
    let u := (fronted c).updGranger 0 fun g => { g with templates := [t] }
    let s : State := { u with pkg := { u.pkg with partmap := u.pkg.partmap.set 0 0x80 } }
    (cribTarget 0 c = some (0, 0, 2) ∧ c.type = 6 ∧  cribTarget 0 bad = some (0, 0, 0) ∧ bad.type = 6 ∧ ((bad.packet.drop 1).take 7).any (· != 0) = true ∧ ((c.packet.drop 1).take 7).any (· != 0) = false ∧ ((c.packet.drop 16).take 48).any (· != 0) = false) ∧
      (((s.cores[(0 : Fin 256)]).tile 2).owner = 0 ∧ ((s.clusters[(0 : Fin 16)]).crib (cribPlace 0 2)).state = 0) ∧
      (((s.updCore 0 fun k => k.giveTile 2 1 false 0).cores[(0 : Fin 256)]).tile 2).owner ≠ 0 ∧
      (s.granger 0).templates.find? (fun t => t.part == (s.queue 0 0).part && t.index == c.get 14 2) = some t ∧
      (s.grRead 0 (.front 0) (s.queue 0 0).part (recNat t.record 0 8) 128).2 = .bytes (List.replicate 128 0) ∧ (s.pkg.partmap[(0 : Fin 256)]).getLsbD 7 = true ∧ recNat (List.replicate 128 0) 42 1 ≤ 32 := by
  decide +kernel

/-- A CRIBDISARM of an OPEN crib of its partition and of another's; zero fills that are over and that are not due. -/
theorem witness_CribCommands_disarm :
    let c := cmdOf [7, 0, 0, 0, 0, 0, 0, 0, 0, 0, 2]
    let opened (p : BitVec 4) : State := (fronted c).updCluster 0 fun k => k.setCrib (cribPlace 0 2) { Crib.idle with state := 2, part := p }
    let filling : State := ((fronted c).updCluster 0 fun k => k.setCrib (cribPlace 0 2) { Crib.idle with state := 1 }).updCore 0 fun k => { k with quarters := k.quarters.set 0 .awake }
    (cribTarget 0 c = some (0, 0, 2) ∧ c.type = 7 ∧ c.nonzero 1 7 = false ∧ c.nonzero 11 53 = false) ∧
      ((((opened 0).clusters[(0 : Fin 16)]).crib (cribPlace 0 2)).part = ((opened 0).queue 0 0).part ∧ (((opened 0).clusters[(0 : Fin 16)]).crib (cribPlace 0 2)).state = 2) ∧
      (((opened 1).clusters[(0 : Fin 16)]).crib (cribPlace 0 2)).part ≠ ((opened 1).queue 0 0).part ∧
      (let k := (filling.clusters[(0 : Fin 16)]).crib (2 : Fin 1024).val
       k.state = 1 ∧ (filling.cores[(0 : Fin 256)]).awake [2] = true ∧ (filling.cores[(0 : Fin 256)]).accessDue 2 = false ∧ k.disarming = false ∧ k.disarm = []) ∧
      (((opened 0).clusters[(0 : Fin 16)]).crib (2 : Fin 1024).val).state ≠ 1 := by
  decide +kernel

/-- A launch record of one task at address 0, of the kernel whose descriptor is at page 1: the device hash and zeros. -/
def recordBytes0 : List Byte := leBytes 8 0x10000 ++ [1] ++ List.replicate 247 0
def asking : QCmd := { cmdOf [1] with asked := true }
def hashBytes : List Byte := leBytes 8 Config.deviceHash.toNat
def launching : State :=
  let u := tabled2 ((0x10002, 1) :: (0x10008, 1) :: cellsAt 0x20030 hashBytes) (fronted asking)
  { u with pkg := { u.pkg with partmap := u.pkg.partmap.set 0 0x80 } }
def ask0 : Ask := ⟨0, some asking, recordBytes0, 0, 0, none⟩
def read0 : State := (launching.grRead 0 (.front 0) 0 0 256).1
def read1 : State := read0.cachePages 0 0 0x10000 128
def descriptor : List Byte := read1.devRead 0x20000 128

theorem launch_reads : launching.pkg.frz = 0 ∧ (launching.granger 0).front? 0 = some asking ∧ asking.type = 1 ∧ asking.asked = true ∧ asking.queue = 0 ∧
    (launching.queue 0 0).part = 0 ∧ asking.get 8 8 = 0 ∧ (launching.grRead 0 (.front 0) 0 0 256).2 = .bytes recordBytes0 ∧ recNat recordBytes0 47 1 % 2 = 0 ∧
    (launching.granger 0).freeLid = some 0 := by
  decide +kernel

theorem descriptor_reads : (read0.grRead 0 (.front 0) 0 0x10000 128).2 = .bytes descriptor := by
  have h1 : read0.resolve 0 0 [] 0x10000 128 .read = .pieces [(0x20000, 128, 0x2003F)] := by decide +kernel
  have h2 : read1.memBad 0x20000 128 = false := by decide +kernel
  have h3 : read1.readPieces [(0x20000, 128, 0x2003F)] = some descriptor := by
    simp only [State.readPieces, List.any_cons, List.any_nil, h2, Bool.or_self, Bool.false_eq_true, ↓reduceIte, List.flatMap_cons, List.flatMap_nil, List.append_nil]
    rfl
  unfold State.grRead State.reach
  rw [h1]
  show (match read1.readPieces [(0x20000, 128, 0x2003F)] with | some bs => (read1.fillPieces [(0x20000, 128, 0x2003F)], Got.bytes bs) | none => (read1, .bad)).2 = _
  rw [h3]

theorem leNat_leBytes8 (h : BitVec 64) : word (leNat (leBytes 8 h.toNat)) = h := by
  apply BitVec.eq_of_toNat_eq
  simp [leBytes, leNat, byte, word]
  omega

theorem read1_mem : read1.mem = launching.mem := by
  have near : ∀ ps, launching.resolve 0 0 [] 0 256 .read = .pieces ps → ∀ p ∈ ps, ∃ e, physKind p.1 = .hbm e := by
    have h : launching.resolve 0 0 [] 0 256 .read = .pieces [(0x10000, 256, 0x1003F)] := by decide +kernel
    intro ps e p hp
    rw [h] at e
    injection e with e
    rw [← e] at hp
    obtain rfl := List.mem_singleton.mp hp
    exact ⟨0, by decide⟩
  exact (read0.cachePages_frame 0 0 0x10000 128).1.trans (State.grRead_hbm launch_reads.2.2.2.2.2.2.2.1 near).1

theorem descriptor_byte {k : Nat} (h : physKind (0x20000 + k) = .hbm 0) : read1.devByte (0x20000 + k) = readCell launching.mem (0x20000 + k) := by
  simp only [State.devByte, h, read1_mem]

theorem descriptor_hash : word (recNat descriptor 48 8) = Config.deviceHash := by
  have e : (descriptor.drop 48).take 8 = hashBytes := by
    show [read1.devByte (0x20000 + 48), read1.devByte (0x20000 + 49), read1.devByte (0x20000 + 50), read1.devByte (0x20000 + 51), read1.devByte (0x20000 + 52), read1.devByte (0x20000 + 53), read1.devByte (0x20000 + 54), read1.devByte (0x20000 + 55)] = hashBytes
    rw [descriptor_byte (by decide), descriptor_byte (by decide), descriptor_byte (by decide), descriptor_byte (by decide), descriptor_byte (by decide), descriptor_byte (by decide), descriptor_byte (by decide), descriptor_byte (by decide)]
    rfl
  show word (leNat ((descriptor.drop 48).take 8)) = _
  rw [e]
  exact leNat_leBytes8 _

theorem witness_LaunchesComeAndGo_accept :
    (read0.verdict 0 ask0).2 = .accepted (kernelOf ask0 descriptor []) [] := by
  have hk : kernelOk 0x10000 descriptor = true := by
    simp only [kernelOk, descriptor_hash, beq_self_eq_true, Bool.and_true]
    decide +kernel
  have hs : (read0.grRead 0 (.front 0) 0 0x10000 128).1.launchStatus 0 ask0 descriptor [] = 0 := by
    rw [State.launchStatus, show recNat ask0.record 0 8 = 0x10000 from by decide +kernel, hk]
    decide +kernel
  have hd : recDeps recordBytes0 = [] := by decide +kernel
  have hn : recNat descriptor 40 1 = 0 := by decide +kernel
  show ((match (read0.grRead 0 (.front 0) 0 0x10000 128).2 with
    | .held => ((read0.grRead 0 (.front 0) 0 0x10000 128).1, Verdict.held)
    | .bad => ((read0.grRead 0 (.front 0) 0 0x10000 128).1, .refused 1)
    | .bytes kb => match ((read0.grRead 0 (.front 0) 0 0x10000 128).1.readDeps 0 (.front 0) 0 (recDeps recordBytes0)).2 with
      | .held => (((read0.grRead 0 (.front 0) 0 0x10000 128).1.readDeps 0 (.front 0) 0 (recDeps recordBytes0)).1, .held)
      | .bad => (((read0.grRead 0 (.front 0) 0 0x10000 128).1.readDeps 0 (.front 0) 0 (recDeps recordBytes0)).1, .refused 1)
      | .ok deps => ((read0.grRead 0 (.front 0) 0 0x10000 128).1.readDeps 0 (.front 0) 0 (recDeps recordBytes0)).1.judge 0 ask0 kb deps).2) = _
  rw [descriptor_reads, hd]
  show ((read0.grRead 0 (.front 0) 0 0x10000 128).1.judge 0 ask0 descriptor []).2 = _
  simp only [State.judge, hn, hs]
  rfl

/-- A record whose address is no multiple of 64 is refused; and a launch whose tasks have all retired. -/
theorem witness_LaunchesComeAndGo_refuse :
    let c : QCmd := { cmdOf [1, 0, 0, 0, 0, 0, 0, 0, 8] with asked := true }
    let s := tabled2 [(0x1000A, 1)] (fronted c)
    let r := s.grRead 0 (.front 0) 0 8 256
    let bs := leBytes 8 0x10000 ++ List.replicate 248 0
    ((s.granger 0).front? 0 = some c ∧ c.asked = true ∧ r.2 = .bytes bs ∧ (s.granger 0).freeLid = some 0) ∧ (r.1.verdict 0 ⟨0, some c, bs, 8, 0, none⟩).2 = .refused 2 := by
  decide +kernel

theorem witness_LaunchesComeAndGo_complete :
    let l : Launch := { launch0 with out := 0 }
    let s := State.reset.updGranger 0 fun g => { g with launches := [launch0, l], graphs := [⟨5, 0, true, 0, 0, false, 0⟩] }
    s.pkg.frz = 0 ∧ l ∈ (s.granger 0).launches ∧ l.out = 0 ∧ l.signal = 0 ∧ launch0.out ≠ 0 ∧
      ⟨5, 0, true, 0, 0, false, 0⟩ ∈ (s.granger 0).graphs := by
  decide +kernel

/-- A launch at its end whose decrement is made, and one whose decrement waits for its page; one whose command is journalled. -/
theorem witness_LaunchesComeAndGo_signal :
    let l : Launch := { launch0 with out := 0, signal := 8 }
    let s := State.reset.updGranger 0 fun g => { g with launches := [l] }
    let c := cmdOf [1]
    let m : Launch := { launch0 with cmd := some 1 }
    ((s.granger 0).launches = [l] ∧ l.out = 0 ∧ l.cmd = none ∧ l.signal ≠ 0 ∧ ((tabled nearLeaf s).grDecrement 0 (.launch 1) l.part 8 1).2 = false ∧
      (s.grDecrement 0 (.launch 1) l.part 8 1).2 = true) ∧
      ((fronted c).granger 0).cmds.find? (fun c => c.queue == m.queue && m.cmd == some c.idx) = some c := by
  decide +kernel

/-- A trigger with its template, and without; a CLOSED crib at its place; and the conditions under which a record and a descriptor are kept. -/
theorem witness_LaunchesComeAndGo_trigger :
    let t : Trigger := ⟨⟨0, 2, 1⟩, 0, 7, 0, 0, 4⟩
    let s (ts : List Template) := (State.reset.updGranger 0 fun g => { g with triggers := [t], templates := ts }).updCluster 0 fun k => k.setCrib 2 { Crib.idle with state := 3 }
    let m : Template := ⟨0, 7, recordBytes0, 0⟩
    (∀ ts ∈ [[], [m]], (s ts).pkg.frz = 0 ∧ ((s ts).granger 0).triggers[0]? = some t ∧ (((s ts).clusters[(0 : Fin 16)]).crib 2).state = 3 ∧
      ((s ts).granger 0).freeLid = some 0) ∧
      ((s []).granger 0).templates.find? (fun m => m.part == t.part && m.index == t.tmpl) = none ∧
      ((s [m]).granger 0).templates.find? (fun m => m.part == t.part && m.index == t.tmpl) = some m ∧ recordBytes0.length = 256 ∧
      ((s [m]).verdict 0 ⟨0, none, triggerRecord t m.record, 0, 0, some t.ref⟩).2 = .held ∧
      ((tabled nearLeaf (s [m])).verdict 0 ⟨0, none, triggerRecord t (List.replicate 256 0), 1, 0, some t.ref⟩).2 = .refused 2 := by
  decide +kernel

/-- Arm requests: no entry, an entry whose queue number or queue cannot take arms, one whose ring is full, and one that is taken up. -/
theorem witness_ThresherCommands_arm :
    let r : ArmReq := ⟨5, 2, 0x10000000000, 0, 0, 0⟩
    let e (q : BitVec 8) : REntry := ⟨5, 0, 0x8000000000000000, 7, q, 0, 0, 0⟩
    let s (q : BitVec 8) (fill : Nat) := (deviceQueue fill State.reset).updThresher 0 fun t => { t with arms := [r], routes := [e q] }
    ((s 0 0).pkg.frz = 0 ∧ r.after ≤ ((s 0 0).thresher 0).tchead ∧ ({ r with after := 1 } : ArmReq).after = ((s 0 0).thresher 0).tchead + 1 ∧ ((s 0 0).thresher 0).tcbase.toNat % 16 = 0 ∧ ((s 0 0).thresher 0).arm = none ∧ ((s 0 0).thresher 0).arms = r :: [] ∧ (State.reset.dies[(0 : Fin 2)]).entry? r.index = none) ∧
      (∀ q ∈ [(0 : BitVec 8), 1, 64], ((s q 0).dies[(0 : Fin 2)]).entry? r.index = some (e q) ∧ (e q).valid = true ∧ (s q 0).namesDie 0 (e q).dest = true) ∧
      (64 ≤ (e 64).queue.toNat ∧ ((s 1 0).queue 0 (e 1).armQueue).takesArms (e 1).part = false) ∧
      ((e 0).queue.toNat < 64 ∧ ((s 0 0).queue 0 (e 0).armQueue).takesArms (e 0).part = true ∧
        2 ^ (((s 0 65536).queue 0 (e 0).armQueue).size.toNat + 4) ≤ ((s 0 65536).queue 0 (e 0).armQueue).qtail - ((s 0 65536).queue 0 (e 0).armQueue).qhead ∧
        ((s 0 65535).queue 0 (e 0).armQueue).qtail - ((s 0 65535).queue 0 (e 0).armQueue).qhead < 2 ^ (((s 0 65535).queue 0 (e 0).armQueue).size.toNat + 4)) := by
  decide +kernel

/-- Requests that are settled, with each status, in a ring, and waiting for room in a queue that has it, has none, and takes no arms. -/
theorem witness_ThresherCommands_armDone :
    let a (st : Option Nat) (p : Option (Fin 64 × Nat)) : ArmRun := ⟨⟨5, 2, 0x10000000000, 0, 0, 0⟩, 0, [], p, st, 0, 0⟩
    let s (st : Option Nat) (p : Option (Fin 64 × Nat)) (fill : Nat) := (deviceQueue fill State.reset).updThresher 0 fun t => { t with arm := some (a st p) }
    (∀ st ∈ [none, some 0, some 1], ∀ p ∈ [none, some (0, 3)], (s st p 0).pkg.frz = 0 ∧ ((s st p 0).thresher 0).arm = some (a st p)) ∧
      ((a none (some (0, 3))).placed = some (0, 3) ∧ (a none none).placed ≠ some (0, 3)) ∧
      ((s none none 0).queue 0 0).takesArms 0 = true ∧ (State.reset.queue 0 0).takesArms 0 = false ∧
      2 ^ (((s none none 65536).queue 0 0).size.toNat + 4) ≤ ((s none none 65536).queue 0 0).qtail - ((s none none 65536).queue 0 0).qhead ∧
      ((s none none 0).queue 0 0).qtail - ((s none none 0).queue 0 0).qhead < 2 ^ (((s none none 0).queue 0 0).size.toNat + 4) := by
  decide +kernel

/-- The Thresher of die 0 with one command at the head of its ring, in the Loft. -/
def ordered (bs : List Byte) (s : State) : State :=
  let u := s.updThresher 0 fun t => { t with tcbase := 0x10000000000, tctail := 1 }
  { u with mem := writeBytes u.mem 0x10000000000 bs }

/-- A LAYER; a ROUTE that is malformed, and one that is not, before and behind a tenant header; an EVICT of an entry and of none; an OVERRIDE that
sets and one that deletes. -/
theorem witness_ThresherCommands_commands :
    let at1 (bs : List Byte) := ordered bs State.reset
    let c (bs : List Byte) := (at1 bs).devRead ((at1 bs).thresher 0).commandAt 64
    (∀ bs ∈ [[(1 : Byte)], [2], [3], [4], List.replicate 16 0 ++ [0], [4] ++ List.replicate 20 0 ++ [1]], ((at1 bs).thresher 0).hasCommand = true) ∧
      (commandOk (c [1]) = true ∧ recNat (c [1]) 0 1 = 1) ∧ (commandOk (c [2]) = true ∧ recNat (c [2]) 0 1 = 2 ∧ routeOk (c [2]) = true) ∧
      (let bad := [2] ++ List.replicate 15 0 ++ [0, 0x10]
       commandOk (c bad) = true ∧ recNat (c bad) 0 1 = 2 ∧ routeOk (c bad) = false) ∧
      ((at1 [1]).pkg.halted = false ∧ (at1 [1]).severed 0 ((at1 [1]).thresher 0).commandAt 64 = false ∧
        ({ at1 [1] with pkg := { State.reset.pkg with d2dLost := true } } : State).severed 1 0x10000000000 64 = true ∧
        ({ at1 [1] with pkg := { State.reset.pkg with links := #v[false, false] } } : State).severed 0 (2 ^ 49) 64 = true) ∧
      ((at1 [2]).dieQuiet 0 = true ∧ ((at1 [2]).updCluster 0 fun k => { k with headers := [header] }).dieQuiet 0 = false) ∧
      (let s := (at1 [3]).updThresher 0 fun t => { t with routes := [⟨0, 0, 0x8000000000000000, 0, 0, 0, 0, 0⟩] }
       commandOk (c [3]) = true ∧ recNat (c [3]) 0 1 = 3 ∧ routeOk (c [3]) = true ∧ ((at1 [3]).dies[(0 : Fin 2)]).entry? (recNat (c [3]) 16 2) = none ∧
        (s.dies[(0 : Fin 2)]).entry? (recNat (c [3]) 16 2) = some ⟨0, 0, 0x8000000000000000, 0, 0, 0, 0, 0⟩ ∧
        (⟨0, 0, 0x8000000000000000, 0, 0, 0, 0, 0⟩ : REntry).valid = true ∧ s.dieQuiet 0 = true) ∧
      (commandOk (c [4]) = true ∧ recNat (c [4]) 0 1 = 4 ∧ recNat (c [4]) 21 1 = 0) ∧
      (let del := [4] ++ List.replicate 20 0 ++ [1]
       commandOk (c del) = true ∧ recNat (c del) 0 1 = 4 ∧ recNat (c del) 21 1 = 1) := by
  decide +kernel

/-- An EVICT whose INUSE word reads 0, and one whose word does not. -/
theorem witness_ThresherCommands_evict :
    let s := (tabled nearLeaf State.reset).updThresher 0 fun t => { t with evict := some ⟨8, 0⟩ }
    (s.pkg.frz = 0 ∧ (s.thresher 0).evict = some ⟨8, 0⟩ ∧ s.signalHome 0 0 (8 : Word).toNat = some 0x10008) ∧ s.devNat 0x10008 8 = 0 ∧
      ({ s with mem := writeBytes s.mem 0x10008 [1] } : State).devNat 0x10008 8 ≠ 0 ∧
      ({ s with mem := writeBytes s.mem 0x10008 [1] } : State).signalHome 0 0 (8 : Word).toNat = some 0x10008 := by
  decide +kernel

/-- An EVICT whose old crib is OPEN, ARMING, IDLE and CLOSED, and of another partition; and an entry that names another die. -/
theorem witness_ThresherCommands_crib :
    let e : REntry := ⟨0, 0, 0x8000000000000000, 0, 0, 0, 0, 0⟩
    let s (st : BitVec 2) (p : BitVec 4) := (State.reset.updThresher 0 fun t => { t with routes := [e] }).updCluster 0 fun k => k.setCrib 0 { Crib.idle with state := st, part := p }
    (∀ st ∈ [(0 : BitVec 2), 1, 2, 3], ∀ p ∈ [(0 : BitVec 4), 1], ((s st p).clusters[(0 : Fin 16)].crib (cribPlace 0 0)).state = st ∧
      ((s st p).clusters[(0 : Fin 16)].crib (cribPlace 0 0)).part = p ∧ (s st p).namesDie 0 e.dest = true) ∧ e.part = 0 ∧ e.valid = true ∧
      State.reset.namesDie 0 0x0008000000000000 = false ∧ commandOk (List.replicate 64 0) = false ∧ 24 ≤ (List.replicate 64 (0 : Byte)).length := by
  decide +kernel
/-! ### Witnesses: the package and the links -/

/-- A write of PARTMAP with nothing that has waited too long; RSTPART idle and busy, with tasks of the partition left and without. -/
def resetting (b : Bool) (s : State) : State := { s with pkg := { s.pkg with rstRun := if b then some 0 else none } }

theorem witness_Partitions :
    (∀ w ∈ State.reset.pkg.partNext, State.reset.coreEmpty w.1 = false) ∧ (1 : Word).getLsbD 4 = false ∧ (0x10 : Word).getLsbD 4 = true ∧
      ((resetting false State.reset).pkg.frz = 0 ∧ (resetting false State.reset).pkg.rstRun = none) ∧
      ((resetting true State.reset).pkg.rstRun = some 0 ∧ (resetting true State.reset).pkg.rstCancel = false ∧ ((resetting true State.reset).granger 0).busy 0 = false ∧
        ((resetting true State.reset).granger 1).busy 0 = false) ∧
      ((resetting true (granted [task0 .ready] Core.reset)).granger 0).busy 0 = true ∧
      ({ State.reset with pkg := { State.reset.pkg with frz := 1 } } : State).pkg.frz ≠ 0 := by
  refine ⟨fun _ h => (nomatch h), by decide, by decide, ⟨rfl, rfl⟩, ⟨rfl, rfl, by decide +kernel, by decide +kernel⟩, by decide +kernel, by decide⟩

theorem witness_Partitions_cores : State.reset.coreEmpty 0 = true ∧ (withTask task).coreEmpty 0 = false := by decide +kernel

/-- A link up and none; the first and last bytes of the Loft, a gate window, a hole and host memory; words of an atomic, and accesses that are
none; the management values at the edges of their fields. -/
theorem witness_HostAccessesAndRegisterWrites :
    let up : State := { State.reset with pkg := { State.reset.pkg with links := State.reset.pkg.links.set 0 true } }
    (up.pkg.frz = 0 ∧ up.pkg.links[0] = true ∧ up.pkg.halted = false ∧ Memory.wf up.mem = true) ∧
      (∀ k < [(1 : Byte), 2].length, physKind (0x10000000000 + k) = .loft ∨ ∃ d, physKind (0x10000000000 + k) = .hbm d) ∧
      ({ State.reset with pkg := { State.reset.pkg with links := #v[false, false] } } : State).pkg.links[0] = false ∧
      (∀ k < [(1 : Byte)].length, physKind (0x8000000000000000 + k) = .none ∨ ∃ d, physKind (0x8000000000000000 + k) = .gate d) ∧
      ((leBytes 8 5).length = 8 ∧ 0x10000000000 % 8 = 0 ∧ (leBytes 4 5).length = 4 ∧ ([1, 2] : List Byte).length = 2 ∧ 0x10000000001 % 8 ≠ 0) ∧
      (∀ k < 8, ∃ d, physKind (0x2000000000000 + k) = .host d) ∧ 0x2000000000000 % 8 = 0 ∧
      (8 * 8191 < 0x10000 ∧ ¬ 8 * 8192 < 0x10000 ∧ (4 ≠ 8 ∧ 0x10004 % 8 ≠ 0)) ∧
      (0 : BitVec 5) = 0 ∧ (31 : BitVec 5) ≠ 0 ∧ (255 : BitVec 8) = 255 ∧ (254 : BitVec 8) ≠ 255 ∧
      64 < (word (65 * 2 ^ 24)).toNat / 2 ^ 24 % 128 ∧ (word (64 * 2 ^ 24)).toNat / 2 ^ 24 % 128 ≤ 64 ∧
      ({ State.reset with pkg := { State.reset.pkg with halted := true } } : State).pkg.halted = true := by
  decide +kernel

theorem witness_HostAccessesAndRegisterWrites_host : ∃ a, ∀ k < [(1 : Byte)].length, ∃ d, physKind (a + k) = .host d := ⟨0x2000000000000, by decide +kernel⟩

/-- Before the boot, after it, and halted; an image that verifies and one that does not, a configuration blob below the floor and at it. -/
theorem witness_BootAndMeasurement :
    let s : State := { State.reset with pkg := { State.reset.pkg with booted := 0, halted := false } }
    let i : BootImage := ⟨2, true, 3, 5, 4, []⟩
    (s.pkg.booted = 0 ∧ s.pkg.halted = false) ∧ ({ s.pkg with booted := 4 } : Package).booted ≠ 0 ∧ ({ s.pkg with halted := true } : Package).halted = true ∧
      ({ i with verified := false } : BootImage).verified = false ∧ (i.verified = true ∧ i.step = 2 ∧ i.version < 4) ∧ ¬ (i.step = 2 ∧ i.version < 3) ∧
      ((0x3 : Word).getLsbD 1 = true ∧ ((State.reset.cores[(0 : Fin 256)]).tiles[(1 : Fin 64)]).owner = 0 ∧
        (((Core.reset.giveTile 1 1 false 0).tiles[(1 : Fin 64)]).owner ≠ 0)) := by
  decide +kernel

/-- System table memory with room for one more parser state and with none; a record that a rule allows, and one that none does. -/
theorem witness_BootAndMeasurement_room :
    let k := State.reset.clusters[(0 : Fin 16)]
    let full (n : Nat) : Cluster := { k with sysParser := List.replicate n (0, 0) }
    ((full 1024).sysStages[(0 : Fin 16)].room 0 + 64 * (full 1024).sysParser.length ≤ 65536) ∧
      ¬ ((full 1025).sysStages[(0 : Fin 16)].room 0 + 64 * (full 1025).sysParser.length ≤ 65536) ∧
      ((k.sysStages[(0 : Fin 16)]).applyRec true 0 ⟨6, 0, 0, [1, 0, 0, 0, 2, 0, 0, 0]⟩).isSome = true ∧
      (k.sysStages[(0 : Fin 16)]).applyRec true 0 ⟨0xFF, 0, 0, []⟩ = none := by
  decide +kernel

/-- A cluster at full clock, at the lowest, and disabled; a power cap unset, at its limit, and over it. -/
theorem witness_AgeingAndPower :
    let at1 (f : BitVec 5) (off : Bool) : State :=
      { State.reset with pkg := { State.reset.pkg with clk := State.reset.pkg.clk.set 0 { State.reset.pkg.clk[0] with freq := f, off := off } } }
    ((at1 27 false).pkg.frz = 0 ∧ ((at1 27 false).pkg.clk[(0 : Fin 16)]).off = false ∧ 21 < ((at1 27 false).pkg.clk[(0 : Fin 16)]).freq.toNat) ∧
      (((at1 21 false).pkg.clk[(0 : Fin 16)]).off = false ∧ ((at1 21 false).pkg.clk[(0 : Fin 16)]).freq.toNat ≤ 21) ∧ ((at1 27 true).pkg.clk[(0 : Fin 16)]).off = true ∧
      (let cap (p : BitVec 12) : Nat := if p.toNat = 0 ∨ 2600 < p.toNat then 2600 else p.toNat
       cap 0 = 2600 ∧ cap 2601 = 2600 ∧ cap 100 = 100 ∧ 2600 ≤ cap 0 ∧ cap 0 < 2601) := by
  decide +kernel

/-- The states of FRZCTL, with answers and a reset that wait for the clocks, and without. -/
theorem witness_FreezeAndReadout :
    let at1 (f : BitVec 4) : State := { State.reset with pkg := { State.reset.pkg with frz := f } }
    let r : State := { at1 3 with pkg := { (at1 3).pkg with rstRun := some 1, rstCancel := true } }
    (at1 0).pkg.frz = 0 ∧ (at1 1).pkg.frz = 1 ∧ (at1 2).pkg.frz = 2 ∧ (at1 3).pkg.frz = 3 ∧ (at1 4).pkg.frz ≠ 0 ∧ (at1 4).pkg.frz ≠ 1 ∧
      (at1 4).pkg.frz ≠ 2 ∧ (at1 4).pkg.frz ≠ 3 ∧ State.reset.pkg.ports[(0 : Fin 64)].width = 0 ∧ ((inRing 1 State.reset).pkg.ports[(0 : Fin 64)]).width ≠ 0 ∧
      ((at1 3).dies[(0 : Fin 2)]).answers = [] ∧ ((at1 3).dies[(1 : Fin 2)]).answers = [] ∧ (at1 3).pkg.rstCancel = false ∧ (at1 3).pkg.halted = false ∧
      (MgmtReg.hirq ≠ .scanWindow ∧ ({ at1 3 with pkg := { (at1 3).pkg with halted := true } } : State).pkg.halted = true ∧
        ∀ k < [(1 : Byte)].length, ∀ d, physKind (0x1000 + k) ≠ .host d) ∧
      (r.pkg.frz = 3 ∧ r.pkg.rstCancel = true ∧ r.pkg.rstRun = some 1) ∧
      (((State.reset.updDie 0 fun d => { d with answers := [1, 2] }).dies[(0 : Fin 2)]).answers = [1, 2]) := by
  decide +kernel

/-- A port that is up at each width, one that is down, and the failures around the limit of a replay. -/
theorem witness_Links :
    let at1 (q : Port) : State := { State.reset with pkg := { State.reset.pkg with ports := State.reset.pkg.ports.set 0 q } }
    let p : Port := { State.reset.pkg.ports[(0 : Fin 64)] with up := true, width := 3, expected := 5 }
    (let o : OutPkt := ⟨48, 2, false, false, [], false, true⟩
     let q : Port := { State.reset.pkg.ports[(48 : Fin 64)] with paused := 4 }
     o.port = 48 + (0 : Fin 16).val ∧ q.paused.getLsbD o.qcls.toNat = true ∧ (0 : BitVec 8).getLsbD o.qcls.toNat = false) ∧
      ((at1 p).pkg.frz = 0 ∧ (at1 p).pkg.ports[(0 : Fin 48).val] = p) ∧ p.up = true ∧ ({ p with up := false } : Port).up = false ∧
      (4 < p.expected ∧ p.expected < 6) ∧ ({ p with fails := 15 } : Port).fails < 16 ∧ 16 ≤ ({ p with fails := 16 } : Port).fails ∧
      ({ p with width := 0 } : Port).width = 0 ∧ ({ p with width := 1 } : Port).width = 1 ∧ 2 ≤ p.width.toNat ∧ (3 : BitVec 2) ≠ 0 ∧
      (State.reset.pkg.d2dFails < 16 ∧ 16 ≤ ({ State.reset.pkg with d2dFails := 16 } : Package).d2dFails ∧ State.reset.pkg.d2dNext + 1 ≠ State.reset.pkg.d2dNext) := by
  decide +kernel
/-! ### Ill-formed terms: one for each check -/

/-- Each check of `Instr.wf` refuses a term that breaks it (R78-R93, R140, R153, R275). -/
theorem test_ill_formed :
    ∀ i ∈ [Instr.fadd 0 1 2 3 3, .fcvt 0 1 2 16, .ld 1 2 7 0, .st 1 2 0 0, .stf 1 2 5 0, .crd 1 0x006, .cwr 1 0x030, .fence 0 6, .vadd 0 7 1 2 3,
        .vmul 0 0 1 2 3, .pand 0 3 0 0, .vcvtFloat 0 0 13 0 4, .vcvtFloat 0 5 0 4 4, .vcvtInt 0 7 0 4 4, .fxAdd 0 1 1, .fxMin 0 1 0, .fxSwap 0 1 11,
        .actSet false 127 1 false 0, .actCopy false 4 1 127 2], i.wf = false := by
  decide

/-- Their neighbours that keep to the rules. -/
theorem test_well_formed :
    ∀ i ∈ [Instr.fadd 0 1 2 3 2, .fcvt 0 1 2 15, .ld 1 2 6 0, .st 1 2 6 0, .stf 1 2 4 0, .crd 1 0x005, .cwr 1 0x023, .fence 0 5, .vadd 0 6 1 2 3,
        .vmul 0 1 1 2 3, .pand 0 2 0 0, .vcvtFloat 0 0 12 4 3, .vcvtInt 0 6 0 4 0, .fxAdd 0 1 12, .fxMin 0 1 16, .fxSwap 0 1 15,
        .actSet false 126 1 false 0, .actCopy false 4 1 124 2], i.wf = true := by
  decide

/-! ### Words of the spec's worked examples -/

/-- The bundles of spec/03 ("encoding two bundles"), spec/04, spec/07 and spec/17. -/
theorem test_decode_scalar_examples :
    (decodeWord 0x0000531C matches .ok (.add 0 5 6 7)) ∧ (decodeWord 0x0C123002 matches .ok (.wait 0 3 2)) ∧
      (decodeWord 0x06526800 matches .ok (.ld 9 6 4 0)) ∧ (decodeWord 0x8C180003 matches .ok (.dly 0 3)) ∧
      (decodeWord 0x8C107FFE matches .ok (.loop 0 7 0xFFE)) ∧ (decodeWord 0x8C220005 matches .ok (.trap 0 5)) ∧
      (decodeWord 0x8C240000 matches .ok (.tret 0)) ∧ (decodeWord 0x8C2C1400 matches .ok (.tgive 0 2 4)) ∧
      (decodeWord 0x07280022 matches .ok (.crd 20 0x022)) ∧ (decodeWord 0x89600800 matches .ok (.lui 22 0x800)) ∧
      (decodeWord 0x802A4A82 matches .ok (.stageFs 0 4 21)) ∧ (decodeWord 0x0C108FFF matches .ok (.loop 0 8 0xFFF)) := by
  decide +kernel

theorem test_decode_vector_examples :
    (decodeWord 0x904C212A matches .ok (.vfma 0 0 8 9 10)) ∧ (decodeWord 0x104C2D8D matches .ok (.vfma 0 0 11 12 13)) ∧
      (decodeWord 0xA0003083 matches .ok (.vcvtFloat 0 0 12 4 3)) := by
  decide +kernel

theorem test_decode_engine_examples :
    (decodeWord 0xB0020C00 matches .ok (.mload 0 4 6)) ∧ (decodeWord 0xB0620E00 matches .ok (.mscaleW 0 4 7)) ∧
      (decodeWord 0xD0806000 matches .ok (.wnCopy 0 3)) ∧ (decodeWord 0xD0C88000 matches .ok (.fxAdd 0 4 0)) ∧
      (decodeWord 0xD0E8A404 matches .ok (.fxFence 0 5 4 4)) := by
  decide +kernel

/-- The program of spec/11: core 5, tile 9, offset 0, and one unit. -/
theorem test_decode_primitive_examples :
    (decodePrim 0x6800000052400000 matches .ok (.actCribAdd false 0 0 false 5 9 0)) ∧
      (decodePrim 0x6E00000052400001 matches .ok (.actCribBump true 5 9 1)) := by
  decide +kernel

/-! ### Small steps and the spec's numeric examples -/

/-- The state after a word, and what it will write. -/
def ran (i : Instr) (x : Context) : State := match exec i (withTask x) with | .next t => t | _ => withTask x
def writes (s : State) : List RegWrite := match s.ctx? with | some x => x.pend.flatMap (fun r => r.writes) | none => []
def flagsOf (s : State) : List Flags := match s.ctx? with | some x => x.pend.map (fun r => r.flags) | none => []

theorem test_add_wraps : writes (ran (.add 0 3 1 2) (setS (setS task 1 (-1)) 2 1)) = [.s 3 ⟨0, 0⟩] := by decide +kernel
theorem test_mulhn_is_unsigned :
    writes (ran (.mulhn 0 3 1 2) (setS (setS task 1 (-1)) 2 (-1))) = [.s 3 ⟨0xFFFFFFFFFFFFFFFE, 0⟩] := by decide +kernel
theorem test_mulh_is_signed : writes (ran (.mulh 0 3 1 2) (setS (setS task 1 (-1)) 2 (-1))) = [.s 3 ⟨0, 0⟩] := by decide +kernel
theorem test_write_to_s0_is_discarded : writes (ran (.add 0 0 1 2) (setS task 1 5)) = [.s 0 ⟨5, 0⟩] ∧
    (task.write (.s 0 ⟨5, 0⟩)).sdata 0 = 0 := by decide +kernel

/-- The pair of spec/03 that builds 0x12345FFF. -/
theorem test_lui_of_the_example : writes (ran (.lui 5 0x12346) task) = [.s 5 ⟨0x12346000, 0⟩] := by decide +kernel
theorem test_addi_of_the_example : writes (ran (.addi 5 5 0xFFF) (setS task 5 0x12346000)) = [.s 5 ⟨0x12345FFF, 0⟩] := by decide +kernel

/-- R18: with VBASE 23 the name v9 is physical register 8, and with 22 it is v10. -/
theorem test_rotation :
    ({ task with vbase := 23 } : Context).vPhys 9 = 8 ∧ ({ task with vbase := 22 } : Context).vPhys 10 = 8 ∧ ({ task with vbase := 23 } : Context).vPhys 7 = 7 := by
  decide +kernel

/-- R59: the floats next to −0.3 and −0.7 to an unsigned integer. -/
theorem test_negative_to_unsigned :
    toIntClamp .rne 0 255 (valueOf .f32 0xBE99999A) = (0, flagNX) ∧ toIntClamp .rne 0 255 (valueOf .f32 0xBF333333) = (0, flagNV) := by
  decide +kernel

/-- Error feedback on four elements (spec/02): the codes with it and without. -/
theorem test_error_feedback :
    let xs := List.replicate 4 (some (valueOf .f32 0x3F880000))
    (roundBlock .e4m3 .f32 .rneEf xs).map (fun y => y.map fun p => p.1) = [some 0x38, some 0x39, some 0x38, some 0x39] ∧
      (roundBlock .e4m3 .f32 .rne xs).map (fun y => y.map fun p => p.1) = List.replicate 4 (some 0x38) := by
  decide +kernel

/-- The chain of spec/02: through BF16 with its tail, then E4M3. -/
theorem test_no_double_rounding :
    carry .bf16 (valueOf .f32 0x3F880800) = ⟨0x3F88, 1⟩ ∧ final .e4m3 .rne (carried .bf16 ⟨0x3F88, 1⟩) = (0x39, flagNX) ∧
      final .e4m3 .rne (carried .bf16 ⟨0x3F88, 0⟩) = (0x38, flagNX) := by
  decide +kernel

/-- The block of spec/02: 104, 3, −1.4, 0.7 and zeros. -/
theorem test_quantise_example :
    let vs := [valueOf .f32 0x42D00000, valueOf .f32 0x40400000, valueOf .f32 0xBFB33333, valueOf .f32 0x3F333333] ++ List.replicate 28 (valueOf .f32 0)
    let q := quantHead vs
    q = ⟨126, 0, 0x75, 0, false, 0⟩ ∧ ((quantCodes .rne (scaleVal 126 0) 0x75 0 0 (valueOf .f32 0) vs).map (fun c => c.1)).take 5 = [8, 7, 13, 3, 0] := by
  decide +kernel
theorem test_block_decodes :
    carry .f32 (blockDecode 0x7E000075 8) = ⟨0x42D00000, 0⟩ ∧ carry .f32 (blockDecode 0x7E000075 13) = ⟨0xBFC00000, 0⟩ ∧ carry .f32 (blockDecode 0x7E000075 3) = ⟨0x3F400000, 0⟩ := by
  decide +kernel

/-- Widening E4M3 into a quad (spec/05): elements 0 and 4 are the first of v12. -/
theorem test_widening_example :
    let x : Context := { task with v := task.v.set 4 ⟨0x3CB8403938, 0⟩ }
    (writes (ran (.vcvtFloat 0 0 12 4 3) x)).head?.map (fun r => match r with | .v m val _ => (m.toNat, val.data.toNat % 2 ^ 64) | _ => (0, 0)) =
      some (12, 0x3FC000003F800000) := by
  decide +kernel

/-- The frame and the parser of spec/11: two visits, the cursor at 18, 64 bytes of payload, and the job id at the front. -/
theorem test_parse_example :
    let pkt : List Byte := List.replicate 12 0 ++ [0x88, 0xB5, 0x0A, 0x11] ++ List.replicate 70 0
    let s0 : BitVec 512 := (14#512 <<< 312) ||| (12#512 <<< 152) ||| (1#512 <<< 151) ||| (0xFFFF#512 <<< 135) ||| (0x7F#512 <<< 128) ||| (0x88B5#512 <<< 160) ||| (1#512 <<< 184) ||| (1#512 <<< 191)
    let s1 : BitVec 512 := (4#512 <<< 312) ||| (0x7E#512 <<< 128) ||| (1#512 <<< 31) ||| (1#512 <<< 19)
    let k := (State.reset.updCluster 12 fun k => { k with parser := [(0, s0), (1, s1)] }).clusters[(12 : Fin 16)]
    (parseFrom k.parserState pkt 32 0 ⟨hvStart 48 86 2 0 false, [], 0⟩).map (fun v => (v.cur, hvGet v.hv 0 2)) = some (18, 0x0A11) := by
  decide +kernel

/-- Ties and a NaN among the logits of spec/15: the lowest experts first, each with weight 0.5. -/
theorem test_gate_example :
    let l : Layer := { hashLayer with mode := 1, k := 2, nexp := 4 }
    topRanks l ⟨102, 0, false, 1, [0x40000000, 0x40000000, 0x7FC00000, 0]⟩ = [(some 0, 0x3F000000, 0), (some 1, 0x3F000000, 0)] ∧
      topRanks l ⟨101, 0, false, 1, [0, 0x40400000, 0x40400000, 0x3F800000]⟩ = [(some 1, 0x3F000000, 0), (some 2, 0x3F000000, 0)] := by
  decide +kernel

/-- The sum of the eight atomics of spec/17 in one order: 32.875 is exact. -/
theorem test_atomics_example :
    let adds := [0x3E000000, 0x3E800000, 0x3F000000, 0x3F800000, 0x40000000, 0x40800000, 0x41000000, 0x41800000]
    adds.foldl (fun a b => (final .f32 .rne ((valueOf .f32 a).add (valueOf .f32 b)).1).1) 0x3F800000 = 0x42038000 := by
  decide +kernel

/-- The check value of CRC-32C over the nine digits, and SHA-384 of the three letters of FIPS 180-4. -/
theorem test_crc32c_check : crc32c 0xFFFFFFFF [0x31, 0x32, 0x33, 0x34, 0x35, 0x36, 0x37, 0x38, 0x39] = 0xE3069283 := by decide +kernel
theorem test_sha384_abc :
    sha384 [0x61, 0x62, 0x63] = 0xCB00753F45A35E8BB5A03D699AC65007272C32AB0EDED1631A8B605A43FF5BED8086072BA1E7CC2358BAECA134C825A7 := by
  decide +kernel

/-! ### One step -/

/-- R235: the trap word takes its trap: the exception registers, and the handler's address. -/
theorem test_trap_is_taken :
    let x : Context := { task with tvec := 0x4000, status := .draining (.trap 0x20 0 5) }
    let y := x.enterTrap 0x20 0 5
    y.pc = 0x4000 ∧ y.hact = true ∧ y.tepc = task.pc ∧ y.tval = 5 ∧ y.tcause.toNat % 256 = 0x20 := by
  decide +kernel

/-- R129: a decrement of a signal in memory by 3. -/
theorem test_signal_decrement :
    let s := withTask (setS (setS reaching 1 0x10000) 2 3)
    State.devNat (match exec (.sigDec 0 1 2) s with | .next t => t | _ => s) 0 8 = 2 ^ 64 - 3 := by
  decide +kernel

/-- A barrier ends, a freeze begins, and a lane of a full link fails. -/
theorem test_freeze : (match exec .freeze State.reset with | .next t => t.pkg.frz | _ => 15) = 1 := by decide +kernel
theorem test_lane_failure :
    let s := inRing 1 State.reset
    (match exec (.laneFailure 0) s with | .next t => ((t.pkg.ports[(0 : Fin 64)]).width, (t.pkg.ports[(0 : Fin 64)]).cdeg) | _ => (0, false)) = (2, true) := by
  decide +kernel
/-! ### Every encoded row, by a word written out from its fields -/

/-- A word decodes to an instruction. -/
def reads (w : BitVec 32) (i : Instr) : Bool := match decodeWord w with | .ok j => j == i | .error _ => false
def readsPrim (w : BitVec 64) (i : Instr) : Bool := match decodePrim w with | .ok j => j == i | .error _ => false

theorem test_decode_scalar_words_1 : (∀ p ∈ [((0x01019190 : BitVec 32), Instr.add 4 25 3 4),
    ((0x03C061BD : BitVec 32), Instr.sub 15 6 3 15),
    ((0x82037444 : BitVec 32), Instr.and 8 23 8 17),
    ((0x01824ADD : BitVec 32), Instr.or 6 4 21 23),
    ((0x0182BCAA : BitVec 32), Instr.xor 6 11 25 10),
    ((0x0183032B : BitVec 32), Instr.andn 6 16 6 10),
    ((0x0045F11C : BitVec 32), Instr.sll 1 31 2 7),
    ((0x0245A50D : BitVec 32), Instr.srl 9 26 10 3),
    ((0x03C539EE : BitVec 32), Instr.sra 15 19 19 27),
    ((0x0184282F : BitVec 32), Instr.ror 6 2 16 11),
    ((0x8107FF08 : BitVec 32), Instr.slt 4 31 30 2),
    ((0x82C66575 : BitVec 32), Instr.sltn 11 6 10 29),
    ((0x8387F4DE : BitVec 32), Instr.seq 14 31 9 23),
    ((0x03075C67 : BitVec 32), Instr.sne 12 21 24 25),
    ((0x82890278 : BitVec 32), Instr.min 10 16 4 30),
    ((0x0088025D : BitVec 32), Instr.max 2 0 4 23),
    ((0x834856EA : BitVec 32), Instr.minn 13 5 13 26),
    ((0x8048A4CF : BitVec 32), Instr.maxn 1 10 9 19),
    ((0x008A351C : BitVec 32), Instr.mul 2 3 10 7),
    ((0x010AA525 : BitVec 32), Instr.mulh 4 10 10 9),
    ((0x028A7152 : BitVec 32), Instr.mulhn 10 7 2 20),
    ((0x824CE5D8 : BitVec 32), Instr.div 9 14 11 22),
    ((0x828D2995 : BitVec 32), Instr.divn 10 18 19 5),
    ((0x810D824A : BitVec 32), Instr.rem 4 24 4 18),
    ((0x81CDBF33 : BitVec 32), Instr.remn 7 27 30 12),
    ((0x810E8BF4 : BitVec 32), Instr.bfxr 4 8 23 29),
    ((0x82CF83D5 : BitVec 32), Instr.bfir 11 24 7 21),
    ((0x838E3982 : BitVec 32), Instr.popc 14 3 19),
    ((0x810FF403 : BitVec 32), Instr.clz 4 31 8),
    ((0x83D167A9 : BitVec 32), Instr.fadd 15 22 15 10 1)], reads p.1 p.2 = true) := by
  decide +kernel

theorem test_decode_scalar_words_2 : (∀ p ∈ [((0x0093D708 : BitVec 32), Instr.fsub 2 29 14 2 0),
    ((0x8195F846 : BitVec 32), Instr.fmul 6 31 16 17 2),
    ((0x82961796 : BitVec 32), Instr.ffma 10 1 15 5 2),
    ((0x80993460 : BitVec 32), Instr.fmin 2 19 8 24 0),
    ((0x80DABEC0 : BitVec 32), Instr.fmax 3 11 29 16 0),
    ((0x811D7AB9 : BitVec 32), Instr.fdiv 4 23 21 14 1),
    ((0x82DF6781 : BitVec 32), Instr.fsqrt 11 22 15 1),
    ((0x80E0477A : BitVec 32), Instr.fceq 3 4 14 30 2),
    ((0x80227122 : BitVec 32), Instr.fclt 0 7 2 8 2),
    ((0x82E42941 : BitVec 32), Instr.fcle 11 2 18 16 1),
    ((0x8326B83C : BitVec 32), Instr.fcvt 12 11 16 15),
    ((0x82682E80 : BitVec 32), Instr.fmov 9 2 29),
    ((0x02290381 : BitVec 32), Instr.gtail 8 16 7),
    ((0x00695502 : BitVec 32), Instr.stail 1 21 10),
    ((0x026A4D80 : BitVec 32), Instr.stageMs 9 4 27),
    ((0x026A7401 : BitVec 32), Instr.stageWs 9 7 8),
    ((0x022A3182 : BitVec 32), Instr.stageFs 8 3 3),
    ((0x043EE552 : BitVec 32), Instr.addi 31 14 1362),
    ((0x04679D67 : BitVec 32), Instr.andi 19 25 3431),
    ((0x0499C061 : BitVec 32), Instr.ori 12 28 97),
    ((0x04FF2826 : BitVec 32), Instr.xori 31 18 2086),
    ((0x0527B014 : BitVec 32), Instr.slli 19 27 20),
    ((0x851B5074 : BitVec 32), Instr.srli 13 21 52),
    ((0x05237089 : BitVec 32), Instr.srai 17 23 9),
    ((0x053CA0EC : BitVec 32), Instr.rori 30 10 44),
    ((0x0544FD56 : BitVec 32), Instr.slti 2 15 3414),
    ((0x859FB502 : BitVec 32), Instr.sltni 15 27 1282),
    ((0x05E28057 : BitVec 32), Instr.bfx 17 8 1 23),
    ((0x86258616 : BitVec 32), Instr.bfi 18 24 24 22),
    ((0x866BB3CA : BitVec 32), Instr.ld 21 27 1 458)], reads p.1 p.2 = true) := by
  decide +kernel

theorem test_decode_scalar_words_3 : (∀ p ∈ [((0x86B06319 : BitVec 32), Instr.st 24 6 1 281),
    ((0x06EC50FF : BitVec 32), Instr.stf 22 5 0 255),
    ((0x87320005 : BitVec 32), Instr.crd 25 5),
    ((0x0740A005 : BitVec 32), Instr.cwr 10 5),
    ((0x89FF4DD9 : BitVec 32), Instr.lui 31 1002969),
    ((0x8A9CD2D9 : BitVec 32), Instr.aupc 9 840409),
    ((0x8C40A8E0 : BitVec 32), Instr.br 1 43232),
    ((0x8F031D29 : BitVec 32), Instr.call 12 73001),
    ((0x8F452000 : BitVec 32), Instr.jr 13 18),
    ((0x8F463000 : BitVec 32), Instr.callr 13 3),
    ((0x8F8879CD : BitVec 32), Instr.bz 14 7 2509),
    ((0x8E4A7A15 : BitVec 32), Instr.bnz 9 7 2581),
    ((0x0C4CFBD0 : BitVec 32), Instr.bbs 1 15 47 16),
    ((0x8FCE6C2C : BitVec 32), Instr.bbc 15 6 48 44),
    ((0x0D1023C0 : BitVec 32), Instr.loop 4 2 960),
    ((0x0ED34BBD : BitVec 32), Instr.wait 11 20 3005),
    ((0x0C141B00 : BitVec 32), Instr.waitr 0 1 22),
    ((0x0F172FDD : BitVec 32), Instr.tkset 12 18 4061),
    ((0x0FD8008E : BitVec 32), Instr.dly 15 142),
    ((0x8D1A0000 : BitVec 32), Instr.bar 4),
    ((0x0F5DB000 : BitVec 32), Instr.sysLaunch 13 27),
    ((0x0C1F0700 : BitVec 32), Instr.sigDec 0 16 14),
    ((0x0CE0F980 : BitVec 32), Instr.sigWait 3 15 19),
    ((0x0CE20D6D : BitVec 32), Instr.trap 3 3437),
    ((0x8CA40000 : BitVec 32), Instr.tret 2),
    ((0x0F679A80 : BitVec 32), Instr.ilock 13 25 21),
    ((0x8FA87000 : BitVec 32), Instr.iunlk 14 7),
    ((0x8C2B4000 : BitVec 32), Instr.fence 0 5),
    ((0x8F2CD700 : BitVec 32), Instr.tgive 12 26 7),
    ((0x8D6E0000 : BitVec 32), Instr.endTask 5)], reads p.1 p.2 = true) := by
  decide +kernel

theorem test_decode_vector_words_1 : (∀ p ∈ [((0x1B00FC47 : BitVec 32), Instr.vadd 11 1 31 2 7),
    ((0x9004E046 : BitVec 32), Instr.vsub 0 1 24 2 6),
    ((0x15091979 : BitVec 32), Instr.vmul 5 2 6 11 25),
    ((0x990F30D5 : BitVec 32), Instr.vmulh 9 6 12 6 21),
    ((0x1611F91E : BitVec 32), Instr.vsadd 6 3 30 8 30),
    ((0x18163EA7 : BitVec 32), Instr.vssub 8 4 15 21 7),
    ((0x161B1A00 : BitVec 32), Instr.vabs 6 6 6 16),
    ((0x9B1EA6E0 : BitVec 32), Instr.vneg 11 5 9 23),
    ((0x1520125D : BitVec 32), Instr.vand 5 0 4 18 29),
    ((0x18253202 : BitVec 32), Instr.vor 8 2 12 16 2),
    ((0x142A2446 : BitVec 32), Instr.vxor 4 4 9 2 6),
    ((0x952C3FA6 : BitVec 32), Instr.vandn 5 0 15 29 6),
    ((0x94335672 : BitVec 32), Instr.vshl 4 6 21 19 18),
    ((0x1336C287 : BitVec 32), Instr.vshr 3 5 16 20 7),
    ((0x99397829 : BitVec 32), Instr.vmin 9 2 30 1 9),
    ((0x153D1F26 : BitVec 32), Instr.vmax 5 2 7 25 6),
    ((0x14402912 : BitVec 32), Instr.vfadd 4 0 10 8 18),
    ((0x1B4436AA : BitVec 32), Instr.vfsub 11 0 13 21 10),
    ((0x1348C7E8 : BitVec 32), Instr.vfmul 3 1 17 31 8),
    ((0x184D6AD1 : BitVec 32), Instr.vfma 8 2 26 22 17),
    ((0x985121D0 : BitVec 32), Instr.vfms 8 2 8 14 16),
    ((0x93551E4D : BitVec 32), Instr.vfmin 3 2 7 18 13),
    ((0x9658C0BB : BitVec 32), Instr.vfmax 6 1 16 5 27),
    ((0x9C5C0EE0 : BitVec 32), Instr.vfneg 12 0 3 23),
    ((0x9D605560 : BitVec 32), Instr.vfabs 13 0 21 11),
    ((0x9B656120 : BitVec 32), Instr.vfredsum 11 2 24 9),
    ((0x9468B320 : BitVec 32), Instr.vfredmax 4 1 12 25),
    ((0x156C47A0 : BitVec 32), Instr.vfredmin 5 0 17 29),
    ((0x9D727A40 : BitVec 32), Instr.vredsum 13 4 30 18),
    ((0x1E76EEA0 : BitVec 32), Instr.vredmax 14 5 27 21)], reads p.1 p.2 = true) := by
  decide +kernel

theorem test_decode_vector_words_2 : (∀ p ∈ [((0x9679E660 : BitVec 32), Instr.vredmin 6 3 25 19),
    ((0x9C7C5E3F : BitVec 32), Instr.vsel 12 0 23 17 31),
    ((0x938332D0 : BitVec 32), Instr.vceq 3 6 12 22 16),
    ((0x138530D1 : BitVec 32), Instr.vcne 3 2 12 6 17),
    ((0x108B19B2 : BitVec 32), Instr.vclt 0 6 6 13 18),
    ((0x108E9185 : BitVec 32), Instr.vcle 0 5 4 12 5),
    ((0x9D9092D1 : BitVec 32), Instr.vfceq 13 1 4 22 17),
    ((0x9E950AE6 : BitVec 32), Instr.vfclt 14 2 2 23 6),
    ((0x9198A389 : BitVec 32), Instr.vfcle 1 1 8 28 9),
    ((0x1F9D2B66 : BitVec 32), Instr.vfcun 15 2 10 27 6),
    ((0x1CA0242D : BitVec 32), Instr.vperm 12 0 9 1 13),
    ((0x18A4666C : BitVec 32), Instr.vzip 8 0 25 19 12),
    ((0x91A83698 : BitVec 32), Instr.vunzip 1 0 13 20 24),
    ((0x14AD0154 : BitVec 32), Instr.vrot 4 2 0 10 20),
    ((0x9FB1FBC0 : BitVec 32), Instr.vbcast 15 3 30 30),
    ((0x13B5A9BF : BitVec 32), Instr.vext 3 3 10 13 31),
    ((0x97B9BAC4 : BitVec 32), Instr.vins 7 3 14 22 4),
    ((0x92BCC1A0 : BitVec 32), Instr.vmov 2 1 16 13),
    ((0x9FC1882B : BitVec 32), Instr.vwadd 15 3 2 1 11),
    ((0x1DC75B84 : BitVec 32), Instr.vwmul 13 6 22 28 4),
    ((0x91C97867 : BitVec 32), Instr.vfwma 1 2 30 3 7),
    ((0x10D0304A : BitVec 32), Instr.pand 0 12 2 10),
    ((0x98D400E5 : BitVec 32), Instr.por 8 0 7 5),
    ((0x12D82106 : BitVec 32), Instr.pxor 2 8 8 6),
    ((0x1CDC2103 : BitVec 32), Instr.pandn 12 8 8 3)], reads p.1 p.2 = true) := by
  decide +kernel

theorem test_decode_widening_and_conversion_words : (∀ p ∈ [((0x2B003181 : BitVec 32), Instr.vcvtFloat 11 0 12 12 1),
    ((0xAD047282 : BitVec 32), Instr.vcvtInt 13 0 28 20 2),
    ((0x280A83A0 : BitVec 32), Instr.qmax 8 29),
    ((0xAA0EBDE0 : BitVec 32), Instr.qcvt 10 15 15),
    ((0x2E10DA20 : BitVec 32), Instr.vrcp 14 1 22 17),
    ((0x2E149CA0 : BitVec 32), Instr.vrsqrt 14 1 7 5),
    ((0x26182040 : BitVec 32), Instr.vsqrt 6 0 8 2),
    ((0xAE1CFEA3 : BitVec 32), Instr.vdiv 14 1 31 21 3),
    ((0x2F2017C0 : BitVec 32), Instr.vexp2 15 0 5 30),
    ((0x28253860 : BitVec 32), Instr.vlog2 8 2 14 3),
    ((0xA3289680 : BitVec 32), Instr.vexp 3 1 5 20),
    ((0xA22CC060 : BitVec 32), Instr.vlog 2 1 16 3),
    ((0x2D30F6C0 : BitVec 32), Instr.vsin 13 1 29 22),
    ((0xA7344E40 : BitVec 32), Instr.vcos 7 0 19 18),
    ((0xAF383140 : BitVec 32), Instr.vtanh 15 0 12 10),
    ((0xA43CF420 : BitVec 32), Instr.vsigm 4 1 29 1),
    ((0x2940CF00 : BitVec 32), Instr.verf 9 1 19 24),
    ((0x2344D080 : BitVec 32), Instr.vrint 3 1 20 4),
    ((0xA4481E75 : BitVec 32), Instr.vscl 4 0 7 19 21)], reads p.1 p.2 = true) := by
  decide +kernel

theorem test_decode_matrix_words : (∀ p ∈ [((0x3F090E00 : BitVec 32), Instr.mload 15 18 7),
    ((0xB2120000 : BitVec 32), Instr.mswap 2 4),
    ((0x3C278200 : BitVec 32), Instr.mstream 12 15 1),
    ((0xBE358E00 : BitVec 32), Instr.mstreamz 14 11 7),
    ((0xB34EDC00 : BitVec 32), Instr.mstore 3 29 46),
    ((0x3D5B0000 : BitVec 32), Instr.mzero 13 22),
    ((0xB462D400 : BitVec 32), Instr.mscaleW 4 5 42),
    ((0xB96A4A80 : BitVec 32), Instr.mscaleA 9 20 37),
    ((0x387181C0 : BitVec 32), Instr.mread 8 3 28),
    ((0x39810080 : BitVec 32), Instr.mwrite 9 2 8),
    ((0x3F9A0000 : BitVec 32), Instr.mdrain 15 20)], reads p.1 p.2 = true) := by
  decide +kernel

theorem test_decode_vector_memory_words : (∀ p ∈ [((0x4B036EC9 : BitVec 32), Instr.ldV false 11 27 14 201),
    ((0xCA0464E4 : BitVec 32), Instr.stV false 10 3 4 228),
    ((0xD60B80DB : BitVec 32), Instr.stVF32 true 6 28 0 219),
    ((0x5B0D13DC : BitVec 32), Instr.stVF16 true 11 8 19 220),
    ((0xD310E162 : BitVec 32), Instr.stVBf16 true 3 7 1 98),
    ((0xC414C46A : BitVec 32), Instr.stVE4m3 false 4 6 4 106),
    ((0x4119C8CA : BitVec 32), Instr.stVE5m2 false 1 14 8 202),
    ((0xD3200E8A : BitVec 32), Instr.ldP true 3 0 14 138),
    ((0xC0249CB8 : BitVec 32), Instr.stP false 0 4 28 184),
    ((0xD2285D60 : BitVec 32), Instr.vspill true 2 2 29 96),
    ((0x5F2EA876 : BitVec 32), Instr.vfill true 15 21 8 118),
    ((0x5F320B28 : BitVec 32), Instr.ldVb true 15 16 11 40)], reads p.1 p.2 = true) := by
  decide +kernel

theorem test_decode_command_words : (∀ p ∈ [((0xDB80A000 : BitVec 32), Instr.wnCopy 11 5),
    ((0xD987C000 : BitVec 32), Instr.wnGather 9 30),
    ((0xD48A6000 : BitVec 32), Instr.wnScatter 4 19),
    ((0x5B8CA000 : BitVec 32), Instr.wnDecode 11 5),
    ((0x5A938000 : BitVec 32), Instr.wnEncode 10 28),
    ((0x57978000 : BitVec 32), Instr.wnExpand 7 28),
    ((0x5498C000 : BitVec 32), Instr.wnFlush 4 6),
    ((0xD69D8500 : BitVec 32), Instr.wnFar 6 12 5),
    ((0x51A04B0F : BitVec 32), Instr.vspillM 1 2 11 15),
    ((0xD1A7401E : BitVec 32), Instr.vfillM 1 26 0 30),
    ((0xDAC36000 : BitVec 32), Instr.fxLd 10 27),
    ((0xD0C40000 : BitVec 32), Instr.fxSt 0 0),
    ((0x5CCACC00 : BitVec 32), Instr.fxAdd 12 22 12),
    ((0xDBCE4C00 : BitVec 32), Instr.fxMin 11 18 12),
    ((0xD0D26B00 : BitVec 32), Instr.fxMax 0 19 11),
    ((0x50D41000 : BitVec 32), Instr.fxSwap 0 0 16),
    ((0x58DA0F00 : BitVec 32), Instr.fxCas 8 16 15),
    ((0xD8DFEF00 : BitVec 32), Instr.fxAnd 8 31 15),
    ((0xD9E09000 : BitVec 32), Instr.fxOr 9 4 16),
    ((0x5BE56000 : BitVec 32), Instr.fxFlush 11 11),
    ((0xDAE89903 : BitVec 32), Instr.fxFence 10 4 25 3),
    ((0x59EDC000 : BitVec 32), Instr.fxSdec 9 14)], reads p.1 p.2 = true) := by
  decide +kernel

theorem test_decode_primitive_words : (∀ p ∈ [((0x0200000000000000 : BitVec 64), Instr.actNop true),
    ((0x045200000000ABCD : BitVec 64), Instr.actSet false 20 2 false 0xABCD),
    ((0x0A11110000000000 : BitVec 64), Instr.actCopy true 4 1 8 2),
    ((0x0C24004000000000 : BitVec 64), Instr.actAdd false 9 0 true 0),
    ((0x12430000000000F0 : BitVec 64), Instr.actHash true 16 3 0xF0),
    ((0x146304A08000004D : BitVec 64), Instr.actRegAdd false 24 3 2 1 false true true 77),
    ((0x1A0000400000004E : BitVec 64), Instr.actRegMax true 0 0 0 0 true false false 78),
    ((0x1C00E02000000000 : BitVec 64), Instr.actCount false 112 0 true 0),
    ((0x220000000000005A : BitVec 64), Instr.actMark true 0x5A),
    ((0x4000000000000014 : BitVec 64), Instr.actFwd false 0 false false 20),
    ((0x4600000000000041 : BitVec 64), Instr.actDrop true 0x41),
    ((0x48A30C8000000123 : BitVec 64), Instr.actRoute false 40 6 1 0x123),
    ((0x620006A052400020 : BitVec 64), Instr.actAbsorb true 3 1 true 5 9 32),
    ((0x660000003A000000 : BitVec 64), Instr.actMirror true 0 0 false 3 40 0),
    ((0x6800000052400000 : BitVec 64), Instr.actCribAdd false 0 0 false 5 9 0),
    ((0x6E00000052400001 : BitVec 64), Instr.actCribBump true 5 9 1),
    ((0x7000000000000307 : BitVec 64), Instr.actSigdec false 7 3),
    ((0x8200000000000000 : BitVec 64), Instr.actMemop true)], readsPrim p.1 p.2 = true) := by
  decide +kernel

end Sys2Proof.Tests
end

section
/-! SUPPORT. Reading and writing the scalar registers and the predicates of a task (R13, R21, R33): one rule for each read
after each write, through which the statements about landing and about the hard-wired registers go. -/
namespace Sys2Proof.Machine

/-! ### Merging under a mask -/

theorem getElem_mergeBits {w : Nat} (old new mask : BitVec w) {j : Nat} (hj : j < w) :
    (mergeBits old new mask)[j] = if mask[j] then new[j] else old[j] := by
  simp only [mergeBits, BitVec.getElem_or, BitVec.getElem_and, BitVec.getElem_not]
  cases mask[j] <;> simp

/-! ### Scalar registers (R13) -/

@[simp] theorem Context.sget_zero (x : Context) : x.sget 0 = ⟨0, 0⟩ := rfl

theorem Context.sget_of_ne_zero (x : Context) {n : BitVec 5} (hn : n ≠ 0) : x.sget n = x.s[n.toFin] := if_neg hn

@[simp] theorem Context.write_s_zero (x : Context) (v : SVal) : x.write (.s 0 v) = x := rfl

theorem Context.write_s (x : Context) {n : BitVec 5} (hn : n ≠ 0) (v : SVal) :
    x.write (.s n v) = { x with s := x.s.set n.toFin v } := if_neg hn

theorem Context.sget_write_s_same (x : Context) {n : BitVec 5} (hn : n ≠ 0) (v : SVal) : (x.write (.s n v)).sget n = v := by
  simp [x.write_s hn, Context.sget_of_ne_zero _ hn]

theorem Context.sget_write_s_other (x : Context) {n m : BitVec 5} (hmn : m ≠ n) (v : SVal) :
    (x.write (.s n v)).sget m = x.sget m := by
  by_cases hn : n = 0
  · rw [hn, write_s_zero]
  by_cases hm : m = 0
  · rw [hm, sget_zero, sget_zero]
  have hne : n.toNat ≠ m.toNat := fun h => hmn (BitVec.eq_of_toNat_eq h.symm)
  simp [x.write_s hn, Context.sget_of_ne_zero _ hm, Vector.getElem_set_ne _ _ hne]

/-! ### Predicates (R21) -/

@[simp] theorem Context.pRead_zero (x : Context) : x.pRead 0 = BitVec.allOnes 512 := rfl

@[simp] theorem Context.pRead_one (x : Context) : x.pRead 1 = 0 := rfl

theorem Context.pRead_of_two_le (x : Context) {n : Nat} (two : 2 ≤ n) (hn : n < 16) : x.pRead n = x.p[n] := by
  simp [Context.pRead, hn, show n ≠ 0 by omega, show n ≠ 1 by omega]

@[simp] theorem Context.write_p_zero (x : Context) (v m : PData) : x.write (.p 0 v m) = x := rfl

theorem Context.write_p (x : Context) {q : BitVec 3} (hq : q ≠ 0) (v m : PData) :
    x.write (.p q v m) = { x with
      p := (x.p.set (2 * q.toNat) (mergeBits (x.pRead (2 * q.toNat)) v m) (by omega)).set (2 * q.toNat + 1)
        (mergeBits (x.pRead (2 * q.toNat + 1)) (~~~v) m) (by omega) } := if_neg hq

theorem one_le_toNat_of_pair_ne_zero {q : BitVec 3} (hq : q ≠ 0) : 1 ≤ q.toNat := by bv_omega

theorem Context.pRead_write_p_even (x : Context) {q : BitVec 3} (hq : q ≠ 0) (v m : PData) :
    (x.write (.p q v m)).pRead (2 * q.toNat) = mergeBits (x.pRead (2 * q.toNat)) v m := by
  have one := one_le_toNat_of_pair_ne_zero hq
  rw [x.write_p hq, Context.pRead_of_two_le _ (by omega) (by omega)]
  simp

theorem Context.pRead_write_p_odd (x : Context) {q : BitVec 3} (hq : q ≠ 0) (v m : PData) :
    (x.write (.p q v m)).pRead (2 * q.toNat + 1) = mergeBits (x.pRead (2 * q.toNat + 1)) (~~~v) m := by
  have one := one_le_toNat_of_pair_ne_zero hq
  rw [x.write_p hq, Context.pRead_of_two_le _ (by omega) (by omega)]
  simp

/-- Settles O25: the constant reads and the discarded writes, a scalar write read back, and the two halves of a pair lane by
lane, each by its own rule above. -/
theorem hardWiredRegisters : Obligations.HardWiredRegisters := by
  unfold Obligations.HardWiredRegisters
  refine ⟨fun x => ⟨x.sget_zero, x.pRead_zero, x.pRead_one, x.write_s_zero, x.write_p_zero⟩, fun x n v hn => ?_,
    fun x q v m hq j => ⟨?_, ?_⟩⟩
  · exact ⟨x.sget_write_s_same hn v, fun m hm => x.sget_write_s_other hm v⟩
  · rw [x.pRead_write_p_even hq]
    exact getElem_mergeBits _ _ _ j.isLt
  · rw [x.pRead_write_p_odd hq, Fin.getElem_fin, getElem_mergeBits _ _ _ j.isLt, BitVec.getElem_not]
    rfl

end Sys2Proof.Machine
end

section
/-! SUPPORT. The integer operations of the scalar unit as arithmetic on the values of their operands (R112, R113, R116): one
rule for each operation, through which the statement about the register form goes. -/
namespace Sys2Proof.Machine

/-! ### Words from numbers and from bits -/

theorem eq_word_of_toNat {v : Word} {n : Nat} (h : v.toNat = n % 2 ^ 64) : v = word n :=
  BitVec.eq_of_toNat_eq (h.trans (BitVec.toNat_ofNat n 64).symm)

@[simp] theorem word_toNat (v : Word) : word v.toNat = v := (eq_word_of_toNat (Nat.mod_eq_of_lt v.isLt).symm).symm

theorem eq_ofFnLE {v : Word} {f : Fin 64 → Bool} (h : ∀ i : Fin 64, v[i] = f i) : v = BitVec.ofFnLE f :=
  BitVec.eq_of_getElem_eq fun i hi => (h ⟨i, hi⟩).trans (BitVec.getElem_ofFnLE f i hi).symm

theorem flagWord_decide (p : Prop) [Decidable p] : flagWord (decide p) = if p then 1 else 0 := by simp [flagWord]

theorem flagWord_bne (a b : Word) : flagWord (a != b) = if a = b then 0 else 1 := by simp [flagWord]

/-- The difference of two integers, taken in words. -/
theorem ofInt_sub_word (m n : Int) : BitVec.ofInt 64 (m - n) = BitVec.ofInt 64 m - BitVec.ofInt 64 n := by
  rw [eq_sub_iff_add_eq, ← BitVec.ofInt_add, Int.sub_add_cancel]

/-! ### Sums, differences and shifts (R112) -/

theorem add_eq_word (a b : Word) : a + b = word (a.toNat + b.toNat) := BitVec.add_def a b

theorem sub_eq_ofInt (a b : Word) : a - b = BitVec.ofInt 64 (a.toNat - b.toNat) := by
  simp [ofInt_sub_word, BitVec.ofInt_natCast]

theorem shiftAmt_eq (b : Word) : shiftAmt b = b.toNat % 64 := by simp [shiftAmt, wbits, bitsOf]

theorem shiftWord_left (a : Word) (n : Nat) : shiftWord 0 a n = word (a.toNat * 2 ^ n) :=
  eq_word_of_toNat (by simp [shiftWord, Nat.shiftLeft_eq])

theorem shiftWord_right (a : Word) (n : Nat) : shiftWord 1 a n = word (a.toNat / 2 ^ n) := by
  refine eq_word_of_toNat ?_
  have lt : a.toNat / 2 ^ n < 2 ^ 64 := (Nat.div_le_self _ _).trans_lt a.isLt
  rw [Nat.mod_eq_of_lt lt, shiftWord, BitVec.toNat_ushiftRight, Nat.shiftRight_eq_div_pow]

theorem shiftWord_signed (a : Word) (n : Nat) : shiftWord 2 a n = BitVec.ofInt 64 (a.toInt / 2 ^ n) := by
  rw [shiftWord, BitVec.sshiftRight_eq, Int.shiftRight_eq_div_pow]
  rfl

/-- The bits that a rotation pushes out at the bottom come back on top of the shifted rest, so the two parts add (R112). -/
theorem shiftWord_rotate (a : Word) {n : Nat} (hn : n < 64) :
    shiftWord 3 a n = word (a.toNat / 2 ^ n + a.toNat % 2 ^ n * 2 ^ (64 - n)) := by
  have split : 2 ^ 64 = 2 ^ n * 2 ^ (64 - n) := by rw [← pow_add, Nat.add_sub_cancel' hn.le]
  have high : a.toNat <<< (64 - n) % 2 ^ 64 = 2 ^ (64 - n) * (a.toNat % 2 ^ n) := by
    rw [Nat.shiftLeft_eq, split, Nat.mul_mod_mul_right, Nat.mul_comm]
  have low : a.toNat / 2 ^ n < 2 ^ (64 - n) := Nat.div_lt_of_lt_mul (split ▸ a.isLt)
  have rotated : (shiftWord 3 a n).toNat = a.toNat / 2 ^ n + a.toNat % 2 ^ n * 2 ^ (64 - n) := by
    change (a.rotateRight n).toNat = _
    rw [BitVec.toNat_rotateRight, Nat.mod_eq_of_lt hn, high, Nat.shiftRight_eq_div_pow, Nat.or_comm,
      ← Nat.two_pow_add_eq_or_of_lt low, Nat.add_comm, Nat.mul_comm]
  exact eq_word_of_toNat (by rw [← rotated, Nat.mod_eq_of_lt (BitVec.isLt _)])

/-! ### Smaller and larger (R112) -/

theorem ite_slt_eq_min (a b : Word) : (if a.slt b then a else b) = BitVec.ofInt 64 (min a.toInt b.toInt) := by
  simp [min_def_lt, apply_ite (BitVec.ofInt 64), BitVec.slt_eq_decide]

theorem ite_slt_eq_max (a b : Word) : (if a.slt b then b else a) = BitVec.ofInt 64 (max a.toInt b.toInt) := by
  simp [max_def_lt, apply_ite (BitVec.ofInt 64), BitVec.slt_eq_decide]

theorem ite_ult_eq_min (a b : Word) : (if a.ult b then a else b) = word (min a.toNat b.toNat) := by
  simp [min_def_lt, apply_ite word, BitVec.ult_eq_decide]

theorem ite_ult_eq_max (a b : Word) : (if a.ult b then b else a) = word (max a.toNat b.toNat) := by
  simp [max_def_lt, apply_ite word, BitVec.ult_eq_decide]

/-! ### Products (R112) -/

theorem mul_eq_word (a b : Word) : a * b = word (a.toNat * b.toNat) := eq_word_of_toNat (BitVec.toNat_mul a b)

/-- Bits 127:64 of an integer taken modulo 2^128. -/
theorem highWord_ofInt (z : Int) : (BitVec.ofInt 128 z >>> 64).setWidth 64 = BitVec.ofInt 64 (z / 2 ^ 64) := by
  refine BitVec.eq_of_toNat_eq ?_
  rw [BitVec.toNat_setWidth, BitVec.toNat_ushiftRight, BitVec.toNat_ofInt, BitVec.toNat_ofInt, Nat.shiftRight_eq_div_pow]
  omega

theorem mulHigh_eq_ofInt (a b : Word) : mulHigh a b = BitVec.ofInt 64 (a.toInt * b.toInt / 2 ^ 64) := by
  rw [← highWord_ofInt, BitVec.ofInt_mul]
  rfl

theorem mulHighN_eq_word (a b : Word) : mulHighN a b = word (a.toNat * b.toNat / 2 ^ 64) := by
  refine eq_word_of_toNat ?_
  have noWrap : a.toNat * b.toNat < 2 ^ 128 := (Nat.mul_lt_mul'' a.isLt b.isLt).trans_eq (by norm_num)
  have wide : (a.zeroExtend 128 * b.zeroExtend 128).toNat = a.toNat * b.toNat := by
    simpa [BitVec.toNat_mul] using Nat.mod_eq_of_lt noWrap
  rw [mulHighN, BitVec.toNat_setWidth, BitVec.toNat_ushiftRight, wide, Nat.shiftRight_eq_div_pow]

/-! ### Quotients and remainders (R112, R113) -/

@[simp] theorem quotS_zero (a : Word) : quotS a 0 = BitVec.allOnes 64 := if_pos rfl

@[simp] theorem quotN_zero (a : Word) : quotN a 0 = BitVec.allOnes 64 := if_pos rfl

theorem quotS_of_ne_zero (a : Word) {b : Word} (hb : b ≠ 0) : quotS a b = BitVec.ofInt 64 (a.toInt.tdiv b.toInt) := if_neg hb

theorem quotN_of_ne_zero (a : Word) {b : Word} (hb : b ≠ 0) : quotN a b = word (a.toNat / b.toNat) :=
  (if_neg hb).trans BitVec.udiv_def

/-- What a signed quotient leaves over is the remainder of the truncated division. -/
theorem sub_mul_quotS (a : Word) {b : Word} (hb : b ≠ 0) : a - b * quotS a b = BitVec.ofInt 64 (a.toInt.tmod b.toInt) := by
  rw [quotS_of_ne_zero a hb, Int.tmod_def, ofInt_sub_word, BitVec.ofInt_mul, BitVec.ofInt_toInt, BitVec.ofInt_toInt]

theorem sub_mul_quotN (a : Word) {b : Word} (hb : b ≠ 0) : a - b * quotN a b = word (a.toNat % b.toNat) := by
  have parts : word (a.toNat % b.toNat) + b * word (a.toNat / b.toNat) = a := by
    nth_rw 2 [← word_toNat b]
    rw [word, word, word, ← BitVec.ofNat_mul, ← BitVec.ofNat_add, Nat.mod_add_div]
    exact word_toNat a
  rw [quotN_of_ne_zero a hb, sub_eq_iff_eq_add, parts]

theorem quotS_of_toInt {a b : Word} {m n : Int} (ha : a.toInt = m) (hb : b.toInt = n) (hn : n ≠ 0) :
    quotS a b = BitVec.ofInt 64 (m.tdiv n) := by
  subst ha hb
  exact quotS_of_ne_zero a fun h => hn (by simp [h])

theorem sub_mul_quotS_of_toInt {a b : Word} {m n : Int} (ha : a.toInt = m) (hb : b.toInt = n) (hn : n ≠ 0) :
    a - b * quotS a b = BitVec.ofInt 64 (m.tmod n) := by
  subst ha hb
  exact sub_mul_quotS a fun h => hn (by simp [h])

/-! ### Bit counts (R112) -/

theorem popCount_eq_countP (a : Word) : popCount a = (List.finRange 64).countP fun i => a[i] := by
  rw [popCount, ← List.countP_eq_length_filter, ← List.map_coe_finRange_eq_range, List.countP_map]
  exact List.countP_congr fun i _ => by simp

/-- The count of leading zeros is `n` when the `n` highest bits are 0 and the bit below them is 1. -/
theorem leadingZeros_eq {a : Word} {n : Nat} (zeros : ∀ i : Nat, 64 - n ≤ i → a.getLsbD i = false)
    (one : n < 64 → a.getLsbD (63 - n) = true) (hn : n ≤ 64) : leadingZeros a = n := by
  have below : a.toNat < 2 ^ (64 - n) := Nat.lt_pow_two_of_testBit _ zeros
  by_cases ha : a = 0
  · subst ha
    have full : ¬ n < 64 := fun h => by simpa using one h
    simp only [leadingZeros, if_true]
    omega
  · have ha' : a.toNat ≠ 0 := fun h => ha (BitVec.eq_of_toNat_eq h)
    have lt : n < 64 := by
      by_contra h
      rw [Nat.sub_eq_zero_of_le (not_lt.1 h)] at below
      omega
    have log : a.toNat.log2 = 63 - n := (Nat.log2_eq_iff ha').2
      ⟨Nat.ge_two_pow_of_testBit (one lt), by rwa [show 63 - n + 1 = 64 - n by omega]⟩
    rw [leadingZeros, if_neg ha, log]
    omega

/-! ### Bit fields (R116) -/

theorem bfExtract_eq (a : Word) (off wid : Nat) :
    bfExtract a off wid = if wid = 0 ∨ 64 ≤ off then 0 else word (a.toNat / 2 ^ off % 2 ^ min wid (64 - off)) := rfl

theorem bfInsert_none (old a : Word) {off wid : Nat} (h : wid = 0 ∨ 64 ≤ off) : bfInsert old a off wid = none := if_pos h

/-- The mask of an insertion covers the bits of the field that lie in the word. -/
theorem getElem_fieldMask (off wid : Nat) {i : Nat} (hi : i < 64) :
    (word (2 ^ min wid (64 - off) - 1) <<< off)[i] = decide (off ≤ i ∧ i < off + wid) := by
  rw [BitVec.getElem_shiftLeft]
  by_cases h : i < off
  · simp [h]
  · have inWord : i - off < 64 := by omega
    simp only [h, decide_false, Bool.not_false, Bool.true_and, word]
    rw [← BitVec.getLsbD_eq_getElem inWord, BitVec.getLsbD_ofNat, Nat.testBit_two_pow_sub_one, ← Bool.decide_and,
      decide_eq_decide]
    omega

theorem bfInsert_some (old a : Word) {off wid : Nat} (h : ¬ (wid = 0 ∨ 64 ≤ off)) :
    bfInsert old a off wid = some (BitVec.ofFnLE fun i : Fin 64 =>
      if off ≤ i.val ∧ i.val < off + wid then a.getLsbD (i.val - off) else old[i]) := by
  rw [bfInsert, if_neg h]
  refine congrArg some (eq_ofFnLE fun i => ?_)
  rw [Fin.getElem_fin, Fin.getElem_fin]
  refine (getElem_mergeBits old (a <<< off) _ i.isLt).trans ?_
  rw [getElem_fieldMask off wid i.isLt]
  by_cases field : off ≤ i.val ∧ i.val < off + wid
  · have reach : ¬ i.val < off := by omega
    simp [field, reach, BitVec.getElem_shiftLeft, BitVec.getLsbD_eq_getElem (show i.val - off < 64 by omega)]
  · simp [field]

end Sys2Proof.Machine
end

section
/-! SUPPORT. The register form of the integer words (R112, R113, R116), from the shared forms of scalar words and the values of
the operations. -/
namespace Sys2Proof.Machine

/-! ### An instruction of a shared form, its value known -/

section
variable {s : State} {x : Context} {i : Instr} {g : BitVec 4} {guard : Guard} {rd rs rt : BitVec 5} {lat : Nat} {v : Word}

theorem exec_scalarBin {f : Word → Word → Word} (hi : exec i s = scalarBin g rd rs rt lat f s)
    (h : Issues s x ⟨.scalar g, [.s rs, .s rt], [(.s rd, lat)]⟩) (hv : f (x.sdata rs) (x.sdata rt) = v) :
    exec i s = .next (s.sresult lat rd ⟨v, 0⟩ 0) := by
  rw [hi, scalarBin_issues h, hv]

theorem exec_scalarUn {f : Word → Word} (hi : exec i s = scalarUn guard rd rs lat f s)
    (h : Issues s x ⟨guard, [.s rs], [(.s rd, lat)]⟩) (hv : f (x.sdata rs) = v) :
    exec i s = .next (s.sresult lat rd ⟨v, 0⟩ 0) := by
  rw [hi, scalarUn_issues h, hv]

/-- With no field to insert nothing is written, else the bits of the field are (R116). -/
theorem exec_bfInsertWord {more : List (BitVec 5)} {field : Context → Nat × Nat} {off wid : Nat}
    (hi : exec i s = bfInsertWord guard rd rs more field s)
    (h : Issues s x ⟨guard, ([rd, rs] ++ more).map .s, [(.s rd, 1)]⟩) (hf : field x = (off, wid)) :
    if wid = 0 ∨ 64 ≤ off then exec i s = .next s
    else exec i s = .next (s.sresult 1 rd ⟨BitVec.ofFnLE fun i : Fin 64 =>
      if off ≤ i.val ∧ i.val < off + wid then (x.sdata rs).getLsbD (i.val - off) else (x.sdata rd)[i], 0⟩ 0) := by
  rw [hi, bfInsertWord_issues h field, hf]
  split
  · next noField => rw [bfInsert_none _ _ noField]
  · next someField => rw [bfInsert_some _ _ someField]

end

/-- The field of `bfxr` and `bfir` stands in bits 15:0 of a register (R116). -/
theorem registerField_eq (b : Word) : (wbits b 0 8, wbits b 8 8) = (b.toNat % 2 ^ 8, b.toNat / 2 ^ 8 % 2 ^ 8) := by
  simp [wbits, bitsOf]

/-- Settles O1: each word has the result that the shared form of its class gives, and the value is that of the operation's own
rule; the corners of a division are the general quotient and remainder at those operands. -/
theorem integerRegisterWords : Obligations.IntegerRegisterWords := by
  unfold Obligations.IntegerRegisterWords
  refine ⟨fun s x g rd rs rt lat h => ⟨?_, ?_, ?_⟩, fun s x g rd rs rt off wid => ⟨?_, ?_, ?_, ?_, ?_⟩,
    fun s x g rd rs rt h => ⟨?_, ?_, ?_, ?_, ?_⟩⟩
  -- The words of latency 1, 3 and 16.
  · rintro rfl
    exact ⟨exec_scalarBin (exec_add ..) h (add_eq_word _ _),
      exec_scalarBin (exec_sub ..) h (sub_eq_ofInt _ _),
      exec_scalarBin (exec_and ..) h (eq_ofFnLE fun i => BitVec.getElem_and i.isLt),
      exec_scalarBin (exec_or ..) h (eq_ofFnLE fun i => BitVec.getElem_or i.isLt),
      exec_scalarBin (exec_xor ..) h (eq_ofFnLE fun i => BitVec.getElem_xor i.isLt),
      exec_scalarBin (exec_andn ..) h (eq_ofFnLE fun i => by simp),
      exec_scalarBin (exec_sll ..) h (by rw [shiftWord_left, shiftAmt_eq]),
      exec_scalarBin (exec_srl ..) h (by rw [shiftWord_right, shiftAmt_eq]),
      exec_scalarBin (exec_sra ..) h (by rw [shiftWord_signed, shiftAmt_eq]),
      exec_scalarBin (exec_ror ..) h (by rw [shiftAmt_eq, shiftWord_rotate _ (Nat.mod_lt _ (by decide))]),
      exec_scalarBin (exec_slt ..) h (by rw [BitVec.slt_eq_decide, flagWord_decide]),
      exec_scalarBin (exec_sltn ..) h (by rw [BitVec.ult_eq_decide, flagWord_decide]),
      exec_scalarBin (exec_seq ..) h (flagWord_decide _),
      exec_scalarBin (exec_sne ..) h (flagWord_bne _ _),
      exec_scalarBin (exec_min ..) h (ite_slt_eq_min _ _),
      exec_scalarBin (exec_max ..) h (ite_slt_eq_max _ _),
      exec_scalarBin (exec_minn ..) h (ite_ult_eq_min _ _),
      exec_scalarBin (exec_maxn ..) h (ite_ult_eq_max _ _)⟩
  · rintro rfl
    exact ⟨exec_scalarBin (exec_mul ..) h (mul_eq_word _ _),
      exec_scalarBin (exec_mulh ..) h (mulHigh_eq_ofInt _ _),
      exec_scalarBin (exec_mulhn ..) h (mulHighN_eq_word _ _)⟩
  · rintro rfl hb
    exact ⟨exec_scalarBin (exec_div ..) h (quotS_of_ne_zero _ hb),
      exec_scalarBin (exec_divn ..) h (quotN_of_ne_zero _ hb),
      exec_scalarBin (exec_rem ..) h (sub_mul_quotS _ hb),
      exec_scalarBin (exec_remn ..) h (sub_mul_quotN _ hb)⟩
  -- The bit counts and the bit fields.
  · exact fun h => ⟨exec_scalarUn (exec_popc ..) h (congrArg word (popCount_eq_countP _)),
      fun n zeros one hn => exec_scalarUn (exec_clz ..) h (congrArg word (leadingZeros_eq zeros one hn))⟩
  · intro h
    obtain ⟨hoff, hwid⟩ := Prod.mk.inj (registerField_eq (x.sdata rt))
    exact exec_scalarBin (exec_bfxr ..) h (by rw [bfExtract_eq, hoff, hwid])
  · exact fun h => exec_scalarUn (exec_bfx ..) h (bfExtract_eq _ _ _)
  · exact fun h => exec_bfInsertWord (exec_bfir ..) h (registerField_eq _)
  · intro h
    have inWord : ¬ 64 ≤ off.toNat := by omega
    simpa only [inWord, or_false] using exec_bfInsertWord (more := []) (exec_bfi rd rs wid off s) h rfl
  -- Every division has a result, and the corners of R113.
  · exact ⟨_, _, _, _, exec_scalarBin (exec_div ..) h rfl, exec_scalarBin (exec_divn ..) h rfl,
      exec_scalarBin (exec_rem ..) h rfl, exec_scalarBin (exec_remn ..) h rfl⟩
  · intro hb
    exact ⟨exec_scalarBin (exec_div ..) h (by rw [hb, quotS_zero]; rfl),
      exec_scalarBin (exec_divn ..) h (by rw [hb, quotN_zero]; rfl),
      exec_scalarBin (exec_rem ..) h (by simp [hb]),
      exec_scalarBin (exec_remn ..) h (by simp [hb])⟩
  · exact fun ha hb => ⟨exec_scalarBin (exec_div ..) h ((quotS_of_toInt ha hb (by decide)).trans (by decide)),
      exec_scalarBin (exec_rem ..) h (sub_mul_quotS_of_toInt ha hb (by decide))⟩
  · exact fun ha hb => ⟨exec_scalarBin (exec_div ..) h (quotS_of_toInt ha hb (by decide)),
      exec_scalarBin (exec_rem ..) h (sub_mul_quotS_of_toInt ha hb (by decide))⟩
  · exact fun ha hb => ⟨exec_scalarBin (exec_div ..) h (quotS_of_toInt ha hb (by decide)),
      exec_scalarBin (exec_rem ..) h (sub_mul_quotS_of_toInt ha hb (by decide))⟩

end Sys2Proof.Machine
end
